-- ==== Sys2Proof/Word.lean ====
section
/-! DEFINITION. The plainest words of the model: bytes, 32-bit telemetry words (R5), time in nanoseconds, and the
units that the chapters use. -/

namespace Sys2Proof

/-- One byte, the unit of the NVM, of frames and of messages. -/
abbrev Byte := BitVec 8

/-- A telemetry object is 32 bits wide (R5). -/
abbrev Word32 := BitVec 32

/-- A time in nanoseconds on the gauge's own time base. -/
abbrev Time := Nat

/-- Microseconds, in nanoseconds. -/
abbrev us (n : Nat) : Time := n * 1000

/-- Milliseconds, in nanoseconds. -/
abbrev ms (n : Nat) : Time := n * 1000000

/-- Seconds, in nanoseconds. -/
abbrev sec (n : Nat) : Time := n * 1000000000

/-- Minutes, in nanoseconds. -/
abbrev minutes (n : Nat) : Time := n * 60000000000

/-- One slot tick, 250 µs (R594). -/
abbrev slotTickNs : Time := 250000

end Sys2Proof
end

