-- ==== Sys2Proof/Syntax.lean ====
section
/-! DEFINITION. The commands of the block: one constructor of `Instr` per row of spec/opcode_table.json, with what the
gauge observes at its pins and inside as operands. The first operand of each is the time of the step in nanoseconds on
the gauge's own time base. A command whose condition does not hold in the state changes nothing but the time
(assumption log entries 1 and 8). -/

namespace Sys2Proof

/-- The level on LK_ROLE: tied to DGND, tied to VIO, or open (R48). -/
inductive Strap | dgnd | vio | opn
  deriving DecidableEq, Repr

/-- The two feeds. -/
inductive FeedId | a | b
  deriving DecidableEq, Repr

/-- The five modulator channels (Table 5.1). -/
inductive ChId | iA | iB | iP | vBus | vPack
  deriving DecidableEq, Repr

/-- The three fast-trip comparators and sense pairs. -/
inductive TripId | a | b | p
  deriving DecidableEq, Repr

/-- The three thermistor pins. -/
inductive TsId | ts1 | ts2 | ts3
  deriving DecidableEq, Repr

/-- The clock domains that Table 5.10 restarts. -/
inductive DomId | gate | nvm | crypt
  deriving DecidableEq, Repr

/-- The stepped terms of the commanded current (R356). -/
inductive LimitTerm | iFeed | iCv
  deriving DecidableEq, Repr

/-- The detections of Table 8.5 that take time; over-current has two. -/
inductive ChgKind | overvolt | overCurrent | trimLimit | noCurrent | overcharge
  deriving DecidableEq, Repr

/-- A SEND as it stands on the bus after the command code: byte count, data bytes and PEC, none where it is missing (R668, R669). -/
structure SmbSend where
  count : Nat
  data  : List Byte
  pec   : Option Byte
  deriving DecidableEq, Repr

/-- WAKE_N pulled low by another device: for how long, and whether it is still low (R709). -/
structure WakeLow where
  ns   : Nat
  held : Bool
  deriving DecidableEq, Repr

/-- Frames that are ignored (R674, Table 14.5). -/
inductive IgnoreKind | elevenBit | remote | reservedKind
  deriving DecidableEq, Repr

/-- The two host links. -/
inductive LinkId | smbus | can
  deriving DecidableEq, Repr

/-- A Ruell frame: the fields of its identifier (Table 14.4) and its payload. -/
structure RuellFrame where
  prio   : Nat
  kind   : Nat
  device : Nat
  seq    : Nat
  data   : List Byte
  fd     : Bool
  /-- the error state indicator of an FD frame -/
  esi    : Bool := false
  deriving DecidableEq, Repr

/-- A Kersor frame that passed its check sum: SEQ, ACK and payload (Table 15.2). -/
structure KersorFrame where
  seq     : Nat
  ack     : Nat
  payload : List Byte
  deriving DecidableEq, Repr

/-- How a request message arrives: the bytes of a SEND whose PEC was right, or the frame that completes a message. -/
inductive Delivery
  | smbus (msg : List Byte)
  | can (f : RuellFrame)
  deriving DecidableEq, Repr

/-- The end of a tag transaction: no presence pulse, or the bytes that the tag sent, its CRC-16 the last two (R547). -/
inductive TagResult
  | silent
  | answer (bytes : List Byte)
  deriving DecidableEq, Repr

/-- What PK_ID shows that may be a pin fault (Table 12.12): a voltage, or a low that stands this long after the gauge's last
release of the line. -/
inductive PinLevel
  | volts (mv : Int)
  | low (released : Nat)
  deriving DecidableEq, Repr

/-- The tie test of one spur (R409, R410): its voltage before and after the 50 µs, and the other spurs' voltages at their
end, in mV. -/
structure TieTest where
  spur   : Fin 8
  before : Int
  after  : Int
  others : List (Fin 8 × Int)
  deriving DecidableEq, Repr

/-- The evaluated words of a slow-chop block pair: the last four precise words of each half, codes before the tracked
offset (R177). -/
structure BlockWords where
  plus  : Vector Int 4
  minus : Vector Int 4
  deriving DecidableEq, Repr

/-- The four block pairs that every channel runs at step 2 with its input shorted (R179). -/
structure ZeroPhase where
  iA    : Vector BlockWords 4
  iB    : Vector BlockWords 4
  iP    : Vector BlockWords 4
  vBus  : Vector BlockWords 4
  vPack : Vector BlockWords 4
  deriving DecidableEq, Repr

/-- What a CONFIGURE step observed when it ended (Table 4.2): the crystal's frequency as measured against CORE in Hz, and
so on. Voltages in mV, bleed currents in µA. -/
inductive StepInput
  | wakeUp (xtalHz : Nat)
  | image (vHold vTop vinA vinB : Int)
  | selfTest (failed : BitVec 15) (zero : ZeroPhase)
  | mirage (ties : List TieTest)
  | identity
  | precharge
  | guests
  | pair
  | handOver
  deriving DecidableEq, Repr

/-- The end of a CONFIGURE step: what the step observed, and the level on LK_ROLE, which a step that has overrun its maximum
decodes anew (Table 4.3). -/
structure StepEnd where
  strap : Strap
  seen  : StepInput
  deriving DecidableEq, Repr

/-- The place of a reading that a command does not carry: what it looks at stands in the state, formed from the words of I_P,
V_PACK and V_BUS as they came (R27), and there is one reading of each channel. -/
abbrev FromWords := Unit

/-- The commands. -/
inductive Instr
  /-- V_TOP (mV) has risen to `vTop` with VCORE in regulation or not; `strap` is the level on LK_ROLE (R142, R48). -/
  | powerOnResetRelease (t : Time) (vTop : Int) (vcoreOk : Bool) (strap : Strap)
  /-- VHOLD and V_TOP (mV) have fallen to these levels (R142). -/
  | powerOnResetAssert (t : Time) (vHold : Int) (vTop : Int)
  /-- RST_N has been low for `lowNs` (R47). -/
  | rstNLow (t : Time) (lowNs : Nat)
  /-- The sequencer has not served its watchdog for `unservedNs` (R143). -/
  | watchdogTimeout (t : Time) (unservedNs : Nat) (strap : Strap)
  /-- VCORE has been out of its band for `outNs` (R144). -/
  | coreBrownout (t : Time) (outNs : Nat) (strap : Strap)
  /-- An access found a parity error (Table 4.8). -/
  | ramParityError (t : Time) (strap : Strap)
  /-- VSUP (mV) has collapsed; `writesDone` writes of the commit end before VHOLD falls below 3.8 V (R141, R157). -/
  | supplyCollapse (t : Time) (vSup : Int) (writesDone : Nat)
  /-- The present CONFIGURE step ends with what it observed (R123). -/
  | configureStepComplete (t : Time) (inp : StepEnd)
  /-- VHOLD and V_TOP (mV) while a programming is pending (R95). -/
  | otpProgramStart (t : Time) (vHold : Int) (vTop : Int)
  /-- The programming of the slot ends (R94). -/
  | otpProgramDone (t : Time)
  /-- SHIP_N has been low for `lowNs` (R131). -/
  | shipNRequest (t : Time) (lowNs : Nat)
  /-- The armed request is looked at; `shipNHigh` tells that SHIP_N is high again (R134). -/
  | shipRequestLapse (t : Time) (shipNHigh : Bool)
  /-- The present step of the shut-down sequence ends (R139). -/
  | shutdownStepComplete (t : Time)
  /-- In SHIP a feed has stayed at or above `minMv` for `highNs` (R136). -/
  | shipWake (t : Time) (feed : FeedId) (minMv : Int) (highNs : Nat) (strap : Strap)
  /-- The feeds (mV) have not exceeded these levels for `lowNs` (R162). -/
  | wakeLockoutRelease (t : Time) (maxA : Int) (maxB : Int) (lowNs : Nat)
  /-- In LIMP a feed has stayed at or above `minMv` for `durNs`; the feeds now stand at `vinA` and `vinB` (Table 4.6). -/
  | limpFeedSetDecided (t : Time) (feed : FeedId) (minMv : Int) (durNs : Nat) (vinA : Int) (vinB : Int)
  /-- The LIMP floor is looked at (Table 4.6). -/
  | limpFloor (t : Time) (maxMv durNs : FromWords)
  /-- A fast word of a channel: its code before the tracked offset, for how many native words the modulator has
  stood at the extreme `hi`, and whether MOD is within tolerance (R170). -/
  | fastWord (t : Time) (ch : ChId) (code : Int) (run : Nat) (hi : Bool) (modOk : Bool)
  /-- A precise word of a channel, as FAST_WORD (R170, R446). -/
  | preciseWord (t : Time) (ch : ChId) (code : Int) (run : Nat) (hi : Bool) (modOk : Bool)
  /-- The native word of a channel has stood at an extreme for `run` native words (R169). -/
  | modulatorReset (t : Time) (ch : ChId) (run : Nat)
  /-- The sense voltage (µV) at a fast-trip comparator (R301, R351). -/
  | fastTripFire (t : Time) (tc : TripId) (uv : Int)
  /-- The sum of the 64 native codes of a comparator's channel, before the tracked offset (R174, R303). -/
  | fastTripVerdict (t : Time) (tc : TripId) (sum : Nat)
  /-- The last four precise words of each half of a block pair, codes before the tracked offset (R177). -/
  | slowChopBlockPair (t : Time) (ch : ChId) (plus : List Int) (minus : List Int)
  /-- The conversion of the scheduled auxiliary channel ends; `over` tells that its input lies above (true) or
  below (false) its range (R192). -/
  | auxConversionComplete (t : Time) (code : Nat) (overRange : Option Bool)
  /-- During a conversion of a TS pin the bias-fault comparator sees the pin at `ppm` of TSB (R196). -/
  | tsBiasFault (t : Time) (ts : TsId) (ppm : Nat)
  /-- The spur totals of R418 are judged. -/
  | spurTotalOverload (t : Time)
  /-- The crystal has measured `freqHz` (0: no edge) for `badNs` (Table 5.10). -/
  | crystalFail (t : Time) (freqHz : Nat) (badNs : Nat)
  /-- MOD has measured `freqHz` for `badNs` (Table 5.10). -/
  | modClockFault (t : Time) (freqHz : Nat) (badNs : Nat)
  /-- CORE has stood `ppm` from its reference at its trim end stop for `badNs` (Table 5.10). -/
  | coreTrimExhausted (t : Time) (ppm : Int) (badNs : Nat)
  /-- GATE, NVM or CRYPT has measured `khz` for `badNs` (Table 5.10). -/
  | domainClockFault (t : Time) (dom : DomId) (khz : Nat) (badNs : Nat)
  /-- A crossing queue has lost a word of this channel and path (Table 5.10). -/
  | queueOverflow (t : Time) (ch : ChId) (precise : Bool)
  /-- The LPT period and the MOD period are measured against the crystal, 0.1 ppm (R205, R175). -/
  | lptCalibration (t : Time) (corr : Int) (modErr : Int)
  /-- The calibration average is complete (R185). -/
  | calPointComplete (t : Time)
  /-- The calibration point has run for 1 s (R219). -/
  | calPointTimeout (t : Time)
  /-- The isothermal check is due (R246). -/
  | isothermalCheck (t : Time)
  /-- FA_IN or FB_IN (mV) has stood at this level for `durNs` (R280). -/
  | feedWindowCrossing (t : Time) (feed : FeedId) (mv : Int) (durNs : Nat)
  /-- The insertion delay of a channel is looked at (R281). -/
  | insertionDelayExpiry (t : Time) (feed : FeedId)
  /-- A held channel may begin inrush (R284). -/
  | inrushStart (t : Time) (feed : FeedId)
  /-- The governor's update is due (R286). -/
  | inrushGovernorUpdate (t : Time) (feed : FeedId)
  /-- The inrush timer is looked at (R288). -/
  | inrushTimeout (t : Time) (feed : FeedId)
  /-- For `durNs` the sense voltage (µV) and FA_IN − FA_SP (mV) have not exceeded these levels (R289). -/
  | inrushComplete (t : Time) (feed : FeedId) (maxUv : FromWords) (maxDropMv : Int) (durNs : Nat)
  /-- The sense voltage (µV) at the fast-reverse comparator (R295). -/
  | feedFastReverse (t : Time) (feed : FeedId) (uv : Int)
  /-- FA_IN − FA_SP (mV) has stood at or above this level for `durNs` (R296). -/
  | feedReenableStart (t : Time) (feed : FeedId) (minDropMv : Int) (durNs : Nat)
  /-- A 10 ms window of the drop regulator ends (R294). -/
  | dropTargetAdapt (t : Time) (feed : FeedId)
  /-- The 10 s of RETRY_WAIT are looked at (R307). -/
  | feedRetryWaitExpiry (t : Time) (feed : FeedId)
  /-- The 60 s without failure are looked at (R308). -/
  | feedRetryCountReset (t : Time) (feed : FeedId)
  /-- FA_IN (mV) has not exceeded this level for `durNs` (R276). -/
  | feedUncoupled (t : Time) (feed : FeedId) (maxMv : Int) (durNs : Nat)
  /-- FA_IN (mV) has not exceeded this level for `durNs` (Table 7.2). -/
  | feedReversed (t : Time) (feed : FeedId) (maxMv : Int) (durNs : Nat)
  /-- FA_IN (mV) has not fallen below this level for `durNs` (Table 7.2). -/
  | feedReversalClear (t : Time) (feed : FeedId) (minMv : Int) (durNs : Nat)
  /-- The 1 ms mean of the precise words of a feed with sunk gates is judged (R310). -/
  | feedMirageCheck (t : Time) (feed : FeedId)
  /-- A tell-tale test of a sense pair starts (R312, R369). -/
  | kelvinTestStart (t : Time) (pair : TripId)
  /-- The fast-path sense voltages (µV) during the two pulses of the test (R312). -/
  | kelvinTestEnd (t : Time) (pair : TripId) (uvP : FromWords) (uvN : FromWords)
  /-- VCP − V_TOP (mV) has not exceeded this level for `durNs` (R331, R388). -/
  | chargePumpLow (t : Time) (aboveMv : Int) (durNs : Nat)
  /-- VCP − V_TOP (mV) has not fallen below this level for `durNs` (R845). -/
  | chargePumpReady (t : Time) (aboveMv : Int) (durNs : Nat)
  /-- The path in WAIT may begin pre-charge, or pass to STANDBY (R339). -/
  | prechargeStart (t : Time)
  /-- The conditions that end a pre-charge are looked at (R341). -/
  | prechargeComplete (t : Time) (maxBandMv maxMa durNs : FromWords)
  /-- The pre-charge time is looked at (R342). -/
  | prechargeTimeout (t : Time)
  /-- The drop from V_PACK to V_BUS on the fast path is looked at (R345). -/
  | packReenable (t : Time) (minMv durNs : FromWords)
  /-- The drop regulator has held PK_GD sunk for `sunkNs` (R347). -/
  | packStandDown (t : Time) (sunkNs : Nat)
  /-- The sense voltage PK_SP − PK_SN (µV) at the fast-reverse comparator (R348). -/
  | packFastReverse (t : Time) (uv : Int)
  /-- The start conditions of R354 are judged. -/
  | chargeStart (t : Time)
  /-- The 10 ms update of CHG_SET is due (R355). -/
  | chargeSetpointUpdate (t : Time)
  /-- The step interval of I_FEED or I_CV is looked at (R356). -/
  | chargeLimitStep (t : Time) (term : LimitTerm)
  /-- The 1 s trim is due (R357). -/
  | chargeTrim (t : Time)
  /-- The drop regulator has driven PK_GD for `drivenNs` (R358). -/
  | chargeHandBack (t : Time) (drivenNs : Nat)
  /-- A condition of Table 8.5 is looked at. -/
  | chargerFault (t : Time) (kind : ChgKind) (extreme durNs : FromWords)
  /-- The 1 ms step of the share loop, with the code of the SHARE sense (R361, R363). -/
  | shareLoopUpdate (t : Time) (code : Nat)
  /-- SHARE has stood at this code, or beyond it, for `durNs` (Table 8.11). -/
  | shareFault (t : Time) (code : Nat) (durNs : Nat)
  /-- The 1 ms mean of the precise I_P words is judged (R366). -/
  | packMirageCheck (t : Time)
  /-- V_PACK beside a pack mirage is looked at (R368). -/
  | packMirageFeedStop (t : Time) (minMv durNs : FromWords)
  /-- V_PACK is looked at for a reversed pack (Table 8.2). -/
  | packReversed (t : Time) (maxMv durNs : FromWords)
  /-- V_PACK is looked at for the end of a reversal (Table 8.2). -/
  | packReversalClear (t : Time) (minMv durNs : FromWords)
  /-- The 10 s of RETRY_WAIT are looked at (R337). -/
  | packRetryWaitExpiry (t : Time)
  /-- The 60 s without failure are looked at (R338). -/
  | packRetryCountReset (t : Time)
  /-- The ramp of a spur reaches full enhancement (R394). -/
  | spurRampComplete (t : Time) (n : Fin 8) (others : List (Fin 8 × Int))
  /-- A spur ramping down stands at `mv` (R393). -/
  | spurRampdownComplete (t : Time) (n : Fin 8) (mv : Int)
  /-- A spur enters or leaves its analog current limit (R395). -/
  | spurCurrentLimit (t : Time) (n : Fin 8) (inLimit : Bool)
  /-- A spur has held its current limit for `durNs` (R400). -/
  | spurLimitHeld (t : Time) (n : Fin 8) (durNs : Nat)
  /-- A ramping spur stands at `mv` at its deadline (R400). -/
  | spurRampDeadline (t : Time) (n : Fin 8) (mv : Int)
  /-- The switch junction of a spur reaches `tjDeg` (°C) (R400). -/
  | spurThermalShutdown (t : Time) (n : Fin 8) (tjDeg : Int)
  /-- The switch junction of a spur has cooled to `tjDeg` (°C) (R404). -/
  | spurThermalCooled (t : Time) (n : Fin 8) (tjDeg : Int)
  /-- A conducting spur stands `overMv` above V_BUS (R406). -/
  | spurBackfeedOn (t : Time) (n : Fin 8) (overMv : Int)
  /-- The last second of a BLOCKED spur is judged (R393). -/
  | spurBlockedRelease (t : Time) (n : Fin 8)
  /-- The 100 ms of RETRY_WAIT are looked at (R431). -/
  | spurRetryWaitExpiry (t : Time) (n : Fin 8)
  /-- The 60 s in ON are looked at (R402). -/
  | spurRetryCountReset (t : Time) (n : Fin 8)
  /-- The 10 min of FAULTED are looked at (R403). -/
  | spurFaultedProbe (t : Time) (n : Fin 8)
  /-- The 1 s of a probe is looked at (R403). -/
  | spurProbeSuccess (t : Time) (n : Fin 8)
  /-- The off-state test ends with the spur at `mv` (R414). -/
  | spurOffStateTestEnd (t : Time) (n : Fin 8) (mv : Int)
  /-- The 1 s diagnosis of a spur without slots is due; `mv` is the off-state test reading when it is off (R415). -/
  | spurContinuousDiagnosis (t : Time) (n : Fin 8) (mv : Int)
  /-- An on-window of the sampling-rate governor starts or ends (R450). -/
  | governorOnWindow (t : Time) (start : Bool)
  /-- A governor second ends (R452). -/
  | governorSecond (t : Time)
  /-- The pack sense voltage (µV) at the wake comparator in a duty state (R451). -/
  | wakeComparatorCrossing (t : Time) (uv : Int)
  /-- The fast-path |I_P| of a burst is looked at (R451). -/
  | burstEnd (t : Time) (maxMa durNs : FromWords)
  /-- The OPEN or OVER words of I_P are looked at (R448). -/
  | countGap (t : Time)
  /-- The 1 s mean of |I_P| is compared with REST (R453). -/
  | restSecond (t : Time)
  /-- An anchor is due (R456). -/
  | anchorDue (t : Time)
  /-- The estimator's update is due (R458). -/
  | estimatorUpdate (t : Time)
  /-- A second of CHARGE is judged for end of charge (R467). -/
  | endOfChargeDeclared (t : Time)
  /-- A second is judged for end of discharge (R469). -/
  | endOfDischargeDeclared (t : Time)
  /-- The first estimate is formed (R472). -/
  | firstEstimate (t : Time)
  /-- A phase of an impedance measurement ends (R516). -/
  | impedancePhaseEnd (t : Time)
  /-- The 15 min of R523 are looked at. -/
  | periodicJournalCommit (t : Time)
  /-- The 4 h of R526 are looked at. -/
  | periodicTagWrite (t : Time)
  /-- The tag transaction in progress ends (R547). -/
  | tagTransactionComplete (t : Time) (res : TagResult)
  /-- A probe reset sequence on PK_ID ends (R564). -/
  | tagProbe (t : Time) (answered : Bool)
  /-- The next GET_RESPONSE is due (R561). -/
  | getResponsePoll (t : Time)
  /-- The signature verification in progress completes (R563). -/
  | signatureVerified (t : Time)
  /-- The 1 s of the exchange is looked at (R571). -/
  | exchangeAbandon (t : Time)
  /-- The 1 s of adoption is looked at (R571). -/
  | adoptionAbandon (t : Time)
  /-- A due tag-write event starts (R572). -/
  | tagWriteStart (t : Time)
  /-- The record signature is ready (R574). -/
  | tagRecordSigned (t : Time)
  /-- The 2 ms after COMMIT_SLOT are looked at (R572). -/
  | tagCommitWaitExpiry (t : Time)
  /-- PK_ID has lain outside its range, or has been held low, for `durNs` (R592). -/
  | pkIdPinFault (t : Time) (level : PinLevel) (durNs : Nat)
  /-- The 1 s after a pin fault is looked at (R592). -/
  | pkIdDriverResume (t : Time)
  /-- A slot tick (R594). -/
  | slotTick (t : Time)
  /-- The provisional decision of a spur's next slot is due (R619). -/
  | slotProvisionalDecision (t : Time) (n : Fin 8)
  /-- The CAN domain is wanted for a spur's next slot (R620). -/
  | canStartForSlot (t : Time) (n : Fin 8)
  /-- The final decision of a spur's next slot is due (R621). -/
  | slotFinalDecision (t : Time) (n : Fin 8)
  /-- The planned end of a spur's running slot is reached (R613). -/
  | slotPlannedEnd (t : Time) (n : Fin 8)
  /-- The slot-edge current read of a spur completes with its code (R606). -/
  | slotEndRead (t : Time) (n : Fin 8) (code : Nat) (overRange : Option Bool)
  /-- The latest start of a guest's released slot is looked at (R615). -/
  | slotLate (t : Time) (g : Nat)
  /-- The cellar fill in progress ends (R631). -/
  | cellarFillComplete (t : Time)
  /-- The 15 min ledger check is due (R610). -/
  | ledgerCheck (t : Time)
  /-- The spur period in which a cut fell is looked at (R644). -/
  | spurCutRelease (t : Time) (n : Fin 8)
  /-- A SEND with a wrong or missing PEC, or a zero byte count (R668, R669). -/
  | smbusSendDiscarded (t : Time) (x : SmbSend)
  /-- A FETCH (R671). -/
  | smbusFetch (t : Time)
  /-- A read without a command code (R670). -/
  | smbusZeroLengthRead (t : Time)
  /-- The master has held SMB_CLK low for `lowNs` (R673). -/
  | smbusClockTimeout (t : Time) (lowNs : Nat)
  /-- Another device has held an SMBus line low for `lowNs` (Table 14.13). -/
  | smbStuck (t : Time) (lowNs : Nat)
  /-- The Alert Response Address was read from `startedAt`; `won` tells that the gauge won arbitration (R707). -/
  | alertResponseRead (t : Time) (startedAt : Time) (won : Bool)
  /-- The 10 ms of a WAKE_N pulse are looked at (R708). -/
  | wakeNPulseEnd (t : Time)
  /-- A REQUEST frame that R677 or R678 discards. -/
  | ruellSegmentDiscarded (t : Time) (f : RuellFrame)
  /-- The 50 ms between frames of one message are looked at (R678). -/
  | reassemblyTimeout (t : Time) (sender : Nat)
  /-- An 11-bit, remote or reserved-kind frame (R674). -/
  | canFrameIgnored (t : Time) (kind : IgnoreKind)
  /-- A frame with the gauge's own address that it did not send (R727). -/
  | ownAddressFrame (t : Time) (f : RuellFrame)
  /-- The release instant of a waiting response (R690). -/
  | sessionResponseRelease (t : Time) (link : LinkId)
  /-- The 60 s of a session are looked at (R688). -/
  | sessionIdleTimeout (t : Time) (h : Nat)
  /-- The 1 s of a half-open handle is looked at (R688). -/
  | sessionHalfOpenTimeout (t : Time) (h : Nat)
  /-- The 10 s of the lockout are looked at (R689). -/
  | sessionLockoutEnd (t : Time)
  /-- The pending command is looked at (R692). -/
  | pendingOutcomeReady (t : Time)
  /-- A request with this opcode arrives (R693). -/
  | cmdRead (t : Time) (d : Delivery)
  /-- A request with this opcode arrives (R747). -/
  | cmdGuestRead (t : Time) (d : Delivery)
  /-- A request with this opcode arrives (R691). -/
  | cmdJournalRead (t : Time) (d : Delivery)
  /-- A request with this opcode arrives (R692). -/
  | cmdResult (t : Time) (d : Delivery)
  /-- A request with this opcode arrives (R683). -/
  | cmdSessionOpen (t : Time) (d : Delivery)
  /-- A request with this opcode arrives (R683). -/
  | cmdSessionConfirm (t : Time) (d : Delivery)
  /-- A request with this opcode arrives (R688). -/
  | cmdSessionClose (t : Time) (d : Delivery)
  /-- A request with this opcode arrives (R698). -/
  | cmdSetTime (t : Time) (d : Delivery)
  /-- A request with this opcode arrives (R132). -/
  | cmdShip (t : Time) (d : Delivery)
  /-- A request with this opcode arrives (R694). -/
  | cmdClearSticky (t : Time) (d : Delivery)
  /-- A request with this opcode arrives (R638). -/
  | cmdGuestRevoke (t : Time) (d : Delivery)
  /-- A request with this opcode arrives (R638). -/
  | cmdGuestRestore (t : Time) (d : Delivery)
  /-- A request with this opcode arrives (R699). -/
  | cmdDepot (t : Time) (d : Delivery)
  /-- A request with this opcode arrives (R120). -/
  | cmdDepotExit (t : Time) (d : Delivery)
  /-- A request with this opcode arrives (R697). -/
  | cmdRestart (t : Time) (d : Delivery)
  /-- The response to CMD_RESTART has been sent, or the 10 ms are looked at (R697). -/
  | restartAfterResponse (t : Time) (sent : Bool) (strap : Strap)
  /-- A request with this opcode arrives (R185). -/
  | cmdCalPoint (t : Time) (d : Delivery)
  /-- A request with this opcode arrives (R579). -/
  | cmdTagRead (t : Time) (d : Delivery)
  /-- A request with this opcode arrives (R579). -/
  | cmdTagWrite (t : Time) (d : Delivery)
  /-- A request with this opcode arrives (R105). -/
  | cmdImageBegin (t : Time) (d : Delivery)
  /-- A request with this opcode arrives (R695). -/
  | cmdImageWrite (t : Time) (d : Delivery)
  /-- A request with this opcode arrives (R106). -/
  | cmdImageCheck (t : Time) (d : Delivery)
  /-- A request with a reserved opcode arrives (R700). -/
  | unknownOpcode (t : Time) (d : Delivery)
  /-- The controller goes bus-off (R681). -/
  | canBusOff (t : Time)
  /-- CAN_RX has been low for `lowNs` with CAN_TX recessive (Table 14.13). -/
  | canRxStuck (t : Time) (lowNs : Nat)
  /-- The oldest waiting frame is looked at (R721). -/
  | canFrameDropped (t : Time)
  /-- Another device has held WAKE_N low for some time, and still does or has released it (R709). -/
  | wakeNWake (t : Time) (low : WakeLow)
  /-- WAKE_N has been held low for `lowNs` (Table 14.13). -/
  | wakeNStuck (t : Time) (lowNs : Nat)
  /-- CAN_RX has been low for `lowNs` with CAN_STB high (R710). -/
  | canRxWake (t : Time) (lowNs : Nat)
  /-- The conditions of R711 are looked at. -/
  | canDomainStop (t : Time)
  /-- The 200 µs after the release of CAN_STB have passed (R712). -/
  | canOwnWake (t : Time)
  /-- The time source's 1 s is due (R703). -/
  | timeSyncSend (t : Time)
  /-- A TIME_SYNC with this source address is received (R704). -/
  | timeSync (t : Time) (src : Nat) (seq : Nat)
  /-- A TIME_FOLLOW is received (R704). -/
  | timeFollow (t : Time) (src : Nat) (seq : Nat) (stampUs : Nat) (absolute : Bool)
  /-- The 10 s without TIME_FOLLOW are looked at (R705). -/
  | timeSourceLost (t : Time)
  /-- Commas on one alignment within a time (R736). -/
  | kersorLockAcquired (t : Time) (commas : Nat) (withinNs : Nat)
  /-- Bad symbols within 64 (R736). -/
  | kersorLockLost (t : Time) (bad : Nat)
  /-- A frame that R738 discards. -/
  | kersorFrameDiscarded (t : Time)
  /-- The 500 µs of the oldest unacknowledged frame are looked at (R741). -/
  | kersorRetransmit (t : Time)
  /-- A Kersor frame of this type is received (R758). -/
  | heartbeat (t : Time) (f : KersorFrame)
  /-- A Kersor frame of this type is received (R752). -/
  | join (t : Time) (f : KersorFrame)
  /-- A Kersor frame of this type is received (R744). -/
  | summary (t : Time) (f : KersorFrame)
  /-- A Kersor frame of this type is received (R745). -/
  | guestRecord (t : Time) (f : KersorFrame)
  /-- A Kersor frame of this type is received (R749). -/
  | provisional (t : Time) (f : KersorFrame)
  /-- A Kersor frame of this type is received (R749). -/
  | close (t : Time) (f : KersorFrame)
  /-- A Kersor frame of this type is received (R759). -/
  | leaving (t : Time) (f : KersorFrame)
  /-- A Kersor frame of this type is received (R753). -/
  | restore (t : Time) (f : KersorFrame)
  /-- A Kersor frame of this type is received (R754). -/
  | recordsEnd (t : Time) (f : KersorFrame)
  /-- The 2.2 ms without a valid heartbeat are looked at (R758). -/
  | pairLinkLost (t : Time)
  /-- A drive phase of the SHARE probe ends with this code of the SHARE sense (R361, R760). -/
  | pairProbePhase (t : Time) (phase : Nat) (code : Nat)
  /-- The probe is judged at d + 2.0 ms (R761). -/
  | pairProbeDecision (t : Time)
  /-- The repeat of the probe while split is due (R763). -/
  | pairSplitProbeRepeat (t : Time)
  /-- The 1 ms JOIN of step 7 is due (R750). -/
  | pairJoinSend (t : Time)
  /-- The 60 ms of step 7 are looked at (R755). -/
  | pairJoinTimeout (t : Time)
  /-- A requested commit may begin (R797). -/
  | journalCommitStart (t : Time)
  /-- RDSR shows the write finished; `ok` tells whether the cells hold what was written (R797). -/
  | nvmWriteComplete (t : Time) (ok : Bool)
  /-- The 10 ms of the write in progress are looked at (R798). -/
  | journalWriteTimeout (t : Time)
  /-- The cleared bits are judged again (R792). -/
  | stickyReassert (t : Time)
  /-- RST_N returns high (R47). -/
  | rstNRelease (t : Time) (strap : Strap)
  /-- The higher of VHOLD and PK_P (mV) has fallen to this level (R142). -/
  | retentionLoss (t : Time) (mv : Int)
  /-- The controller has completed its bus-off recovery (R681). -/
  | busOffRecovered (t : Time)
  /-- The 10 s retry with CAN_RX found stuck (R730). -/
  | canRxStuckRetry (t : Time) (stillStuck : Bool)
  /-- A REQUEST frame that does not complete a message (R678). -/
  | ruellRequestSegment (t : Time) (f : RuellFrame)
  deriving DecidableEq, Repr

end Sys2Proof
end

