-- ==== Sys2Proof/Decode.lean ====
section
/-! DEFINITION. Words of the command table. The table gives no row bits, so no word spells a command. -/

namespace Sys2Proof

/-- The command that a word of the table spells: none, since the table gives its rows no bits. -/
def decodeTableWord (_nbits _w : Nat) : Option Instr := none

end Sys2Proof
end

