-- ==== Sys2Proof/Config.lean ====
section
/-! DEFINITION. What is fixed for one part (its factory constants and the free values of assumption log entries 2 and 3)
and the configuration image as the gauge holds it after loading (Tables 3.7 to 3.19), each field with the default that
an absent section gives it (R84). -/

namespace Sys2Proof.Config

/-! ### Free values: constants without a body, of which nothing can be proved -/

/-- The gauge's random source (R12): the n-th byte drawn since manufacture. -/
opaque random : Nat → Byte

/-- Byte i of the factory UID, 128 bits (chapter 3). -/
opaque uidByte : Nat → Byte

/-- Byte i of the device key K_DEV, 128 bits (chapter 3). -/
opaque kDevByte : Nat → Byte

/-- The private scalar of the record-signing key pair (R558). -/
opaque recordScalar : Nat

/-- Factory words 0xF00, 0xF01 and 0xF02 of T.VENDOR, fixed for each part (R716); the spec gives no values. -/
opaque vendorWord : Nat → BitVec 32

/-- Whether a pulse between the ignored length and the effective length acts: RST_N low for 2 … 5 µs (R47) and SHIP_N low
for 1 … 10 ms (R131). The argument is the free counter of the state. -/
opaque pulseActs : Nat → Bool

/-- The temperature, 0.01 °C, of a VALID ratio of 0, for which R233 states none. -/
opaque ntcAtZero : Int

/-- Whether a refresh burst of the charge pump runs at a time in PARKED (Table 2.3); the spec gives no schedule. -/
opaque gateBurst : Time → Bool

/-- The spur whose turn in the tie test of CONFIGURE step 3 it is, 8 or more between the tests: the spec gives the order of the
tests (R409) and not their instants (log entry 141). -/
opaque tieTurn : Time → Nat

/-- A byte that the cells of a failed NVM write hold; the argument is the free counter of the state. -/
opaque failedByte : Nat → Byte

/-- Whether the NVM does not complete a write of CMD_IMAGE_BEGIN, CMD_IMAGE_WRITE or CMD_IMAGE_CHECK (status NVM of Table 14.7); the
argument is the free counter of the state. -/
opaque nvmWriteFails : Nat → Bool

/-- By how much bus errors raise the transmit and the receive error counter between two frames: no command reports such an error.
The argument counts those intervals (log entry 18). -/
opaque txErrors : Nat → Nat
opaque rxErrors : Nat → Nat

/-- Where ISO 11898-1 sets a receive error counter above 127 back to after a good frame: 119 … 127, as this free value decides. -/
opaque rxBack : Nat → Nat

/-- The eighth bit of the address byte in an Alert Response, which SMBus leaves open (R707). -/
opaque alertBit : Time → Bool

/-- What a quotient of `x` by zero gives where the spec divides and states no result for a divisor of zero. -/
opaque quotientByZero : Rat → Rat

/-- The 16 bytes of the UID, least significant first. -/
def uid : List Byte := (List.range 16).map uidByte

/-- The 16 bytes of K_DEV. -/
def kDev : List Byte := (List.range 16).map kDevByte

end Sys2Proof.Config

namespace Sys2Proof

/-! ### The configuration image, field by field -/

/-- C.DEVICE (Table 3.7). -/
structure DeviceCfg where
  ruellAddr  : Nat
  smbAddr    : Nat := 0x2C
  timeSource : Bool := false
  deriving DecidableEq, Repr

/-- C.CAL (Table 3.8); the five channels in the order I_A, I_B, I_P, V_BUS, V_PACK. -/
structure CalCfg where
  gain      : Vector Int 5 := Vector.replicate 5 0
  offset    : Vector Int 5 := Vector.replicate 5 0
  auxGain   : Int := 0
  auxOffset : Int := 0
  dieOffset : Int := 0
  deriving DecidableEq, Repr

/-- C.BOARD (Table 3.9). -/
structure BoardCfg where
  fitted  : BitVec 8 := 0x7F
  spurs   : BitVec 8 := 0xFF
  xtal20  : Bool := false
  nvCk    : Nat := 10
  fram    : Bool := false
  nvmPage : Nat := 5
  deriving DecidableEq, Repr

/-- C.FEED_A or C.FEED_B (Table 3.10). -/
structure FeedCfg where
  rsns        : Nat := 2000
  uvRise      : Nat := 180
  ovRise      : Nat := 340
  uvHyst      : Nat := 10
  ovHyst      : Nat := 10
  insDelay    : Nat := 20
  fastTrip    : Nat := 5
  inrushLim   : Nat := 10
  inrushTimer : Nat := 50
  govBudget   : Nat := 500
  fuseSlow    : Nat := 40
  revThr      : Nat := 6
  fuseTau     : Nat := 1000
  dropMin     : Nat := 10
  dropMax     : Nat := 40
  deriving DecidableEq, Repr

/-- C.PACK (Table 3.11). CHEM is 0 for lithium-iron-phosphate and 1 for nickel-manganese-cobalt. -/
structure PackCfg where
  rsns      : Nat := 2000
  cells     : Nat := 8
  chem      : Nat := 0
  vShut     : Nat := 2500
  preTime   : Nat := 250
  fastTrip  : Nat := 5
  revThr    : Nat := 6
  fuseSlow  : Nat := 40
  unauth    : Nat := 0
  designCap : Nat := 100000
  fuseTau   : Nat := 1000
  deriving DecidableEq, Repr

/-- C.CHARGER (Table 3.12). -/
structure ChargerCfg where
  vChg    : Nat := 3600
  iMax    : Nat := 10000
  iAtFull : Nat := 12000
  tLow    : Int := 0
  tHigh   : Int := 45
  deriving DecidableEq, Repr

/-- C.GAUGE (Table 3.13). -/
structure GaugeCfg where
  quiet    : Nat := 20
  rest     : Nat := 10
  taper    : Nat := 20
  conv     : Nat := 1
  learnCap : Bool := true
  learnImp : Bool := true
  deriving DecidableEq, Repr

/-- One state-of-charge point of a profile (Table 3.14). -/
structure ProfilePoint where
  ocv  : Nat
  ser  : Nat
  polF : Nat
  tauF : Nat
  polS : Nat
  tauS : Nat
  deriving DecidableEq, Repr

/-- A chemistry profile (Table 3.14): the 16 points of Table 10.1 and REST_SCALE in sixteenths. -/
structure Profile where
  points    : List ProfilePoint
  restScale : Nat := 16
  deriving DecidableEq, Repr

/-- C.TEMP (Table 3.15). -/
structure TempCfg where
  dsgLow     : Int := -30
  dsgHigh    : Int := 65
  boardHigh  : Int := 105
  dieHigh    : Int := 135
  spurDerate : Int := 120
  xcheck     : Nat := 8
  deriving DecidableEq, Repr

/-- One entry of C.SPUR (Table 3.16). -/
structure SpurCfg where
  defaultOn  : Bool := true
  ssMin      : Nat := 2
  ssMax      : Nat := 20
  retries    : Nat := 3
  houseAllow : Nat := 20
  tieMerge   : Bool := false
  deriving DecidableEq, Repr

/-- C.INN (Table 3.17). -/
structure InnCfg where
  classes    : Nat := 4
  provLead   : Nat := 5
  beaconPrio : Nat := 3
  deriving DecidableEq, Repr

/-- C.PAIR (Table 3.17). -/
structure PairCfg where
  wSoc  : Nat := 128
  wTemp : Nat := 64
  deriving DecidableEq, Repr

/-- C.GUEST (Table 3.18): one contract. -/
structure GuestCfg where
  index    : Nat
  spur     : Nat
  side     : Bool
  beacon   : Bool
  cls      : Nat
  period   : Nat
  slotLen  : Nat
  deadline : Nat
  phase    : Nat
  energy   : Nat
  oasis    : Nat
  vmin     : Nat
  iMax     : Nat
  deriving DecidableEq, Repr

/-- C.RUELL and C.SMBUS (Table 3.19). -/
structure LinkCfg where
  nomRate  : Nat := 1
  dataRate : Nat := 2
  nomSp    : Nat := 80
  dataSp   : Nat := 75
  tdc      : Bool := true
  smbSpeed : Nat := 1
  deriving DecidableEq, Repr

/-- One key of C.TRUST (Table 3.19). -/
structure TrustKey where
  usage : BitVec 2
  key   : List Byte
  deriving DecidableEq, Repr

/-- The roles of C.KEYS (Table 3.5). -/
inductive Role | owner | depot | guest
  deriving DecidableEq, Repr

/-- One unwrapped role key (R98, R100). -/
structure RoleKey where
  role  : Role
  index : Nat
  key   : List Byte
  deriving DecidableEq, Repr

/-- ROM open-circuit voltages of Table 10.2. -/
def romOcv (chem : Nat) : List Nat :=
  if chem = 0 then
    [2500, 2850, 3000, 3150, 3200, 3230, 3265, 3290, 3300, 3310, 3320, 3330, 3335, 3345, 3370, 3430]
  else
    [3000, 3300, 3450, 3550, 3600, 3630, 3680, 3730, 3780, 3850, 3930, 4010, 4050, 4090, 4140, 4190]

/-- A ROM impedance value scaled to the design capacity: rounded to the nearest µΩ and clamped to `lo … 65,535` (R442). -/
def romScale (designCap lo v : Nat) : Nat :=
  max lo (min 65535 ((2 * v * 100000 + designCap) / (2 * designCap)))

/-- The ROM profile of a chemistry (R442, Tables 10.2 and 10.3). -/
def romProfile (chem designCap : Nat) : Profile :=
  let pt (k ocv : Nat) : ProfilePoint :=
    let low := k < 3
    let ser := if chem = 0 then (if low then 3000 else 1500) else (if low then 2000 else 1000)
    let pf := if chem = 0 then (if low then 1200 else 600) else (if low then 800 else 400)
    let ps := if chem = 0 then (if low then 1800 else 900) else (if low then 1400 else 700)
    { ocv := ocv, ser := romScale designCap 1 ser, polF := romScale designCap 0 pf
      tauF := if chem = 0 then 2000 else 1500, polS := romScale designCap 0 ps
      tauS := if chem = 0 then 600 else 450 }
  { points := (romOcv chem).zipIdx.map fun p => pt p.2 p.1 }

/-- Everything a loaded image tells the gauge, every field at the default of an absent section (R84). -/
structure Cfg where
  device   : DeviceCfg
  cal      : CalCfg := {}
  board    : BoardCfg := {}
  feedA    : FeedCfg := {}
  feedB    : FeedCfg := {}
  pack     : PackCfg := {}
  charger  : ChargerCfg := {}
  gauge    : GaugeCfg := {}
  profile  : Option Profile := none
  temp     : TempCfg := {}
  spurs    : Vector SpurCfg 8 := Vector.replicate 8 {}
  inn      : InnCfg := {}
  pair     : PairCfg := {}
  links    : LinkCfg := {}
  trust    : List TrustKey := []
  keys     : List RoleKey := []
  cert     : List Byte := []
  sequence : Nat := 0
  fleet    : Bool := false
  deriving DecidableEq, Repr

/-- Every field at its default, with the Ruell address UID[15:0] (Table 3.7). LIMP applies these defaults (R148). -/
def Cfg.default : Cfg :=
  { device := { ruellAddr := (Config.uidByte 0).toNat + 256 * (Config.uidByte 1).toNat } }

end Sys2Proof
end

