-- ==== Sys2Proof/Machine/Bytes.lean ====
section
/-! DEFINITION. Byte strings, check sums and the NVM as canonical data: little-endian fields (chapter 3), CRC-32 (R75),
CRC-16 (R548), the packet-error code of SMBus, and reads and writes of NVM bytes. -/

namespace Sys2Proof.Machine

/-! ### Little-endian fields -/

/-- The number that bytes spell, least significant first. -/
def leNat : List Byte → Nat
  | [] => 0
  | b :: bs => b.toNat + 256 * leNat bs

/-- `n` bytes of `v`, least significant first. -/
def leBytes : Nat → Nat → List Byte
  | 0, _ => []
  | n + 1, v => BitVec.ofNat 8 v :: leBytes n (v / 256)

/-- The bytes at `off … off + n − 1`; bytes past the end read as zero. -/
def slice (bs : List Byte) (off n : Nat) : List Byte :=
  let p := (bs.drop off).take n
  p ++ List.replicate (n - p.length) 0

def u8At (bs : List Byte) (off : Nat) : Nat := (bs.getD off 0).toNat
def u16At (bs : List Byte) (off : Nat) : Nat := leNat (slice bs off 2)
def u32At (bs : List Byte) (off : Nat) : Nat := leNat (slice bs off 4)

/-- The value of `n` bits read as two's complement. -/
def signed (n v : Nat) : Int := if v % 2 ^ n < 2 ^ (n - 1) then (v % 2 ^ n : Nat) else ((v % 2 ^ n : Nat) : Int) - 2 ^ n

def i8At (bs : List Byte) (off : Nat) : Int := signed 8 (u8At bs off)
def i16At (bs : List Byte) (off : Nat) : Int := signed 16 (u16At bs off)

/-- Two's complement of `n` bits. -/
def twos (n : Nat) (v : Int) : Nat := (v % (2 ^ n : Int)).toNat

def u8B (v : Nat) : List Byte := leBytes 1 v
def u16B (v : Nat) : List Byte := leBytes 2 v
def u32B (v : Nat) : List Byte := leBytes 4 v
def i16B (v : Int) : List Byte := leBytes 2 (twos 16 v)
def i32B (v : Int) : List Byte := leBytes 4 (twos 32 v)

/-- All bytes zero: what a reserved field must be. -/
def allZero (bs : List Byte) : Bool := bs.all (· == 0)

/-! ### Check sums -/

/-- Eight steps of the reflected CRC-32 register. -/
def crc32Bits : Nat → BitVec 32 → BitVec 32
  | 0, r => r
  | n + 1, r => crc32Bits n (if r.getLsbD 0 then (r >>> 1) ^^^ 0xEDB88320 else r >>> 1)

/-- CRC-32 as IEEE 802.3 (R75). -/
def crc32 (bs : List Byte) : Nat :=
  (~~~ bs.foldl (fun r b => crc32Bits 8 (r ^^^ b.setWidth 32)) (0xFFFFFFFF : BitVec 32)).toNat

def crc16Bits : Nat → BitVec 16 → BitVec 16
  | 0, r => r
  | n + 1, r => crc16Bits n (if r.getLsbD 15 then (r <<< 1) ^^^ 0x1021 else r <<< 1)

/-- One byte through the CRC-16 register. -/
def crc16Step (r : BitVec 16) (b : Byte) : BitVec 16 := crc16Bits 8 (r ^^^ ((b.setWidth 16 : BitVec 16) <<< (8 : Nat)))

/-- Bytes through the CRC-16 register. Both branches take the same step; the test only lets the kernel evaluate byte by byte. -/
def crc16From : BitVec 16 → List Byte → BitVec 16
  | r, [] => r
  | r, b :: bs => if r = 0 then crc16From (crc16Step 0 b) bs else crc16From (crc16Step r b) bs

/-- CRC-16, polynomial 0x1021, initial value 0xFFFF, without reflection (R548). -/
def crc16 (bs : List Byte) : Nat := (crc16From 0xFFFF bs).toNat

def crc8Bits : Nat → BitVec 8 → BitVec 8
  | 0, r => r
  | n + 1, r => crc8Bits n (if r.getLsbD 7 then (r <<< 1) ^^^ 0x07 else r <<< 1)

/-- The SMBus packet-error code, CRC-8 with polynomial 0x07 (PRESUMED from the SMBus standard, log entry 5). -/
def pec (bs : List Byte) : Byte := bs.foldl (fun r b => crc8Bits 8 (r ^^^ b)) 0

/-! ### The NVM: a list of cells in one canonical form -/

/-- What an NVM byte that nothing has written reads as (DESIGN CHOICE, log entry 6). -/
def nvmBlank : Byte := 0xFF

/-- The NVM contents. -/
abbrev Nvm := List Host.Cell

/-- One byte of the NVM. -/
def Nvm.read : Nvm → Nat → Byte
  | [], _ => nvmBlank
  | (a, v) :: m, x => if x = a then v else if x < a then nvmBlank else Nvm.read m x

/-- Writes one byte and keeps the canonical form: addresses rise, and no cell holds the blank value. -/
def Nvm.write : Nvm → Nat → Byte → Nvm
  | [], x, b => if b = nvmBlank then [] else [(x, b)]
  | (a, v) :: m, x, b =>
    if x < a then (if b = nvmBlank then (a, v) :: m else (x, b) :: (a, v) :: m)
    else if x = a then (if b = nvmBlank then m else (a, b) :: m)
    else (a, v) :: Nvm.write m x b

/-- Writes consecutive bytes. -/
def Nvm.writeBytes (m : Nvm) (a : Nat) : List Byte → Nvm
  | [] => m
  | b :: bs => Nvm.writeBytes (Nvm.write m a b) (a + 1) bs

/-- Reads `n` consecutive bytes. -/
def Nvm.readBytes (m : Nvm) (a n : Nat) : List Byte := (List.range n).map fun i => Nvm.read m (a + i)

/-- Applies the writes that a command put on the NVM interface, in order. -/
def Nvm.apply (m : Nvm) (ws : List (Nat × List Byte)) : Nvm :=
  ws.foldl (fun m w => Nvm.writeBytes m w.1 w.2) m

/-- The first address of a list of cells lies above `lo`, the rest rise, and none holds the blank value. -/
def Nvm.wfFrom : Nat → Nvm → Bool
  | _, [] => true
  | lo, (a, v) :: m => decide (lo ≤ a) && v != nvmBlank && Nvm.wfFrom (a + 1) m

/-- The canonical form of the NVM contents. -/
def Nvm.wf (m : Nvm) : Bool := Nvm.wfFrom 0 m

/-! ### Lists as small tables -/

/-- Replaces the entry at `i`, if there is one. -/
def updAt {α : Type} : List α → Nat → (α → α) → List α
  | [], _, _ => []
  | x :: xs, 0, f => f x :: xs
  | x :: xs, n + 1, f => x :: updAt xs n f

/-- Increment that stops at `m`. -/
def satInc (m n : Nat) : Nat := if n < m then n + 1 else m

end Sys2Proof.Machine
end

