-- ==== Sys2Proof/Machine/Crypto.lean ====
section
/-! DEFINITION. The standard algorithms that R12 names: SHA-256, AES-128, AES-CMAC and ECDSA on P-256. The spec names
the standards and does not repeat them; these texts follow the published standards (assumption log entry 4). -/

namespace Sys2Proof.Crypto

/-- Big-endian number of a byte string. -/
def beNat (bs : List Byte) : Nat := bs.foldl (fun a b => a * 256 + b.toNat) 0

/-- `n` bytes of `v`, most significant first. -/
def beBytes : Nat → Nat → List Byte
  | 0, _ => []
  | n + 1, v => BitVec.ofNat 8 (v / 256 ^ n) :: beBytes n (v % 256 ^ n)

/-! ### SHA-256 -/

/-- The round constants of SHA-256, eight to a row, the first of a row in its highest 32 bits. -/
def shaKRows : List Nat :=
  [0x428a2f9871374491b5c0fbcfe9b5dba53956c25b59f111f1923f82a4ab1c5ed5,
   0xd807aa9812835b01243185be550c7dc372be5d7480deb1fe9bdc06a7c19bf174,
   0xe49b69c1efbe47860fc19dc6240ca1cc2de92c6f4a7484aa5cb0a9dc76f988da,
   0x983e5152a831c66db00327c8bf597fc7c6e00bf3d5a7914706ca635114292967,
   0x27b70a852e1b21384d2c6dfc53380d13650a7354766a0abb81c2c92e92722c85,
   0xa2bfe8a1a81a664bc24b8b70c76c51a3d192e819d6990624f40e3585106aa070,
   0x19a4c1161e376c082748774c34b0bcb5391c0cb34ed8aa4a5b9cca4f682e6ff3,
   0x748f82ee78a5636f84c878148cc7020890befffaa4506cebbef9a3f7c67178f2]

/-- The `n` words of 32 bits that a row holds, highest first. -/
def rowWords : Nat → Nat → List (BitVec 32)
  | 0, _ => []
  | n + 1, r => BitVec.ofNat 32 (r / 2 ^ (32 * n)) :: rowWords n r

/-- The 64 round constants in the order of the rounds. -/
def shaK : List (BitVec 32) := shaKRows.flatMap (rowWords 8)

/-- Three rotations of a word, combined; the two big sigma functions are instances. -/
def rot3 (x : BitVec 32) (i j k : Nat) : BitVec 32 := x.rotateRight i ^^^ x.rotateRight j ^^^ x.rotateRight k

/-- Two rotations and a shift of a word, combined; the two small sigma functions are instances. -/
def rotShift (x : BitVec 32) (i j k : Nat) : BitVec 32 := (x >>> k) ^^^ (x.rotateRight j ^^^ x.rotateRight i)

/-- Bit by bit, `p` where `sel` is set and `q` elsewhere. -/
def choose (sel p q : BitVec 32) : BitVec 32 := q ^^^ (sel &&& (p ^^^ q))

/-- Bit by bit, what at least two of the three have. -/
def majority (p q r : BitVec 32) : BitVec 32 := (p &&& q) ||| (r &&& (p ||| q))

/-- The state of the hash: two halves of four words, each shifted along by a round. -/
structure ShaHalf where
  w0 : BitVec 32
  w1 : BitVec 32
  w2 : BitVec 32
  w3 : BitVec 32

/-- The state of the hash. -/
structure Sha where
  top : ShaHalf
  low : ShaHalf

/-- A word enters a half, and its last word leaves. -/
def ShaHalf.push (x : BitVec 32) (s : ShaHalf) : ShaHalf := ⟨x, s.w0, s.w1, s.w2⟩

def ShaHalf.add (s t : ShaHalf) : ShaHalf := ⟨s.w0 + t.w0, s.w1 + t.w1, s.w2 + t.w2, s.w3 + t.w3⟩

def ShaHalf.words (s : ShaHalf) : List (BitVec 32) := [s.w0, s.w1, s.w2, s.w3]

/-- A half from its four words in one number. -/
def ShaHalf.ofRow (r : Nat) : ShaHalf :=
  ⟨BitVec.ofNat 32 (r / 2 ^ 96), BitVec.ofNat 32 (r / 2 ^ 64), BitVec.ofNat 32 (r / 2 ^ 32), BitVec.ofNat 32 r⟩

def shaInit : Sha := ⟨.ofRow 0x6a09e667bb67ae853c6ef372a54ff53a, .ofRow 0x510e527f9b05688c1f83d9ab5be0cd19⟩

/-- The next word of the message schedule, which is kept as its latest sixteen words, newest first. -/
def shaNextW (w : List (BitVec 32)) : BitVec 32 :=
  rotShift (w.getD 1 0) 17 19 10 + w.getD 6 0 + rotShift (w.getD 14 0) 7 18 3 + w.getD 15 0

/-- One round: `kw` is the sum of the round's constant and message word. -/
def shaRound (kw : BitVec 32) (v : Sha) : Sha :=
  let into := kw + v.low.w3 + choose v.low.w0 v.low.w1 v.low.w2 + rot3 v.low.w0 6 11 25
  ⟨v.top.push (into + (majority v.top.w0 v.top.w1 v.top.w2 + rot3 v.top.w0 2 13 22)), v.low.push (v.top.w3 + into)⟩

/-- The rounds over the constants that are left; `ahead` are message words not yet used. -/
def shaRounds : List (BitVec 32) → List (BitVec 32) → List (BitVec 32) → Sha → Sha
  | [], _, _, v => v
  | k :: ks, ahead, win, v =>
    let w := ahead.headD (shaNextW win)
    shaRounds ks ahead.tail ((w :: win).take 16) (shaRound (k + w) v)

/-- The hash state after one block of 64 bytes. -/
def shaBlock (v : Sha) (blk : List Byte) : Sha :=
  let r := shaRounds shaK (rowWords 16 (beNat blk)) [] v
  ⟨v.top.add r.top, v.low.add r.low⟩

/-- The hash state after `n` blocks. -/
def shaBlocks : Nat → List Byte → Sha → Sha
  | 0, _, v => v
  | n + 1, bs, v => shaBlocks n (bs.drop 64) (shaBlock v (bs.take 64))

/-- A message with its padding: the bit 1, zeros, and its length in bits, to whole blocks. -/
def shaPad (m : List Byte) : List Byte :=
  m ++ 0x80 :: List.replicate ((119 - m.length % 64) % 64) 0 ++ beBytes 8 (8 * m.length)

/-- SHA-256 of a byte string, 32 bytes. -/
def sha256 (m : List Byte) : List Byte :=
  let p := shaPad m
  let v := shaBlocks (p.length / 64) p shaInit
  (v.top.words ++ v.low.words).flatMap fun w => beBytes 4 w.toNat

/-! ### AES-128 and AES-CMAC -/

/-- Multiplication by x in the AES field. The bytes of AES are numbers here. -/
def xtime (b : Nat) : Nat := (2 * b) ^^^ (b / 128 * 0x11b)

/-- Multiplication in the AES field, over the `n` bits of `b` that are left. -/
def gmul : Nat → Nat → Nat → Nat
  | 0, _, _ => 0
  | n + 1, a, b => (b % 2 * a) ^^^ gmul n (xtime a) (b / 2)

/-- The substitution table of AES, a row of sixteen bytes for each high half of the argument. -/
def aesSbox : List Nat :=
  [0x637c777bf26b6fc53001672bfed7ab76, 0xca82c97dfa5947f0add4a2af9ca472c0, 0xb7fd9326363ff7cc34a5e5f171d83115,
   0x04c723c31896059a071280e2eb27b275, 0x09832c1a1b6e5aa0523bd6b329e32f84, 0x53d100ed20fcb15b6acbbe394a4c58cf,
   0xd0efaafb434d338545f9027f503c9fa8, 0x51a3408f929d38f5bcb6da2110fff3d2, 0xcd0c13ec5f974417c4a77e3d645d1973,
   0x60814fdc222a908846eeb814de5e0bdb, 0xe0323a0a4906245cc2d3ac629195e479, 0xe7c8376d8dd54ea96c56f4ea657aae08,
   0xba78252e1ca6b4c6e8dd741f4bbd8b8a, 0x703eb5664803f60e613557b986c11d9e, 0xe1f8981169d98e949b1e87e9ce5528df,
   0x8ca1890dbfe6426841992d0fb054bb16]

/-- The inverse table. -/
def aesInvSbox : List Nat :=
  [0x52096ad53036a538bf40a39e81f3d7fb, 0x7ce339829b2fff87348e4344c4dee9cb, 0x547b9432a6c2233dee4c950b42fac34e,
   0x082ea16628d924b2765ba2496d8bd125, 0x72f8f66486689816d4a45ccc5d65b692, 0x6c704850fdedb9da5e154657a78d9d84,
   0x90d8ab008cbcd30af7e45805b8b34506, 0xd02c1e8fca3f0f02c1afbd0301138a6b, 0x3a9111414f67dcea97f2cfcef0b4e673,
   0x96ac7422e7ad3585e2f937e81c75df6e, 0x47f11a711d29c5896fb7620eaa18be1b, 0xfc563e4bc6d279209adbc0fe78cd5af4,
   0x1fdda8338807c731b11210592780ec5f, 0x60517fa919b54a0d2de57a9f93c99cef, 0xa0e03b4dae2af5b0c8ebbb3c83539961,
   0x172b047eba77d626e169146355210c7d]

/-- The byte of a table at `b`. -/
def sboxAt (rows : List Nat) (b : Nat) : Nat := rows.getD (b / 16) 0 / 256 ^ (15 - b % 16) % 256

/-- The AES substitution. -/
def aesSub (b : Nat) : Nat := sboxAt aesSbox b

/-- The inverse substitution. -/
def aesInvSub (b : Nat) : Nat := sboxAt aesInvSbox b

def xorAll (a b : List Nat) : List Nat := List.zipWith (· ^^^ ·) a b

/-- The key schedule: `n` round keys after this one. -/
def aesKeys : Nat → Nat → List Nat → List (List Nat)
  | 0, _, k => [k]
  | n + 1, rc, k =>
    let g := [aesSub (k.getD 13 0) ^^^ rc, aesSub (k.getD 14 0), aesSub (k.getD 15 0), aesSub (k.getD 12 0)]
    let w0 := xorAll (k.take 4) g
    let w1 := xorAll ((k.drop 4).take 4) w0
    let w2 := xorAll ((k.drop 8).take 4) w1
    let w3 := xorAll ((k.drop 12).take 4) w2
    k :: aesKeys n (xtime rc) (w0 ++ w1 ++ w2 ++ w3)

/-- Row shift of the state, which is kept column by column; `d` is 1 to encrypt and 3 to decrypt. -/
def shiftRows (d : Nat) (s : List Nat) : List Nat :=
  (List.range 16).map fun i => s.getD ((i + 4 * d * (i % 4)) % 16) 0

/-- One column times the circulant matrix whose first row is given, of entries of `n` bits. -/
def mixColumn (n : Nat) (m c : List Nat) : List Nat :=
  (List.range 4).map fun r =>
    (List.range 4).foldl (fun a k => a ^^^ gmul n (c.getD k 0) (m.getD ((k + 4 - r) % 4) 0)) 0

def mixColumns (n : Nat) (m s : List Nat) : List Nat :=
  (List.range 4).flatMap fun c => mixColumn n m ((s.drop (4 * c)).take 4)

def aesRounds : List (List Nat) → List Nat → List Nat
  | [], s => s
  | [k], s => xorAll (shiftRows 1 (s.map aesSub)) k
  | k :: ks, s => aesRounds ks (xorAll (mixColumns 2 [2, 3, 1, 1] (shiftRows 1 (s.map aesSub))) k)

/-- AES-128 encryption of one block. -/
def aesEncrypt (key blk : List Byte) : List Byte :=
  match aesKeys 10 1 (key.map (·.toNat)) with
  | [] => blk
  | k :: ks => (aesRounds ks (xorAll (blk.map (·.toNat)) k)).map (BitVec.ofNat 8)

/-- The inverse rounds, with the round keys last first. -/
def aesInvRounds : List (List Nat) → List Nat → List Nat
  | [], s => s
  | [k], s => xorAll ((shiftRows 3 s).map aesInvSub) k
  | k :: ks, s => aesInvRounds ks (mixColumns 4 [14, 11, 13, 9] (xorAll ((shiftRows 3 s).map aesInvSub) k))

/-- AES-128 decryption of one block. -/
def aesDecrypt (key blk : List Byte) : List Byte :=
  match (aesKeys 10 1 (key.map (·.toNat))).reverse with
  | [] => blk
  | k :: ks => (aesInvRounds ks (xorAll (blk.map (·.toNat)) k)).map (BitVec.ofNat 8)

def xorBytes (a b : List Byte) : List Byte := List.zipWith (· ^^^ ·) a b

/-- Doubling in the field of AES-CMAC. -/
def cmacDouble (b : List Byte) : List Byte :=
  let v := beNat b
  let d := (2 * v) % 2 ^ 128
  beBytes 16 (if v ≥ 2 ^ 127 then d ^^^ 0x87 else d)

def cmacChain (key : List Byte) : Nat → List Byte → List Byte → List Byte
  | 0, _, x => x
  | n + 1, m, x => cmacChain key n (m.drop 16) (aesEncrypt key (xorBytes x (m.take 16)))

/-- AES-CMAC, 16 bytes. -/
def aesCmac (key m : List Byte) : List Byte :=
  let k1 := cmacDouble (aesEncrypt key (List.replicate 16 0))
  let k2 := cmacDouble k1
  let n := if m.isEmpty then 1 else (m.length + 15) / 16
  let lastPart := m.drop (16 * (n - 1))
  let lastBlk :=
    if lastPart.length = 16 then xorBytes lastPart k1
    else xorBytes (lastPart ++ [0x80] ++ List.replicate (15 - lastPart.length) 0) k2
  let x := cmacChain key (n - 1) m (List.replicate 16 0)
  aesEncrypt key (xorBytes x lastBlk)

/-! ### ECDSA on P-256 -/

def p256 : Nat := 0xffffffff00000001000000000000000000000000ffffffffffffffffffffffff
def n256 : Nat := 0xffffffff00000000ffffffffffffffffbce6faada7179e84f3b9cac2fc632551
def b256 : Nat := 0x5ac635d8aa3a93e7b3ebbd55769886bc651d06b0cc53b0f63bce3c3e27d2604b
def gx256 : Nat := 0x6b17d1f2e12c4247f8bce6e563a440f277037d812deb33a0f4a13945d898c296
def gy256 : Nat := 0x4fe342e2fe1a7f9b8ee7eb4a7c0f9e162bce33576b315ececbb6406837bf51f5

/-- `b ^ e mod m` by squaring, over `fuel` bits of the exponent. -/
def powMod (m : Nat) : Nat → Nat → Nat → Nat
  | 0, _, _ => 1 % m
  | fuel + 1, b, e => ((if e % 2 = 1 then b else 1) * powMod m fuel (b * b % m) (e / 2)) % m

/-- The inverse modulo a prime. -/
def invMod (m a : Nat) : Nat := powMod m 256 (a % m) (m - 2)

/-- A point of the curve; none is the point at infinity. -/
abbrev Pt := Option (Nat × Nat)

def onCurve (x y : Nat) : Bool :=
  x < p256 && y < p256 && (y * y) % p256 == (x * x * x + (p256 - 3) * x + b256) % p256

def ptAdd : Pt → Pt → Pt
  | none, q => q
  | p, none => p
  | some (x1, y1), some (x2, y2) =>
    if x1 = x2 ∧ (y1 + y2) % p256 = 0 then none
    else
      let l := if x1 = x2 then (3 * x1 * x1 + (p256 - 3)) * invMod p256 (2 * y1) % p256
               else (y2 + p256 - y1) * invMod p256 (x2 + p256 - x1) % p256
      let x3 := (l * l + 2 * p256 - x1 - x2) % p256
      some (x3, (l * (x1 + p256 - x3) + p256 - y1) % p256)

/-- Jacobian coordinates X, Y, Z of the point X / Z², Y / Z³; Z = 0 is the point at infinity. -/
structure Jac where
  x : Nat
  y : Nat
  z : Nat

/-- `a - b` modulo p, of residues. -/
def subP (a b : Nat) : Nat := (a + p256 - b) % p256

def jacDouble (p : Jac) : Jac :=
  let dd := p.z * p.z % p256
  let g := p.y * p.y % p256
  let b := p.x * g % p256
  let a := 3 * (subP p.x dd * (p.x + dd)) % p256
  let x3 := subP (a * a % p256) (8 * b % p256)
  ⟨x3, subP (a * subP (4 * b % p256) x3 % p256) (8 * g * g % p256), 2 * p.y * p.z % p256⟩

def jacAdd (p q : Jac) : Jac :=
  if p.z = 0 then q
  else if q.z = 0 then p
  else
    let zp := p.z * p.z % p256
    let zq := q.z * q.z % p256
    let u := p.x * zq % p256
    let s := p.y * (zq * q.z % p256) % p256
    let h := subP (q.x * zp % p256) u
    let r := subP (q.y * (zp * p.z % p256) % p256) s
    if h = 0 then if r = 0 then jacDouble p else ⟨1, 1, 0⟩
    else
      let hh := h * h % p256
      let hhh := hh * h % p256
      let v := u * hh % p256
      let x3 := subP (r * r % p256) ((hhh + 2 * v) % p256)
      ⟨x3, subP (r * subP v x3 % p256) (s * hhh % p256), p.z * q.z % p256 * h % p256⟩

def jacMul : Nat → Nat → Jac → Jac
  | 0, _, _ => ⟨1, 1, 0⟩
  | fuel + 1, k, p => jacAdd (if k % 2 = 1 then p else ⟨1, 1, 0⟩) (jacMul fuel (k / 2) (jacDouble p))

/-- Scalar multiplication over `fuel` bits of the scalar. -/
def ptMul (fuel k : Nat) (p : Pt) : Pt :=
  match p with
  | none => none
  | some (x, y) =>
    let j := jacMul fuel k ⟨x, y, 1⟩
    if j.z = 0 then none
    else
      let w := invMod p256 j.z
      let ww := w * w % p256
      some (j.x * ww % p256, j.y * (ww * w % p256) % p256)

/-- A number stored least significant byte first, as the image and the tag store keys and signatures (R81, R556). -/
def leNat (bs : List Byte) : Nat := beNat bs.reverse

/-- `n` bytes, least significant first. -/
def leBytes (n v : Nat) : List Byte := (beBytes n (v % 256 ^ n)).reverse

/-- A 64-byte public key, X then Y, each least significant byte first, is a point of the curve. -/
def keyOk (key : List Byte) : Bool :=
  key.length == 64 && onCurve (leNat (key.take 32)) (leNat (key.drop 32))

/-- ECDSA P-256 with SHA-256: `sig` is r then s, each least significant byte first (R81, R556). -/
def ecdsaVerify (key msg sig : List Byte) : Bool :=
  let r := leNat (sig.take 32)
  let s := leNat ((sig.drop 32).take 32)
  if keyOk key && sig.length == 64 && 0 < r && r < n256 && 0 < s && s < n256 then
    let e := beNat (sha256 msg)
    let w := invMod n256 s
    let q := some (leNat (key.take 32), leNat (key.drop 32))
    match ptAdd (ptMul 256 (e * w % n256) (some (gx256, gy256))) (ptMul 256 (r * w % n256) q) with
    | none => false
    | some (x, _) => x % n256 == r
  else false

/-- ECDSA signing with the private scalar `d` and the random scalar `k`. -/
def ecdsaSign (d k : Nat) (msg : List Byte) : List Byte :=
  let e := beNat (sha256 msg)
  let k' := k % (n256 - 1) + 1
  match ptMul 256 k' (some (gx256, gy256)) with
  | none => List.replicate 64 0
  | some (x, _) =>
    let r := x % n256
    leBytes 32 r ++ leBytes 32 (invMod n256 k' * (e + r * d) % n256)

/-- The public key of a private scalar, X then Y, least significant byte first. -/
def publicKey (d : Nat) : List Byte :=
  match ptMul 256 (d % n256) (some (gx256, gy256)) with
  | none => List.replicate 64 0
  | some (x, y) => leBytes 32 x ++ leBytes 32 y

/-- Decompression of a 33-byte key (R556); none when the first byte or X is invalid. -/
def decompress (c : List Byte) : Option (List Byte) :=
  match c with
  | [] => none
  | h :: xs =>
    let x := leNat xs
    let y2 := (x * x * x + (p256 - 3) * x + b256) % p256
    let y := powMod p256 256 y2 ((p256 + 1) / 4)
    if (h = 2 || h = 3) && xs.length == 32 && x < p256 && (y * y) % p256 == y2 then
      let y' := if y % 2 = h.toNat % 2 then y else p256 - y
      some (leBytes 32 x ++ leBytes 32 y')
    else none

/-- Compression of a 64-byte key (R556). -/
def compress (key : List Byte) : List Byte :=
  (if leNat (key.drop 32) % 2 = 0 then 2 else 3) :: key.take 32

end Sys2Proof.Crypto
end

