-- ==== Sys2Proof/Machine/Image.lean ====
section
/-! DEFINITION. The configuration image (chapter 3): the region map, the layout of a copy, the checks of Table 3.4 in
their order, the cross-field rules of Table 3.20, the unwrapping of keys and the fields that a copy loads. Everything
here is a function of the bytes of the NVM. -/

namespace Sys2Proof.Machine

/-! ### Region map -/

/-- The fields of a region map (Table 3.1). -/
structure RegionMap where
  sizeCode   : Nat
  copyA      : Nat
  copyB      : Nat
  copyLen    : Nat
  journal    : Nat
  journalLen : Nat
  cellar     : Nat
  cellarLen  : Nat
  bytes44    : List Byte
  deriving DecidableEq, Repr

/-- Two regions do not overlap; an empty region overlaps nothing. -/
def disjointRegions (a b : Nat × Nat) : Bool :=
  a.2 == 0 || b.2 == 0 || decide (a.1 + a.2 ≤ b.1) || decide (b.1 + b.2 ≤ a.1)

def pairwiseDisjoint : List (Nat × Nat) → Bool
  | [] => true
  | r :: rs => rs.all (disjointRegions r) && pairwiseDisjoint rs

/-- The fields of 48 bytes read as Table 3.1 lays them out. -/
def regionMapFields (bs : List Byte) : RegionMap :=
  { sizeCode := u8At bs 5, copyA := u32At bs 8, copyB := u32At bs 12, copyLen := u32At bs 16
    journal := u32At bs 20, journalLen := u32At bs 24, cellar := u32At bs 28, cellarLen := u32At bs 32
    bytes44 := slice bs 0 44 }

/-- The regions of a map, start and length. -/
def RegionMap.regions (m : RegionMap) : List (Nat × Nat) :=
  [(m.copyA, m.copyLen), (m.copyB, m.copyLen), (m.journal, m.journalLen), (m.cellar, m.cellarLen)]

/-- R76: when a map is valid. A region of length 0 holds no byte, so it is excepted from the bounds (DESIGN CHOICE, log
entry 111). -/
def mapValid (bs : List Byte) : Bool :=
  let m := regionMapFields bs
  slice bs 0 4 == [0x53, 0x4B, 0x50, 0x4D] && u8At bs 4 == 1 && decide (m.sizeCode ≤ 6) && u16At bs 6 == 0
    && decide (4096 ≤ m.copyLen) && decide (m.copyLen ≤ 65536)
    && allZero (slice bs 36 8) && u32At bs 44 == crc32 (slice bs 0 44)
    && m.regions.all (fun r => r.2 == 0 || (decide (0xFF < r.1) && decide (r.1 + r.2 ≤ 32768 * 2 ^ m.sizeCode)))
    && pairwiseDisjoint m.regions
    && m.copyA % 256 == 0 && m.copyB % 256 == 0
    && m.journal % 64 == 0 && m.cellar % 64 == 0 && m.journalLen % 64 == 0 && m.cellarLen % 64 == 0
    && decide (2048 ≤ m.journalLen)

/-- R77: the primary map when it is valid, otherwise the backup; the flag tells that the backup is used. -/
def selectMap (nvm : Nvm) : Option (RegionMap × Bool) :=
  let p := nvm.readBytes 0 48
  let b := nvm.readBytes 0x40 48
  if mapValid p then some (regionMapFields p, false)
  else if mapValid b then some (regionMapFields b, true)
  else none

/-! ### Copy results -/

/-- The reasons of Table 3.4. -/
inductive CopyReason
  | accepted | noMagic | format | length | target | uid | rollback | keyHash | fleetBlank | signature | structure_
  | unknownTag | range | crossField | layout | wrap | certKey | notTried | map
  deriving DecidableEq, Repr

/-- The codes of Table 3.4. -/
def CopyReason.code : CopyReason → Nat
  | .accepted => 0x00 | .noMagic => 0x01 | .format => 0x02 | .length => 0x03 | .target => 0x04 | .uid => 0x05
  | .rollback => 0x06 | .keyHash => 0x07 | .fleetBlank => 0x08 | .signature => 0x09 | .structure_ => 0x0A
  | .unknownTag => 0x0B | .range => 0x0C | .crossField => 0x0D | .layout => 0x0E | .wrap => 0x0F
  | .certKey => 0x10 | .notTried => 0x11 | .map => 0x12

/-- RESULT and OFFSET of a copy (Table 3.21). -/
structure CopyResult where
  reason : CopyReason
  tag    : Nat := 0
  offset : Nat := 0
  deriving DecidableEq, Repr

/-- One signer-key slot of the OTP (chapter 3, "Signing and fixing the signer key"). -/
inductive OtpSlot
  | blank
  | fixed (hash : List Byte)
  | damaged
  deriving DecidableEq, Repr

/-- The hash that R93 compares with: that of the lowest-numbered fixed slot. -/
def fixedHash (s1 s2 : OtpSlot) : Option (List Byte) :=
  match s1, s2 with
  | .fixed h, _ => some h
  | _, .fixed h => some h
  | _, _ => none

/-! ### Sections -/

/-- A section as it stands in a copy; `off` is the offset of its header in the copy. -/
structure Section where
  tag  : Nat
  off  : Nat
  body : List Byte
  deriving DecidableEq, Repr

/-- The allowed body lengths of the sections of Table 3.3. -/
def bodyLenOk (tag len : Nat) : Bool :=
  match tag with
  | 0x0010 => len == 8
  | 0x0011 => len == 44
  | 0x0012 => len % 28 == 0 && decide (1 ≤ len / 28) && decide (len / 28 ≤ 1026)
  | 0x0013 => decide (1 ≤ len) && decide (len ≤ 256)
  | 0x0014 => len == 28
  | 0x0020 => len == 8
  | 0x0100 => len == 20
  | 0x0140 => len == 20
  | 0x0200 => len == 20
  | 0x0280 => len == 8
  | 0x0300 => len == 8
  | 0x0320 => len == 196
  | 0x0400 => len == 8
  | 0x0500 => len == 64
  | 0x0600 => len == 8
  | 0x0610 => len == 24
  | 0x0800 => len == 8
  | 0x0900 => len == 8
  | 0x0980 => len == 4
  | 0x0A40 => len % 68 == 0 && decide (1 ≤ len / 68) && decide (len / 68 ≤ 4)
  | _ => true

/-- The tags of Table 3.3. -/
def knownTags : List Nat :=
  [0x0010, 0x0011, 0x0012, 0x0013, 0x0014, 0x0020, 0x0100, 0x0140, 0x0200, 0x0280, 0x0300, 0x0320, 0x0400, 0x0500,
   0x0600, 0x0610, 0x0800, 0x0900, 0x0980, 0x0A40]

/-- A tag that R86 accepts: one of Table 3.3 or an annotation. -/
def tagKnown (tag : Nat) : Bool := knownTags.contains tag || (decide (0xE000 ≤ tag) && decide (tag ≤ 0xEFFF))

/-- Parses `bs`, which begins at offset `off` of the copy, into sections (R82, R83, R85). `fuel` bounds the count; the
error is the tag and offset at fault. -/
def parseSections : Nat → Nat → Nat → List Byte → Except (Nat × Nat) (List Section)
  | 0, _, off, bs => if bs.isEmpty then .ok [] else .error (0, off)
  | fuel + 1, least, off, bs =>
    if bs.isEmpty then .ok []
    else if bs.length < 4 then .error (0, off)
    else
      let tag := u16At bs 0
      let len := u16At bs 2
      let total := (4 + len + 3) / 4 * 4
      if bs.length < total then .error (tag, off)
      else if !(decide (least ≤ tag) || (tag == 0x0610 && least == tag + 1)) then .error (tag, off)
      else if len ≠ 0 && !bodyLenOk tag len then .error (tag, off)
      else if !allZero (slice bs (4 + len) (total - 4 - len)) then .error (tag, off + 4 + len)
      else
        match parseSections fuel (tag + 1) (off + total) (bs.drop total) with
        | .error e => .error e
        | .ok rest => .ok ({ tag := tag, off := off, body := slice bs 4 len } :: rest)

/-- The body of a section that is present: its LENGTH is not zero (R84). -/
def findSection (secs : List Section) (tag : Nat) : Option Section :=
  secs.find? fun s => s.tag == tag && !s.body.isEmpty

/-- The body of a section, if present. -/
def bodyOf (secs : List Section) (tag : Nat) : Option (List Byte) := (findSection secs tag).map (·.body)

/-! ### Reserved bytes and field ranges -/

/-- Reserved byte ranges of each section body: offset and width (Tables 3.5 to 3.19). -/
def reservedBytes : Nat → List (Nat × Nat)
  | 0x0010 => [(4, 4)]
  | 0x0014 => [(25, 3)]
  | 0x0020 => [(1, 1), (7, 1)]
  | 0x0200 => [(18, 2)]
  | 0x0300 => [(7, 1)]
  | 0x0320 => [(193, 3)]
  | 0x0400 => [(6, 2)]
  | 0x0500 => (List.range 8).map fun n => (8 * n + 7, 1)
  | 0x0600 => [(3, 5)]
  | 0x0800 => [(2, 6)]
  | 0x0900 => [(5, 3)]
  | 0x0980 => [(1, 3)]
  | _ => []

/-- The first reserved byte or bit of a section that is not zero, as an offset in its body (check 10). -/
def reservedFault (s : Section) : Option Nat :=
  match (reservedBytes s.tag).find? (fun r => !s.body.isEmpty && !allZero (slice s.body r.1 r.2)) with
  | some r => some r.1
  | none =>
    if s.body.isEmpty then none
    else if s.tag = 0x0300 && 4 ≤ u8At s.body 6 then some 6
    else if s.tag = 0x0A40 then
      ((List.range (s.body.length / 68)).find? fun m => decide (4 ≤ u32At s.body (68 * m))).map (68 * ·)
    else none

/-- An entry of C.KEYS that breaks R98: a role outside Table 3.5, a non-zero byte 1, a non-zero INDEX of OWNER or DEPOT,
or a ROLE and INDEX already used; `seen` are the pairs before it. -/
def keysFault : Nat → Nat → List (Nat × Nat) → List Byte → Option Nat
  | 0, _, _, _ => none
  | fuel + 1, off, seen, bs =>
    if bs.isEmpty then none
    else
      let role := u8At bs 0
      let idx := u16At bs 2
      if role == 0 || decide (3 < role) || u8At bs 1 != 0 || (role != 3 && idx != 0) || seen.contains (role, idx)
      then some off
      else keysFault fuel (off + 28) ((role, idx) :: seen) (bs.drop 28)

/-- One field with its range (R108). -/
structure FieldRange where
  off    : Nat
  width  : Nat
  signed : Bool
  lo     : Int
  hi     : Int

def fieldU (off width : Nat) (lo hi : Int) : FieldRange := ⟨off, width, false, lo, hi⟩
def fieldS (off : Nat) (lo hi : Int) : FieldRange := ⟨off, 1, true, lo, hi⟩

def feedRanges : List FieldRange :=
  [fieldU 0 2 1000 10000, fieldU 2 2 60 400, fieldU 4 2 60 400, fieldU 6 1 2 20, fieldU 7 1 2 20, fieldU 9 1 0 7,
   fieldU 10 1 2 40, fieldU 11 1 1 250, fieldU 12 2 10 2000, fieldU 14 1 4 80, fieldU 15 1 2 20, fieldU 16 2 10 10000,
   fieldU 18 1 10 40, fieldU 19 1 10 40]

def profileRanges : List FieldRange :=
  ((List.range 16).map fun k => fieldU (2 * k) 2 2000 4300) ++
  ((List.range 16).flatMap fun k =>
    [fieldU (32 + 10 * k) 2 1 65535, fieldU (36 + 10 * k) 2 1 65535, fieldU (40 + 10 * k) 2 1 65535]) ++
  [fieldU 192 1 4 64]

/-- The ranges of Tables 3.7 to 3.19; a field whose whole coding is allowed has no entry. -/
def sectionRanges : Nat → List FieldRange
  | 0x0010 => [fieldU 2 1 0x10 0x77, fieldU 3 1 0 1]
  | 0x0020 => [fieldU 3 1 0 1, fieldU 4 1 1 20, fieldU 5 1 0 1, fieldU 6 1 5 8]
  | 0x0100 => feedRanges
  | 0x0140 => feedRanges
  | 0x0200 => [fieldU 0 2 1000 10000, fieldU 2 1 2 8, fieldU 3 1 0 1, fieldU 4 2 2000 3500, fieldU 6 2 10 2000,
      fieldU 8 1 0 7, fieldU 9 1 2 20, fieldU 10 1 4 80, fieldU 11 1 0 1, fieldU 12 4 1000 500000,
      fieldU 16 2 10 10000]
  | 0x0280 => [fieldU 0 2 3400 4200, fieldU 2 2 100 65000, fieldU 4 2 100 65000, fieldS 6 (-20) 20, fieldS 7 30 60]
  | 0x0300 => [fieldU 0 2 1 1000, fieldU 2 2 1 1000, fieldU 4 1 10 100, fieldU 5 1 1 50]
  | 0x0320 => profileRanges
  | 0x0400 => [fieldS 0 (-40) 0, fieldS 1 45 80, fieldS 2 85 125, fieldS 3 110 145, fieldS 4 90 140, fieldU 5 1 2 20]
  | 0x0500 => (List.range 8).flatMap fun n =>
      [fieldU (8 * n) 1 0 1, fieldU (8 * n + 1) 1 1 100, fieldU (8 * n + 2) 1 1 100, fieldU (8 * n + 3) 1 0 3,
       fieldU (8 * n + 4) 2 0 350, fieldU (8 * n + 6) 1 0 1]
  | 0x0600 => [fieldU 0 1 1 8, fieldU 1 1 2 50, fieldU 2 1 0 7]
  | 0x0900 => [fieldU 0 1 0 3, fieldU 1 1 0 4, fieldU 2 1 60 90, fieldU 3 1 60 90, fieldU 4 1 0 1]
  | 0x0980 => [fieldU 0 1 0 2]
  | _ => []

/-- The value of a field. -/
def fieldValue (body : List Byte) (f : FieldRange) : Int :=
  let v := leNat (slice body f.off f.width)
  if f.signed then signed (8 * f.width) v else v

/-- The first field of a body outside its range. -/
def rangeFault (s : Section) : Option Nat :=
  if s.body.isEmpty then none
  else
    match (sectionRanges s.tag).find? fun f => !(decide (f.lo ≤ fieldValue s.body f) && decide (fieldValue s.body f ≤ f.hi)) with
    | some f => some f.off
    | none =>
      if s.tag = 0x0010 && u8At s.body 2 = 0x61 then some 2
      else if s.tag = 0x0012 then
        ((List.range (s.body.length / 28)).find? fun i => decide (1023 < u16At s.body (28 * i + 2))).map (28 * · + 2)
      else none

/-! ### Decoding the sections -/

def decodeFeed (b : List Byte) : FeedCfg :=
  { rsns := u16At b 0, uvRise := u16At b 2, ovRise := u16At b 4, uvHyst := u8At b 6, ovHyst := u8At b 7
    insDelay := u8At b 8, fastTrip := u8At b 9, inrushLim := u8At b 10, inrushTimer := u8At b 11
    govBudget := u16At b 12, fuseSlow := u8At b 14, revThr := u8At b 15, fuseTau := u16At b 16
    dropMin := u8At b 18, dropMax := u8At b 19 }

def decodePack (b : List Byte) : PackCfg :=
  { rsns := u16At b 0, cells := u8At b 2, chem := u8At b 3, vShut := u16At b 4, preTime := u16At b 6
    fastTrip := u8At b 8, revThr := u8At b 9, fuseSlow := u8At b 10, unauth := u8At b 11
    designCap := u32At b 12, fuseTau := u16At b 16 }

def decodeCharger (b : List Byte) : ChargerCfg :=
  { vChg := u16At b 0, iMax := u16At b 2, iAtFull := u16At b 4, tLow := i8At b 6, tHigh := i8At b 7 }

def decodeGauge (b : List Byte) : GaugeCfg :=
  { quiet := u16At b 0, rest := u16At b 2, taper := u8At b 4, conv := u8At b 5
    learnCap := (u8At b 6) % 2 == 1, learnImp := (u8At b 6 / 2) % 2 == 1 }

/-- The 196 bytes of a profile, in the image and in the tag (Table 3.14). -/
def decodeProfile (b : List Byte) : Profile :=
  { points := (List.range 16).map fun k =>
      { ocv := u16At b (2 * k), ser := u16At b (32 + 10 * k), polF := u16At b (34 + 10 * k)
        tauF := u16At b (36 + 10 * k), polS := u16At b (38 + 10 * k), tauS := u16At b (40 + 10 * k) }
    restScale := u8At b 192 }

def decodeTemp (b : List Byte) : TempCfg :=
  { dsgLow := i8At b 0, dsgHigh := i8At b 1, boardHigh := i8At b 2, dieHigh := i8At b 3, spurDerate := i8At b 4
    xcheck := u8At b 5 }

def decodeSpurs (b : List Byte) : Vector SpurCfg 8 :=
  Vector.ofFn fun n =>
    { defaultOn := u8At b (8 * n) == 1, ssMin := u8At b (8 * n + 1), ssMax := u8At b (8 * n + 2)
      retries := u8At b (8 * n + 3), houseAllow := u16At b (8 * n + 4), tieMerge := u8At b (8 * n + 6) == 1 }

def decodeBoard (b : List Byte) : BoardCfg :=
  { fitted := b.getD 0 0, spurs := b.getD 2 0, xtal20 := u8At b 3 == 1, nvCk := u8At b 4, fram := u8At b 5 == 1
    nvmPage := u8At b 6 }

def decodeCal (b : List Byte) : CalCfg :=
  { gain := Vector.ofFn fun n => i16At b (4 * n), offset := Vector.ofFn fun n => i16At b (4 * n + 2)
    auxGain := i16At b 20, auxOffset := i16At b 22, dieOffset := i8At b 24 }

def decodeTrust (b : List Byte) : List TrustKey :=
  (List.range (b.length / 68)).map fun m =>
    { usage := BitVec.ofNat 2 (u32At b (68 * m)), key := slice b (68 * m + 4) 64 }

def decodeGuest (b : List Byte) : GuestCfg :=
  let sp := u8At b 2
  { index := u16At b 0, spur := sp % 8, side := (sp / 8) % 2 == 1, beacon := sp / 128 == 1, cls := u8At b 3
    period := u16At b 4, slotLen := u16At b 6, deadline := u16At b 8, phase := u16At b 10, energy := u32At b 12
    oasis := u32At b 16, vmin := u16At b 20, iMax := u16At b 22 }

/-- Every field of an image from its sections, before any section is ignored. -/
def decodeSections (secs : List Section) (seq : Nat) (fleet : Bool) : Cfg :=
  let dev := bodyOf secs 0x0010
  let inn := bodyOf secs 0x0600
  let pair := bodyOf secs 0x0800
  let ruell := bodyOf secs 0x0900
  { device := match dev with
      | some b => { ruellAddr := u16At b 0, smbAddr := u8At b 2, timeSource := u8At b 3 == 1 }
      | none => Cfg.default.device
    cal := (bodyOf secs 0x0014).elim {} decodeCal
    board := (bodyOf secs 0x0020).elim {} decodeBoard
    feedA := (bodyOf secs 0x0100).elim {} decodeFeed
    feedB := (bodyOf secs 0x0140).elim {} decodeFeed
    pack := (bodyOf secs 0x0200).elim {} decodePack
    charger := (bodyOf secs 0x0280).elim {} decodeCharger
    gauge := (bodyOf secs 0x0300).elim {} decodeGauge
    profile := (bodyOf secs 0x0320).map decodeProfile
    temp := (bodyOf secs 0x0400).elim {} decodeTemp
    spurs := (bodyOf secs 0x0500).elim (Vector.replicate 8 {}) decodeSpurs
    inn := inn.elim {} fun b => { classes := u8At b 0, provLead := u8At b 1, beaconPrio := u8At b 2 }
    pair := pair.elim {} fun b => { wSoc := u8At b 0, wTemp := u8At b 1 }
    links :=
      let l : LinkCfg := ruell.elim {} fun b =>
        { nomRate := u8At b 0, dataRate := u8At b 1, nomSp := u8At b 2, dataSp := u8At b 3, tdc := u8At b 4 == 1 }
      match bodyOf secs 0x0980 with
      | some b => { l with smbSpeed := u8At b 0 }
      | none => l
    trust := (bodyOf secs 0x0A40).elim [] decodeTrust
    cert := (bodyOf secs 0x0013).getD []
    sequence := seq
    fleet := fleet }

/-! ### Cross-field rules (Table 3.20) -/

/-- The fast-trip threshold of a code, in µV (Table 3.10). -/
def fastTripUv : Nat → Nat
  | 0 => 25000 | 1 => 37500 | 2 => 50000 | 3 => 75000 | 4 => 100000 | 5 => 125000 | 6 => 150000 | _ => 200000

/-- A feed section keeps the rules of Table 3.20. -/
def feedRulesOk (f : FeedCfg) : Bool :=
  decide (60 + f.uvHyst ≤ f.uvRise) && decide (f.uvRise + 10 + f.ovHyst ≤ f.ovRise)
    && decide (f.inrushLim * 1000 < fastTripUv f.fastTrip) && decide (f.fuseSlow * 500 < fastTripUv f.fastTrip)
    && decide (f.dropMin ≤ f.dropMax)

def strictlyRising : List Nat → Bool
  | a :: b :: r => decide (a < b) && strictlyRising (b :: r)
  | _ => true

/-- The outcome of the cross-field rules that reject a copy: the reason and the tag at fault (DEDUCED, log entry 98). -/
def crossFieldFault (m : RegionMap) (targetUidZero : Bool) (secs : List Section) (c : Cfg) : Option (CopyReason × Nat) :=
  let guests := (secs.filter fun s => s.tag == 0x0610 && !s.body.isEmpty).length
  let p := c.pack
  let ch := c.charger
  let t := c.temp
  if c.board.fitted &&& 3 = 0 then some (.crossField, 0x0020)
  else if !feedRulesOk c.feedA then some (.crossField, 0x0100)
  else if !feedRulesOk c.feedB then some (.crossField, 0x0140)
  else if !decide (p.fuseSlow * 500 < fastTripUv p.fastTrip) then some (.crossField, 0x0200)
  else if (p.chem = 0 ∧ 3000 < p.vShut) ∨ (p.chem ≠ 0 ∧ p.vShut < 2800) then some (.crossField, 0x0200)
  else if p.cells * p.vShut < 5000 then some (.crossField, 0x0200)
  else if (p.chem = 0 ∧ 3650 < ch.vChg) ∨ (p.chem ≠ 0 ∧ ch.vChg < 4000) then some (.crossField, 0x0280)
  else if ch.iAtFull < ch.iMax ∨ ch.tHigh < ch.tLow + 10 then some (.crossField, 0x0280)
  else if ch.tLow ≤ t.dsgLow ∨ t.dsgHigh ≤ ch.tHigh ∨ t.dieHigh ≤ t.spurDerate then some (.crossField, 0x0400)
  else if c.gauge.quiet < c.gauge.rest then some (.crossField, 0x0300)
  else if !(c.profile.elim true fun pr => strictlyRising (pr.points.map (·.ocv))) then some (.crossField, 0x0320)
  else if !(c.spurs.toList.all fun s => decide (s.ssMin ≤ s.ssMax)) then some (.crossField, 0x0500)
  else if 64 < guests ∧ ¬ (c.board.fram ∧ 64 * guests ≤ m.cellarLen) then some (.crossField, 0x0610)
  else if targetUidZero then
    match [0x0012, 0x0013, 0x0014].find? fun tg => (findSection secs tg).isSome with
    | some tg => some (.uid, tg)
    | none => none
  else none

/-! ### Key unwrapping (R99) -/

def ascii (s : List Nat) : List Byte := s.map (BitVec.ofNat 8)

/-- "SKP-WRAP". -/
def wrapLabel : List Byte := ascii [0x53, 0x4B, 0x50, 0x2D, 0x57, 0x52, 0x41, 0x50]

/-- Unwraps one entry of C.KEYS; none when its tag is wrong. -/
def unwrapEntry (kDev targetUid e : List Byte) : Option RoleKey :=
  let kEnc := Crypto.aesCmac kDev (0x01 :: wrapLabel ++ targetUid)
  let kMac := Crypto.aesCmac kDev (0x02 :: wrapLabel ++ targetUid)
  if (Crypto.aesCmac kMac (slice e 0 20)).take 8 == slice e 20 8 then
    some { role := if u8At e 0 = 1 then .owner else if u8At e 0 = 2 then .depot else .guest
           index := u16At e 2, key := Crypto.aesDecrypt kEnc (slice e 4 16) }
  else none

/-- Unwraps every entry, or gives the offset of the first that fails. -/
def unwrapAll (kDev targetUid : List Byte) : Nat → Nat → List Byte → Except Nat (List RoleKey)
  | 0, _, _ => .ok []
  | fuel + 1, off, bs =>
    if bs.isEmpty then .ok []
    else
      match unwrapEntry kDev targetUid (slice bs 0 28) with
      | none => .error off
      | some k =>
        match unwrapAll kDev targetUid fuel (off + 28) (bs.drop 28) with
        | .error e => .error e
        | .ok ks => .ok (k :: ks)

/-! ### The checks of Table 3.4 -/

/-- What the checks of a copy need to know of the part. -/
structure CheckEnv where
  map    : RegionMap
  uid    : List Byte
  kDev   : List Byte
  ownKey : List Byte
  fixed  : Option (List Byte)
  floor  : Nat

/-- A copy that passed: its sections, fields, digests and signer-key hash. -/
structure Accepted where
  secs       : List Section
  cfg        : Cfg
  keys       : List RoleKey
  signerHash : List Byte
  bytes      : List Byte

/-- Checks 2 … 5, which need the header alone (R88); `copyLen` bounds IMAGE_LEN. -/
def headerFault (copyLen : Nat) (uid hdr : List Byte) : Option CopyResult :=
  let imageLen := u32At hdr 8
  if u8At hdr 4 ≠ 1 then some { reason := .format, offset := 4 }
  else if u8At hdr 5 ≠ 0 then some { reason := .format, offset := 5 }
  else if u16At hdr 6 ≠ 64 then some { reason := .format, offset := 6 }
  else if imageLen < 192 ∨ min copyLen 65536 < imageLen ∨ imageLen % 4 ≠ 0 then some { reason := .length, offset := 8 }
  else if u32At hdr 24 + 192 ≠ imageLen then some { reason := .length, offset := 24 }
  else if u16At hdr 16 ≠ 0x1024 then some { reason := .target, offset := 16 }
  else if u8At hdr 18 < 0x41 ∨ 0x42 < u8At hdr 18 then some { reason := .target, offset := 18 }
  else if !(allZero (slice hdr 32 16) || slice hdr 32 16 == uid) then some { reason := .uid, offset := 32 }
  else none

/-- Reserved bytes and bits of the header (check 10). -/
def headerReservedFault (hdr : List Byte) : Option Nat :=
  if 2 ≤ u8At hdr 19 then some 19
  else if u16At hdr 30 ≠ 0 then some 30
  else if !allZero (slice hdr 52 12) then some 52
  else none

/-- The first section with a reserved fault or a C.KEYS fault, with the offset in the copy. -/
def structureFault : List Section → Option (Nat × Nat)
  | [] => none
  | s :: ss =>
    match reservedFault s with
    | some o => some (s.tag, s.off + 4 + o)
    | none =>
      match if s.tag = 0x0012 then keysFault 1026 0 [] s.body else none with
      | some o => some (s.tag, s.off + 4 + o)
      | none => structureFault ss

def firstRangeFault : List Section → Option (Nat × Nat)
  | [] => none
  | s :: ss =>
    match rangeFault s with
    | some o => some (s.tag, s.off + 4 + o)
    | none => firstRangeFault ss

/-- The compressed public key of a certificate of kind 0x02 (R555, Table 12.6). -/
def certPublicKey (cert : List Byte) : Option (List Byte) :=
  if cert.length = 120 && u8At cert 0 = 1 && u8At cert 1 = 2 then some (slice cert 22 33) else none

/-- Checks 10 … 16 over a copy whose signature verified. -/
def checkBody (env : CheckEnv) (cp : List Byte) : Except CopyResult Accepted :=
  let imageLen := u32At cp 8
  let uidField := slice cp 32 16
  match headerReservedFault cp with
  | some o => .error { reason := .structure_, offset := o }
  | none =>
  match parseSections 16400 0 64 (slice cp 64 (imageLen - 192)) with
  | .error e => .error { reason := .structure_, tag := e.1, offset := e.2 }
  | .ok secs =>
  if u16At cp 28 ≠ secs.length then .error { reason := .structure_, offset := 28 }
  else
  match structureFault secs with
  | some e => .error { reason := .structure_, tag := e.1, offset := e.2 }
  | none =>
  match secs.find? (fun s => !tagKnown s.tag) with
  | some s => .error { reason := .unknownTag, tag := s.tag, offset := s.off }
  | none =>
  match firstRangeFault secs with
  | some e => .error { reason := .range, tag := e.1, offset := e.2 }
  | none =>
  let cfg := decodeSections secs (u32At cp 12) (u8At cp 19 % 2 == 1)
  match crossFieldFault env.map (allZero uidField) secs cfg with
  | some (r, tg) => .error { reason := r, tag := tg, offset := (findSection secs tg).elim 0 (·.off) }
  | none =>
  match findSection secs 0x0011 with
  | some s =>
    if s.body ≠ env.map.bytes44 then .error { reason := .layout, tag := 0x0011, offset := s.off }
    else finish env cp secs cfg uidField
  | none => finish env cp secs cfg uidField
where
  finish (env : CheckEnv) (cp : List Byte) (secs : List Section) (cfg : Cfg) (uidField : List Byte) :
      Except CopyResult Accepted :=
    let keysSec := findSection secs 0x0012
    match unwrapAll env.kDev uidField 1026 0 (keysSec.elim [] (·.body)) with
    | .error o => .error { reason := .wrap, tag := 0x0012, offset := keysSec.elim 0 (fun s => s.off + 4 + o) }
    | .ok keys =>
      let certSec := findSection secs 0x0013
      match certSec with
      | some s =>
        if certPublicKey s.body ≠ some env.ownKey then .error { reason := .certKey, tag := 0x0013, offset := s.off }
        else .ok (accept cp secs cfg keys)
      | none => .ok (accept cp secs cfg keys)
  accept (cp : List Byte) (secs : List Section) (cfg : Cfg) (keys : List RoleKey) : Accepted :=
    { secs := secs, cfg := { cfg with keys := keys }, keys := keys
      signerHash := Crypto.sha256 (slice cp (u32At cp 8 - 128) 64)
      bytes := slice cp 0 (u32At cp 8) }

/-- All the checks of Table 3.4 over the bytes of a copy region, in order (R88). -/
def checkCopy (env : CheckEnv) (cp : List Byte) : Except CopyResult Accepted :=
  let imageLen := u32At cp 8
  let signer := slice cp (imageLen - 128) 64
  if slice cp 0 4 ≠ [0x53, 0x4B, 0x50, 0x49] then .error { reason := .noMagic }
  else
  match headerFault env.map.copyLen env.uid cp with
  | some e => .error e
  | none =>
  if u32At cp 12 = 0 ∨ u32At cp 12 < env.floor then .error { reason := .rollback, offset := 12 }
  else if !(env.fixed.elim true fun h => Crypto.sha256 signer == h) then
    .error { reason := .keyHash, offset := imageLen - 128 }
  else if u8At cp 19 % 2 = 1 ∧ env.fixed = none then .error { reason := .fleetBlank, offset := 19 }
  else if !Crypto.ecdsaVerify signer (slice cp 0 (imageLen - 64)) (slice cp (imageLen - 64) 64) then
    .error { reason := .signature, offset := imageLen - 64 }
  else checkBody env cp

/-! ### Sections that the board declares absent -/

/-- Table 3.20: a section of an item that FITTED declares absent is ignored. -/
def ignoredTags (secs : List Section) (c : Cfg) : List Nat :=
  let f := c.board.fitted
  ([(0, 0x0100), (1, 0x0140), (2, 0x0280), (7, 0x0800)].filter fun p =>
    !f.getLsbD p.1 && (findSection secs p.2).isSome).map (·.2)

/-- The fields as the gauge applies them: ignored sections at their defaults, and TIME_SOURCE dropped without CAN. -/
def applyIgnored (secs : List Section) (c : Cfg) : Cfg :=
  let ig := ignoredTags secs c
  { c with
    feedA := if ig.contains 0x0100 then {} else c.feedA
    feedB := if ig.contains 0x0140 then {} else c.feedB
    charger := if ig.contains 0x0280 then {} else c.charger
    pair := if ig.contains 0x0800 then {} else c.pair
    device := { c.device with timeSource := c.device.timeSource && c.board.fitted.getLsbD 5 } }

/-- T.CONFIG_ECHO.DEFAULTED: one bit per absent section (Table 3.21). -/
def defaultedBits (secs : List Section) : BitVec 16 :=
  ([0x0010, 0x0011, 0x0014, 0x0020, 0x0100, 0x0140, 0x0200, 0x0280, 0x0300, 0x0320, 0x0400, 0x0500, 0x0600, 0x0800,
    0x0900, 0x0980].zipIdx).foldl
    (fun r p => if (findSection secs p.1).isSome then r else r ||| (1#16 <<< p.2)) 0

/-- R101: the pair digest over the sections with tags 0x0020 … 0xDFFF, with their headers and without padding. The header of a section of
LENGTH zero enters it too (DESIGN CHOICE, log entry 130). -/
def pairDigest (secs : List Section) : List Byte :=
  Crypto.sha256 ((secs.filter fun s => decide (0x0020 ≤ s.tag) && decide (s.tag ≤ 0xDFFF)).flatMap fun s =>
    u16B s.tag ++ u16B s.body.length ++ s.body)

/-! ### Guest contracts: the checks of one contract alone (Table 3.22) -/

/-- The reasons of Table 3.22. -/
inductive GuestReject | zeroPeriod | zeroSlot | range | spurAbsent | side | duplicate | overbooked
  deriving DecidableEq, Repr

/-- The codes of Table 3.22. -/
def GuestReject.code : GuestReject → Nat
  | .zeroPeriod => 1 | .zeroSlot => 2 | .range => 3 | .spurAbsent => 4 | .side => 5 | .duplicate => 6
  | .overbooked => 7

/-- A field of a contract out of range, or a reserved bit set (Table 3.18). -/
def guestRangeBad (classes : Nat) (b : List Byte) (g : GuestCfg) : Bool :=
  decide (1023 < g.index) || (u8At b 2 / 16) % 8 != 0 || decide (classes ≤ g.cls) || decide (1000 < g.slotLen)
    || decide (g.deadline < g.slotLen) || decide (g.period ≤ g.phase) || g.energy == 0 || decide (7000 < g.energy)
    || decide (10000000 < g.oasis) || decide (36000 < g.vmin) || g.iMax == 0 || decide (350 < g.iMax)

/-- The first reason of Table 3.22 that applies to a contract, by code; `seen` are the indices of the sections before. -/
def guestFault (c : Cfg) (single : Bool) (seen : List Nat) (b : List Byte) : Option GuestReject :=
  let g := decodeGuest b
  if g.period = 0 then some .zeroPeriod
  else if g.slotLen = 0 then some .zeroSlot
  else if guestRangeBad c.inn.classes b g then some .range
  else if !c.board.spurs.getLsbD g.spur then some .spurAbsent
  else if g.side && single then some .side
  else if seen.contains g.index then some .duplicate
  else none

/-- The contracts of an image in image order, each with its reason when it is rejected before admission. -/
def readGuests (c : Cfg) (single : Bool) : List Nat → List Section → List (GuestCfg × Option GuestReject)
  | _, [] => []
  | seen, s :: ss =>
    if s.tag = 0x0610 ∧ s.body ≠ [] then
      let g := decodeGuest s.body
      (g, guestFault c single seen s.body) :: readGuests c single (g.index :: seen) ss
    else readGuests c single seen ss

end Sys2Proof.Machine
end

