-- ==== Sys2Proof/Machine/State.lean ====
section
/-! DEFINITION. The state of the gauge as plain data: every register, counter, timer, queue, mode and pin that the spec
gives it. A field's comment gives what it is, its width in bits (or `model` for a timer or history that the rules imply
and no register shows), the rule and the chapter that name it, and its value at reset; DC7 stands for the value that
assumption log entry 7 gives to what the spec states no reset value for. -/

namespace Sys2Proof.Machine

/-! ### Modes, resets and sequences (chapter 4) -/

/-- The modes of Table 4.1, with the unpowered gauge and the gauge held in reset by RST_N. -/
inductive Mode | unpowered | reset | configure | parked | coupled | depot | limp | ship
  deriving DecidableEq, Repr

/-- Causes of reset (T.IDENTITY.RESET_CAUSE, Table 4.7). -/
inductive ResetCause | powerOn | rstPin | watchdog | coreBrownout | ramParity | command | shipWake
  deriving DecidableEq, Repr

/-- LIMP causes (Table 16.3). -/
inductive LimpCause | noImage | otp | selfTest | repeatedReset
  deriving DecidableEq, Repr

/-- Causes of a shut-down sequence (T.IDENTITY.SHUTDOWN, Table 4.7). -/
inductive ShutCause | none | shipN | cmdShip | empty | limpFloor | powerLoss
  deriving DecidableEq, Repr

/-- Outcomes of a shut-down sequence (T.IDENTITY.SHUTDOWN, Table 4.7). -/
inductive ShutOutcome | none | completed | aborted | wokenAtOnce
  deriving DecidableEq, Repr

/-- The sequencer: mode, CONFIGURE and the shut-down sequence. -/
structure Seq where
  /-- mode of Table 4.1 | 3 | R120 04 | unpowered R142 -/
  mode : Mode := .unpowered
  /-- entry to the present mode | model | R246 06 | 0 DC7 -/
  modeAt : Time := 0
  /-- strap LK_ROLE as decoded at the release of reset | 2 | R48 02 | open DC7 -/
  strap : Strap := .opn
  /-- CONFIGURE step 0 … 8, 15 outside CONFIGURE | 4 | R150 04 | 15 DC7 -/
  step : Nat := 15
  /-- LIMP cause while CONFIGURE runs the way into LIMP | model | R147 04 | none DC7 -/
  limpPath : Option LimpCause := none
  /-- start of the present or last CONFIGURE, the zero of sample time | 48 | R201 05 | 0 DC7 -/
  cfgStart : Time := 0
  /-- end of the last CONFIGURE | model | R801 16 | none DC7 -/
  cfgEnd : Option Time := none
  /-- start of the present CONFIGURE step | model | R123 04 | 0 DC7 -/
  stepStart : Time := 0
  /-- step 8 is held for feed A | model | R128 04 | 0 DC7 -/
  holdA : Bool := false
  /-- step 8 is held for feed B | model | R128 04 | 0 DC7 -/
  holdB : Bool := false
  /-- pre-charge has begun in this CONFIGURE | model | R150 04 | 0 DC7 -/
  preRan : Bool := false
  /-- conversions of TS1 that step 5 on the way into LIMP still awaits | model | R147 04 | 0 DC7 -/
  ts1Left : Nat := 0
  /-- the same of TS2 | model | R147 04 | 0 DC7 -/
  ts2Left : Nat := 0
  /-- CONFIG_TIME, 0.1 ms | 32 | R150 04 | 0 DC7 -/
  configTime : Nat := 0
  /-- CONFIG_NOTES | 5 | R150 04 | 0 DC7 -/
  notes : BitVec 5 := 0
  /-- SELF_TEST failures | 15 | R130 04 | 0 DC7 -/
  selfTest : BitVec 15 := 0
  /-- LIMP_CAUSE | 8 | R150 04 | not in LIMP R150 -/
  limp : Option LimpCause := none
  /-- LIMP feed set: 24 V or 12 V, none while undecided | 2 | R148 04 | undecided R148 -/
  limpSet24 : Option Bool := none
  /-- N of the LIMP floor | model | R148 04 | 0 DC7 -/
  limpCells : Nat := 0
  /-- shut-down step 1 … 8, 0 when no sequence runs | 4 | R139 04 | 0 R150 -/
  shutStep : Nat := 0
  /-- cause of the running sequence | 3 | R150 04 | none DC7 -/
  shutNow : ShutCause := .none
  /-- start of the running sequence | model | R139 04 | 0 DC7 -/
  shutStart : Time := 0
  /-- MODE[18], commit point passed | 1 | R138 04 | 0 DC7 -/
  committed : Bool := false
  /-- CMD_RESTART accepted: when it was answered | model | R697 14 | none DC7 -/
  restartAt : Option Time := none
  /-- time the wake-watcher entered SHIP | model | R137 04 | 0 DC7 -/
  shipSince : Time := 0
  /-- a feed was accepted since the last SHIP wake | 1 | R162 04 | 0 DC7 -/
  fedSinceWake : Bool := false
  /-- VBUS has been supplied since CONFIGURE ended, so the spurs take their commands | 1 | R129 04 | 0 DC7 -/
  spursOn : Bool := false
  /-- PARKED was last left | model | R213 05 | 0 DC7 -/
  parkEnd : Time := 0
  /-- the present run began by a SHIP wake | 1 | R162 04 | 0 DC7 -/
  wokeFromShip : Bool := false
  /-- V_BUS at the start of CONFIGURE step 3, its first VALID fast word there, mV | model | R126 04 | none DC7 -/
  bus3 : Option Rat := none
  deriving DecidableEq, Repr

/-- A SHIP request that is armed (R134): by CMD_SHIP until its end, or by the pin. -/
structure Armed where
  byPin : Bool
  until_ : Time
  deriving DecidableEq, Repr

/-- The retention store of the LPT domain (R142) and what stands beside the sticky record in it (R805). -/
structure Retention where
  /-- last reset cause | 8 | R150 04 | POWER_ON R150 -/
  cause : ResetCause := .powerOn
  /-- times of the resets of the critical class, latest first | model | R121 04 | empty DC7 -/
  critical : List Time := []
  /-- armed SHIP request | 1 | R134 04 | none R145 -/
  armed : Option Armed := none
  /-- last shut-down cause | 8 | R150 04 | 0 DC7 -/
  shutCause : ShutCause := .none
  /-- last shut-down outcome | 8 | R150 04 | 0 DC7 -/
  shutOutcome : ShutOutcome := .none
  /-- aborts since power-on, saturating | 16 | R150 04 | 0 R150 -/
  aborts : Nat := 0
  /-- the sticky record, bit number b of R784 at bit b | 159 | R784 16 | empty R788 -/
  sticky : BitVec 160 := 0
  /-- FIRST and FIRST_TIME | 9 + 32 | R805 16 | not valid DC7 -/
  first : Option (Nat × Nat) := none
  /-- LAST and LAST_TIME | 9 + 32 | R805 16 | not valid DC7 -/
  last : Option (Nat × Nat) := none
  /-- wake watcher armed | 1 | R162 04 | armed R136 -/
  wakeArmed : Bool := true
  /-- caravan time at cvRef, µs | 64 | R704 14 | 0 R145 -/
  cvBase : Rat := 0
  /-- gauge time at which cvBase holds | model | R704 14 | 0 DC7 -/
  cvRef : Time := 0
  /-- RATE, rate correction, 0.1 ppm | 32 | R704 14 | 0 DC7 -/
  cvRate : Int := 0
  /-- offset still to be slewed out, µs | model | R704 14 | 0 DC7 -/
  cvSlew : Rat := 0
  /-- absolute caravan time is set | 1 | R715 14 | 0 DC7 -/
  cvSet : Bool := false
  /-- the pack has been present without a break since this estimate | 1 | R477 10 | 0 DC7 -/
  packKept : Bool := false
  /-- the sticky record has not been restored from the journal since the power-on | model | R788 16 | 1 R788 -/
  restoreDue : Bool := true
  deriving DecidableEq, Repr

/-! ### OTP and image (chapter 3) -/

/-- The OTP signer-key slots and their programming. -/
structure Otp where
  /-- signer-key slot 1 | 36 B | R94 03 | blank DC7 -/
  slot1 : OtpSlot := .blank
  /-- signer-key slot 2 | 36 B | R94 03 | blank DC7 -/
  slot2 : OtpSlot := .blank
  /-- hash whose programming is pending | 32 B | R95 03 | none DC7 -/
  pending : Option (List Byte) := none
  /-- slot being programmed, 1 or 2 | 2 | R95 03 | none DC7 -/
  busy : Option Nat := none
  deriving DecidableEq, Repr

/-- The copy loaded at the last CONFIGURE. -/
inductive CopyId | a | b
  deriving DecidableEq, Repr

/-- A reprovisioning in progress (R105, R695). -/
structure Reprov where
  header : List Byte
  /-- next OFFSET in order -/
  nextOff : Nat
  deriving DecidableEq, Repr

/-- The loaded image and T.CONFIG_ECHO. -/
structure ImageSt where
  /-- region map in use | 44 B | R77 03 | none DC7 -/
  map : Option RegionMap := none
  /-- ECHO_FLAGS[4], backup map used | 1 | R111 03 | 0 DC7 -/
  backup : Bool := false
  /-- LOADED[1:0] | 2 | R111 03 | none DC7 -/
  loaded : Option CopyId := none
  /-- LOADED[2], signer key fixed by this load | 1 | R111 03 | 0 DC7 -/
  keyFixed : Bool := false
  /-- RESULT_A and OFFSET_A | 64 | R111 03 | NOT_TRIED DC7 -/
  resultA : CopyResult := { reason := .notTried }
  /-- RESULT_B and OFFSET_B | 64 | R111 03 | NOT_TRIED DC7 -/
  resultB : CopyResult := { reason := .notTried }
  /-- the fields of the loaded image | — | R108 03 | defaults R84 -/
  cfg : Cfg := Cfg.default
  /-- contracts of the image in image order with their rejection | 24 B each | R595 13 | empty DC7 -/
  contracts : List (GuestCfg × Option GuestReject) := []
  /-- ECHO_FLAGS[3:0] | 4 | R111 03 | 0 DC7 -/
  echo : BitVec 4 := 0
  /-- DEFAULTED | 16 | R111 03 | 0 DC7 -/
  defaulted : BitVec 16 := 0
  /-- ROLLBACK_FLOOR | 32 | R90 03 | 0 R90 -/
  floor : Nat := 0
  /-- IMAGE_DIGEST | 32 B | R111 03 | zero DC7 -/
  digest : List Byte := []
  /-- PAIR_DIGEST | 32 B | R101 03 | zero DC7 -/
  pairDigest : List Byte := []
  /-- PARTNER_DIGEST | 32 B | R111 03 | zero R111 -/
  partnerDigest : List Byte := []
  /-- target copy being written | 64 B + 32 | R105 03 | none DC7 -/
  reprov : Option Reprov := none
  deriving DecidableEq, Repr

/-! ### Journal and event counters (chapter 16) -/

/-- A journal commit in progress (R797): the writes that are left, in order. -/
structure Commit where
  slot    : Nat
  seq     : Nat
  bytes   : List Byte
  writes  : List (Nat × List Byte)
  start   : Time
  writeAt : Time
  retried : Bool
  /-- a write of it has left other bytes in the cells -/
  bad     : Bool
  deriving DecidableEq, Repr

/-- The journal ring and its commits. -/
structure Journal where
  /-- the journal is open: step 1 found a valid map | 1 | R815 16 | 0 DC7 -/
  opened : Bool := false
  /-- head slot and SEQ | 11 + 32 | R796 16 | none R805 -/
  head : Option (Nat × Nat) := none
  /-- torn record found at the last CONFIGURE | 1 | R805 16 | 0 DC7 -/
  torn : Bool := false
  /-- record restored from the journal at the last power-on | 1 | R805 16 | 0 DC7 -/
  restored : Bool := false
  /-- failed commits since CONFIGURE, saturating | 8 | R805 16 | 0 R805 -/
  failed : Nat := 0
  /-- commits since CONFIGURE, saturating | 16 | R805 16 | 0 R805 -/
  commits : Nat := 0
  /-- longest commit, 0.1 ms | 16 | R805 16 | 0 DC7 -/
  longest : Nat := 0
  /-- a commit is requested | 1 | R799 16 | 0 DC7 -/
  request : Bool := false
  /-- a commit for new bits is wanted | 1 | R789 16 | 0 DC7 -/
  bitRequest : Bool := false
  /-- start of the last commit | model | R799 16 | none DC7 -/
  lastStart : Option Time := none
  /-- start of the last commit made for new bits | model | R789 16 | none DC7 -/
  lastBit : Option Time := none
  /-- commit in progress | — | R797 16 | none DC7 -/
  run : Option Commit := none
  /-- instant of the latest detections | model | R811 16 | 0 DC7 -/
  detAt : Time := 0
  /-- bits detected at that instant | 159 | R811 16 | 0 DC7 -/
  detNow : BitVec 160 := 0
  /-- bits cleared whose state held at the clear: they are set again under R792 | 159 | R792 16 | 0 DC7 -/
  cleared : BitVec 160 := 0
  /-- gauge block of the last completed state of a pack that was removed | 32 B | R485 10 | none DC7 -/
  lastBlock : Option (List Byte) := none
  /-- a failed commit whose repeat waits for a fill: the commit's start | model | R798 16 | none DC7 -/
  again : Option Time := none
  /-- CLEARS[15:0] since CONFIGURE, saturating | 16 | R805 16 | 0 R805 -/
  clears : Nat := 0
  /-- CLEARS[17:16], role of the last clear | 2 | R805 16 | 0 DC7 -/
  clearRole : Nat := 0
  /-- CLEARS[31:24], bits removed by the last clear | 8 | R805 16 | 0 DC7 -/
  clearBits : Nat := 0
  /-- T.EVENT: detections of each bit since CONFIGURE, saturating at 255 | 160 × 8 | R806 16 | 0 R806 -/
  events : List Nat := List.replicate 160 0
  /-- consecutive VHOLD conversions below the level of R801 | model | R801 16 | 0 DC7 -/
  holdupLow : Nat := 0
  deriving DecidableEq, Repr

/-! ### Modulators, auxiliary ADC and clocks (chapter 5) -/

/-- Sample status (R197). -/
inductive Status | valid | settle | overRange | opn | short
  deriving DecidableEq, Repr

/-- A word or sample: its value in µV at the sense input (current channels) or mV (voltage channels) after C.CAL, its
status and the time of its end. -/
structure Sample where
  value  : Rat
  status : Status
  at_    : Time
  deriving DecidableEq, Repr

/-- One of the five modulator channels. -/
structure ModCh where
  /-- latest fast word | 16 + 5 | R197 05 | 0, SETTLE DC7 -/
  fast : Sample := ⟨0, .settle, 0⟩
  /-- latest precise word | 24 + 5 | R197 05 | 0, SETTLE DC7 -/
  prec : Sample := ⟨0, .settle, 0⟩
  /-- last VALID fast value | 16 | R198 05 | 0 DC7 -/
  fastHeld : Rat := 0
  /-- last VALID precise value | 24 | R198 05 | 0 DC7 -/
  precHeld : Rat := 0
  /-- fast words still to be marked SETTLE | 2 | R172 05 | 2 R172 -/
  fastSettle : Nat := 2
  /-- precise words still to be marked SETTLE | 2 | R171 05 | 3 R171 -/
  precSettle : Nat := 3
  /-- fast words of the last 1 ms, newest first | model | R361 08 | empty DC7 -/
  fastHist : List Sample := []
  /-- precise words of the last 1.1 s, newest first | model | R453 10 | empty DC7 -/
  precHist : List Sample := []
  /-- tracked offset O, µV (current) or mV (voltage) | 32 | R178 05 | 0 DC7 -/
  offset : Rat := 0
  /-- position in the slow-chop block pair, none while slow chop is stopped | 4 | R176 05 | none DC7 -/
  chop : Option Nat := none
  /-- a whole block pair has just ended, and its estimate is due | 1 | R177 05 | 0 DC7 -/
  paired : Bool := false
  /-- what R180 subtracts in the last two fast word periods, newest first, µV or mV | model | R180 05 | empty DC7 -/
  subFast : List Rat := []
  /-- the same in the last three precise word periods | model | R180 05 | empty DC7 -/
  subPrec : List Rat := []
  /-- resets under R169 since CONFIGURE, saturating | 6 | R213 05 | 0 R213 -/
  resets : Nat := 0
  /-- times of the resets of the last second | model | R225 05 | empty DC7 -/
  resetTimes : List Time := []
  /-- the Kelvin tell-tale test holds this channel's words OPEN | 1 | R199 05 | 0 DC7 -/
  kelvinOpen : Bool := false
  /-- modulator running | 1 | R173 05 | stopped R173 -/
  running : Bool := false
  deriving DecidableEq, Repr

/-- The modulator block: tracker figures and the MOD period. -/
structure Meas where
  /-- channel I_A | — | R167 05 | DC7 -/
  iA : ModCh := {}
  /-- channel I_B | — | R167 05 | DC7 -/
  iB : ModCh := {}
  /-- channel I_P | — | R167 05 | DC7 -/
  iP : ModCh := {}
  /-- channel V_BUS | — | R167 05 | DC7 -/
  vBus : ModCh := {}
  /-- channel V_PACK | — | R167 05 | DC7 -/
  vPack : ModCh := {}
  /-- MOD frequency error, 0.1 ppm, signed | 32 | R175 05 | 0 DC7 -/
  modError : Int := 0
  /-- MOD out of tolerance: words are marked SETTLE | 1 | R225 05 | 0 DC7 -/
  modBad : Bool := false
  /-- accepted I_P block pairs since CONFIGURE, saturating | 16 | R213 05 | 0 R213 -/
  pairs : Nat := 0
  /-- time of the last accepted I_P block pair | model | R213 05 | none DC7 -/
  lastPair : Option Time := none
  deriving DecidableEq, Repr

/-- A fast-trip comparator and its confirmation sum on I_A, I_B or I_P (R174). -/
structure Trip where
  /-- confirmation sum running: when it is due | 10 | R174 05 | none DC7 -/
  due : Option Time := none
  /-- times of the refuted trips of the last second | model | R306 07 | empty DC7 -/
  refuted : List Time := []
  deriving DecidableEq, Repr

/-- CMD_CAL_POINT (R185). -/
structure Cal where
  /-- averaging runs | 1 | R185 05 | 0 DC7 -/
  run : Bool := false
  /-- CAL_STATUS[2:0] channel, 5 auxiliary | 3 | R213 05 | 0 DC7 -/
  ch : Nat := 0
  /-- CAL_STATUS[15:8] auxiliary channel | 8 | R213 05 | 0 DC7 -/
  auxCh : Nat := 0
  /-- CAL_STATUS[4], SPAN | 1 | R213 05 | 0 DC7 -/
  span : Bool := false
  /-- CAL_STATUS[5], done | 1 | R213 05 | 0 DC7 -/
  done : Bool := false
  /-- CAL_STATUS[6], refused or ended without its words | 1 | R219 05 | 0 DC7 -/
  refused : Bool := false
  /-- words averaged | 16 | R213 05 | 0 DC7 -/
  count : Nat := 0
  /-- sum of the words, nV, µV or µV at the ADC input | model | R185 05 | 0 DC7 -/
  sum : Rat := 0
  /-- sum of squares | model | R185 05 | 0 DC7 -/
  sumSq : Rat := 0
  /-- CAL_MEAN | 32 | R213 05 | 0 DC7 -/
  mean : Int := 0
  /-- CAL_SPREAD | 32 | R213 05 | 0 DC7 -/
  spread : Nat := 0
  /-- start of the point | model | R219 05 | 0 DC7 -/
  start : Time := 0
  deriving DecidableEq, Repr

/-- One auxiliary channel (Table 5.4). -/
structure AuxCh where
  /-- value code of the last sample: held, converted or full scale | 16 | R198 05 | 0 DC7 -/
  code : Nat := 0
  /-- last VALID code | 16 | R198 05 | 0 DC7 -/
  held : Nat := 0
  /-- the last VALID conversion was in LOW range | model | R198 05 | 0 DC7 -/
  heldLow : Bool := false
  /-- status of the last sample | 5 | R197 05 | SETTLE DC7 -/
  status : Status := .settle
  /-- time of the last sample | model | R192 05 | 0 DC7 -/
  at_ : Time := 0
  /-- stamp of the last sample: the centre of its interval | 48 | R202 05 | 0 DC7 -/
  stamp : Time := 0
  /-- the last conversion was in LOW range | 1 | R260 06 | 0 DC7 -/
  inLow : Bool := false
  /-- time of the last VALID sample | model | R194 05 | 0 DC7 -/
  validAt : Time := 0
  /-- consecutive OPEN samples | model | R235 06 | 0 DC7 -/
  opens : Nat := 0
  deriving DecidableEq, Repr

/-- What a requested spur current read serves: the start or the end of a slot, or the governor (R421, R452). -/
inductive EdgeKind | start | stop | governor
  deriving DecidableEq, Repr

/-- A read at priority 4 of Table 5.5. -/
structure EdgeRead where
  spur : Fin 8
  kind : EdgeKind
  deriving DecidableEq, Repr

/-- The auxiliary ADC and its scan. -/
structure Aux where
  /-- the 24 channels of Table 5.4 | 24 × 21 | R189 05 | DC7 -/
  ch : List AuxCh := List.replicate 24 {}
  /-- channel that the multiplexer is on | 5 | R192 05 | none DC7 -/
  cur : Option Nat := none
  /-- invalid conversions left before the valid one | 2 | R190 05 | 0 DC7 -/
  skip : Nat := 0
  /-- the conversion in progress will be marked SHORT | 1 | R196 05 | 0 DC7 -/
  short : Bool := false
  /-- TS1 … TS3 in LOW range | 3 | R191 05 | FULL R191 -/
  low : BitVec 3 := 0
  /-- round-robin position | 5 | R192 05 | 0 DC7 -/
  next : Nat := 0
  /-- slot-edge reads waiting, oldest first | model | R192 05 | empty DC7 -/
  edges : List EdgeRead := []
  /-- longest interval between VALID conversions outside PARKED, 10 µs | 16 | R213 05 | 0 R213 -/
  longest : Nat := 0
  /-- TS range changes since CONFIGURE | 16 | R213 05 | 0 R213 -/
  ranges : Nat := 0
  /-- consecutive VCORE conversions out of band | model | R225 05 | 0 DC7 -/
  coreBad : Nat := 0
  /-- time of the last ADC reset | model | R225 05 | none DC7 -/
  resetAt : Option Time := none
  /-- the ADC failed again: every sample is SETTLE until CONFIGURE | 1 | R225 05 | 0 DC7 -/
  dead : Bool := false
  deriving DecidableEq, Repr

/-- The clock domains (Table 5.7). -/
structure Clk where
  /-- crystal runs and is within its tolerance | 1 | R223 05 | 0 DC7 -/
  xtalOk : Bool := false
  /-- CORE trimmed against the crystal | 1 | R213 05 | 0 DC7 -/
  coreTrimmed : Bool := false
  /-- CORE trim exhausted | 1 | R225 05 | 0 DC7 -/
  coreBad : Bool := false
  /-- LPT disciplined now | 1 | R213 05 | 0 DC7 -/
  lptDisc : Bool := false
  /-- LPT_CORRECTION, 0.1 ppm | 32 | R205 05 | 0 DC7 -/
  lptCorr : Int := 0
  /-- time of the last LPT measurement | model | R205 05 | none DC7 -/
  lptAt : Option Time := none
  /-- GATE, NVM and CRYPT stopped after a second fault | 3 | R225 05 | 0 DC7 -/
  stopped : BitVec 3 := 0
  /-- time of the last restart of GATE, NVM, CRYPT | model | R225 05 | none DC7 -/
  restartAt : List (Option Time) := [none, none, none]
  /-- crystal measured as 20 MHz before the image is loaded and in LIMP | 1 | R204 05 | 40 MHz DC7 -/
  measured20 : Bool := false
  deriving DecidableEq, Repr

/-! ### Temperature (chapter 6) -/

/-- One temperature sensor: the die diode or a thermistor. Temperatures are in hundredths of a degree. -/
structure Sensor where
  /-- last VALID temperature, 0.01 °C | 16 | R234 06 | 0 DC7 -/
  temp : Int := 0
  /-- a VALID temperature has been formed | 1 | R250 06 | 0 DC7 -/
  formed : Bool := false
  /-- failed for OPEN or SHORT | 1 | R240 06 | 0 DC7 -/
  failedWire : Bool := false
  /-- the wire failure was a SHORT | 1 | R240 06 | 0 DC7 -/
  wireShort : Bool := false
  /-- failed by slew | 1 | R244 06 | 0 DC7 -/
  failedSlew : Bool := false
  /-- failed by cross-check | 1 | R247 06 | 0 DC7 -/
  failedX : Bool := false
  /-- time of the last VALID reading | model | R243 06 | 0 DC7 -/
  at_ : Time := 0
  /-- consecutive VALID samples | model | R237 06 | 0 DC7 -/
  run : Nat := 0
  /-- consecutive SHORT samples | model | R272 06 | 0 DC7 -/
  shorts : Nat := 0
  /-- times of implausible samples of the last 10 s | model | R244 06 | empty DC7 -/
  odd : List Time := []
  /-- recovery run: samples in the run and the last of them | model | R270 06 | none DC7 -/
  recov : Nat := 0
  /-- last sample of the recovery run, 0.01 °C | model | R270 06 | 0 DC7 -/
  recovTemp : Int := 0
  /-- time of the last sample of the recovery run | model | R270 06 | 0 DC7 -/
  recovAt : Time := 0
  deriving DecidableEq, Repr

/-- A presence verdict of Table 6.3 that is pending: conversions of TS2 awaited and the outcomes so far. -/
structure VerdictWait where
  ts2Left : Nat
  ts2     : List Status
  deriving DecidableEq, Repr

/-- The temperature block. -/
structure Temp where
  /-- die diode | — | R232 06 | DC7 -/
  die : Sensor := {}
  /-- TS1 | — | R234 06 | DC7 -/
  ts1 : Sensor := {}
  /-- TS2 | — | R234 06 | DC7 -/
  ts2 : Sensor := {}
  /-- TS3 | — | R234 06 | DC7 -/
  ts3 : Sensor := {}
  /-- PARTNER_DIE, 0.01 °C | 16 | R260 06 | 0 DC7 -/
  partner : Int := 0
  /-- time the partner's die was received | model | R246 06 | none DC7 -/
  partnerAt : Option Time := none
  /-- the partner's die is failed by cross-check | 1 | R247 06 | 0 DC7 -/
  partnerX : Bool := false
  /-- the partner's reading was taken under its isothermal condition | 1 | R246 06 | 0 DC7 -/
  partnerIso : Bool := false
  /-- T_PACK_HI, 0.01 °C | 16 | R226 06 | 0 DC7 -/
  packHi : Int := 0
  /-- T_PACK_LO, 0.01 °C | 16 | R226 06 | 0 DC7 -/
  packLo : Int := 0
  /-- T_PACK, 0.01 °C | 16 | R226 06 | 0 DC7 -/
  pack : Int := 0
  /-- source of the pack temperatures | 3 | R260 06 | 0 DC7 -/
  packSrc : Nat := 0
  /-- a pack temperature has been formed since the pack became present | 1 | R252 06 | 0 R252 -/
  packFormed : Bool := false
  /-- T_BOARD, 0.01 °C | 16 | R226 06 | 0 DC7 -/
  board : Int := 0
  /-- source of T_BOARD | 3 | R260 06 | 0 DC7 -/
  boardSrc : Nat := 0
  /-- T_DIE, 0.01 °C | 16 | R226 06 | 0 DC7 -/
  dieEff : Int := 0
  /-- source of T_DIE; 15 when no substitute is available | 3 | R260 06 | 0 DC7 -/
  dieSrc : Nat := 0
  /-- governor rate 0 … 3 | 2 | R229 06 | 0 DC7 -/
  rate : Nat := 0
  /-- consecutive conversions outside the band of the present rate | model | R230 06 | 0 DC7 -/
  rateLow : Nat := 0
  /-- time of the last die conversion | model | R229 06 | none DC7 -/
  dieAt : Option Time := none
  /-- INDICATIONS[0], charge window closed | 1 | R252 06 | closed R252 -/
  chgClosed : Bool := true
  /-- T_PACK_LO below T_LOW, with the hysteresis | 1 | R252 06 | 0 DC7 -/
  chgLow : Bool := false
  /-- T_PACK_HI above T_HIGH, with the hysteresis | 1 | R252 06 | 0 DC7 -/
  chgHigh : Bool := false
  /-- closed by the first OPEN on TS1 | 1 | R239 06 | 0 DC7 -/
  openHold : Bool := false
  /-- INDICATIONS[1], pack cold | 1 | R252 06 | 0 DC7 -/
  cold : Bool := false
  /-- INDICATIONS[2], pack hot | 1 | R252 06 | 0 DC7 -/
  hot : Bool := false
  /-- INDICATIONS[3], board hot | 1 | R252 06 | 0 DC7 -/
  boardHot : Bool := false
  /-- INDICATIONS[4], die hot | 1 | R252 06 | 0 DC7 -/
  dieHot : Bool := false
  /-- INDICATIONS[5], die critical | 1 | R252 06 | 0 DC7 -/
  dieCrit : Bool := false
  /-- charging inhibited by R248 | 1 | R248 06 | 0 DC7 -/
  xInhibit : Bool := false
  /-- d_F in 1/256 | 8 | R253 06 | 256 DC7 -/
  dF : Nat := 256
  /-- d_S in 1/256 | 8 | R254 06 | 256 DC7 -/
  dS : Nat := 256
  deriving DecidableEq, Repr

/-- Pack presence through the thermistors and the isothermal check. -/
structure Presence where
  /-- pack present | 1 | R237 06 | 0 DC7 -/
  present : Bool := false
  /-- PRESENCE[0], present by thermistor | 1 | R260 06 | 0 DC7 -/
  byTherm : Bool := false
  /-- PRESENCE[1], removal declared | 1 | R260 06 | 0 DC7 -/
  removed : Bool := false
  /-- PRESENCE[2], verdict pending | 1 | R240 06 | none DC7 -/
  verdict : Option VerdictWait := none
  /-- outcome of the tag probe that the first OPEN on TS1 started: answered or silent | model | R239 06 | none DC7 -/
  tagSaid : Option Bool := none
  /-- the last sample of TS1 was a first OPEN | 1 | R241 06 | 0 DC7 -/
  singleOpen : Bool := false
  /-- single OPENs without verdict, saturating | 8 | R241 06 | 0 R260 -/
  singles : Nat := 0
  /-- removals since CONFIGURE, saturating | 16 | R260 06 | 0 R260 -/
  removals : Nat := 0
  /-- consecutive OPENs of TS2 that count towards R846 | model | R846 06 | 0 DC7 -/
  ts2Opens : Nat := 0
  /-- consecutive OPENs of TS3 | model | R846 06 | 0 DC7 -/
  ts3Opens : Nat := 0
  /-- XCHECK[4:0], participants | 5 | R260 06 | 0 DC7 -/
  xPart : BitVec 5 := 0
  /-- XCHECK[12:8], sensors beyond XCHECK | 5 | R260 06 | 0 DC7 -/
  xOut : BitVec 5 := 0
  /-- XCHECK[13], check with two participants failed | 1 | R260 06 | 0 DC7 -/
  xTwo : Bool := false
  /-- time of the last isothermal check | model | R246 06 | none DC7 -/
  xAt : Option Time := none
  deriving DecidableEq, Repr

/-! ### Feeds and rail (chapter 7) -/

/-- Feed channel states (Table 7.1). -/
inductive FeedSt | absent | watch | delay | held | inrush | on | blocking | retryWait | latched | reversed | faultHold
  deriving DecidableEq, Repr

/-- An inrush or a re-enable in progress (R285). -/
structure Inrush where
  start  : Time
  vIn0   : Rat
  vBus0  : Rat
  /-- charge since the start, mA·ns -/
  q      : Rat := 0
  /-- dissipation since the start, mJ -/
  e      : Rat := 0
  /-- present limit I_L, mA -/
  iL     : Rat
  cM     : Option Rat := none
  update : Time
  /-- the fast words have lain below half of I_L × RSNS since (R289) -/
  low    : Option Time := none
  deriving DecidableEq, Repr

/-- A pair of precise words that waits for the VALID word that its SETTLE word takes its value from (R314, R447): its
current and voltage as far as they are known, and its word period, ns. -/
structure MeterWait where
  i  : Option Rat
  v  : Option Rat
  dt : Rat
  deriving DecidableEq, Repr

/-- A Kelvin tell-tale test as its fast words have shown it: whether the line of each pulse is open, none before a word of
the pulse (R312). -/
structure KelvinSeen where
  p : Option Bool := none
  n : Option Bool := none
  deriving DecidableEq, Repr

/-- One feed channel. -/
structure Feed where
  /-- state of Table 7.1 | 4 | R273 07 | WATCH R277 -/
  st : FeedSt := .watch
  /-- retries used | 4 | R308 07 | 0 R329 -/
  retries : Nat := 0
  /-- under-voltage window satisfied | 1 | R278 07 | 0 DC7 -/
  uvOk : Bool := false
  /-- over-voltage window satisfied | 1 | R279 07 | 1 DC7 -/
  ovOk : Bool := true
  /-- windows are evaluated | 1 | R124 04 | 0 R124 -/
  armed : Bool := false
  /-- last off cause | 8 | R316 07 | reset 0x0C R329 -/
  offCause : Nat := 0x0C
  /-- start of the insertion delay | model | R281 07 | 0 DC7 -/
  delayAt : Time := 0
  /-- FAULT_HOLD was entered by a mirage | 1 | R274 07 | 0 DC7 -/
  mirage : Bool := false
  /-- consecutive tell-tale tests passed | model | R313 07 | 0 DC7 -/
  kPass : Nat := 0
  /-- tell-tale test running since | model | R312 07 | none DC7 -/
  kTest : Option Time := none
  /-- last tell-tale test | model | R312 07 | none DC7 -/
  kLast : Option Time := none
  /-- mean of the 16 fast words before the test, µV | model | R312 07 | 0 DC7 -/
  kBase : Rat := 0
  /-- what the words of the test have shown | model | R312 07 | none DC7 -/
  kSeen : KelvinSeen := {}
  /-- entry to RETRY_WAIT | model | R307 07 | 0 DC7 -/
  waitAt : Time := 0
  /-- in ON or BLOCKING without failure since | model | R308 07 | 0 DC7 -/
  goodAt : Time := 0
  /-- gates last commanded off | model | R310 07 | 0 DC7 -/
  offAt : Time := 0
  /-- inrush or re-enable in progress | — | R285 07 | none DC7 -/
  inr : Option Inrush := none
  /-- drop target V_T, mV | 8 | R294 07 | 0 DC7 -/
  vT : Nat := 0
  /-- the present 10 ms window holds a reverse event | 1 | R294 07 | 0 DC7 -/
  noisy : Bool := false
  /-- start of the present 10 ms window | model | R294 07 | 0 DC7 -/
  winAt : Time := 0
  /-- no noisy window since | model | R294 07 | 0 DC7 -/
  quietAt : Time := 0
  /-- heat h | 16 | R299 07 | 0 R299 -/
  heat : Rat := 0
  /-- PEAK, mA | 32 | R316 07 | 0 DC7 -/
  peak : Rat := 0
  /-- POWER, mW | 32 | R314 07 | 0 DC7 -/
  power : Rat := 0
  /-- energy delivered, mJ | 48 | R314 07 | 0 R314 -/
  energy : Rat := 0
  /-- charge, µAh | 32 | R314 07 | 0 R314 -/
  charge : Rat := 0
  /-- word pairs that wait for a VALID word, oldest first | model | R314 07 | empty DC7 -/
  wait : List MeterWait := []
  /-- C_EST, µF | 16 | R292 07 | 0 DC7 -/
  cEst : Nat := 0
  /-- E of the last inrush, mJ | 16 | R316 07 | 0 DC7 -/
  eLast : Nat := 0
  /-- duration of the last inrush or re-enable, 0.1 ms | 16 | R316 07 | 0 DC7 -/
  durLast : Nat := 0
  /-- final I_L × RSNS, 0.1 mV | 16 | R316 07 | 0 DC7 -/
  limLast : Nat := 0
  /-- confirmation of the fast-trip comparator | — | R303 07 | DC7 -/
  trip : Trip := {}
  /-- TRIPS: confirmed, refuted, slow, inrush failures | 4 × 8 | R316 07 | 0 R316 -/
  trips : List Nat := [0, 0, 0, 0]
  /-- EVENTS: acceptances, delay restarts, fast reverse turn-offs | 16 + 8 + 8 | R316 07 | 0 R316 -/
  evs : List Nat := [0, 0, 0]
  /-- LAST_FAIL: cause and time in ms | 32 | R316 07 | 0 DC7 -/
  lastFail : Nat × Nat := (0, 0)
  deriving DecidableEq, Repr

/-- The rail and the charge pump. -/
structure Rail where
  /-- C_EST, latest of either feed, µF | 32 | R317 07 | 0 DC7 -/
  cEst : Nat := 0
  /-- BLEED: VBUS_S at the end of the bleed, mV | 16 | R317 07 | 0 DC7 -/
  bleed : Nat := 0
  /-- BLEED[20:16] | 5 | R317 07 | 0 DC7 -/
  bleedFlags : BitVec 5 := 0
  /-- charge pump reports ready | 1 | R845 07 | not ready R845 -/
  pumpReady : Bool := false
  deriving DecidableEq, Repr

/-! ### Pack path, charger and share line (chapter 8) -/

/-- Pack path states (Table 8.1). -/
inductive PackSt
  | noPack | wait | precharge | standby | diode | charge | retryWait | latched | isolated | reversed | faultHold | off
  deriving DecidableEq, Repr

/-- Since when the stored words of I_P, V_PACK and V_BUS have met a condition; none while they do not. -/
structure PackSince where
  /-- the conditions that end a pre-charge | model | R341 08 | none DC7 -/
  preDone : Option Time := none
  /-- V_PACK − V_BUS at or above 150 mV on the fast path | model | R345 08 | none DC7 -/
  drop : Option Time := none
  /-- V_PACK below −1.0 V | model | R336 08 | none DC7 -/
  reversed : Option Time := none
  /-- V_PACK above 1.0 V | model | R336 08 | none DC7 -/
  forward : Option Time := none
  /-- V_PACK above the limit that stops the feeds beside a mirage | model | R368 08 | none DC7 -/
  mirageHigh : Option Time := none
  /-- V_PACK below the LIMP floor | model | R148 04 | none DC7 -/
  floor : Option Time := none
  /-- charger over-voltage | model | R360 08 | none DC7 -/
  chgHigh : Option Time := none
  /-- charger over-current | model | R360 08 | none DC7 -/
  chgOver : Option Time := none
  /-- charger without current | model | R360 08 | none DC7 -/
  chgNone : Option Time := none
  deriving DecidableEq, Repr

/-- The pack path. -/
structure Pack where
  /-- conditions on the words that must have held for a time -/
  hold : PackSince := {}
  /-- state of Table 8.1 | 4 | R335 08 | NO_PACK DC7 -/
  st : PackSt := .noPack
  /-- retries used | 4 | R338 08 | 0 R387 -/
  retries : Nat := 0
  /-- STATE[12], gates sunk for charge pump low | 1 | R388 08 | 0 DC7 -/
  cpLow : Bool := false
  /-- last off cause | 8 | R374 08 | reset 0x0D R387 -/
  offCause : Nat := 0x0D
  /-- FAULT_HOLD was entered by a mirage | 1 | R366 08 | 0 DC7 -/
  mirage : Bool := false
  /-- consecutive tell-tale tests passed | model | R369 08 | 0 DC7 -/
  kPass : Nat := 0
  /-- tell-tale test running since | model | R369 08 | none DC7 -/
  kTest : Option Time := none
  /-- last tell-tale test | model | R369 08 | none DC7 -/
  kLast : Option Time := none
  /-- mean of the 16 fast words before the test, µV | model | R312 07 | 0 DC7 -/
  kBase : Rat := 0
  /-- what the words of the test have shown | model | R369 08 | none DC7 -/
  kSeen : KelvinSeen := {}
  /-- entry to RETRY_WAIT | model | R337 08 | 0 DC7 -/
  waitAt : Time := 0
  /-- connected (STANDBY, DIODE, CHARGE) without failure since | model | R338 08 | 0 DC7 -/
  goodAt : Time := 0
  /-- gates last commanded off | model | R366 08 | 0 DC7 -/
  offAt : Time := 0
  /-- in STANDBY since | model | R354 08 | 0 DC7 -/
  standbyAt : Time := 0
  /-- at least one feed has carried forward current since | model | R354 08 | none DC7 -/
  fedAt : Option Time := none
  /-- drop target V_TP, mV | 16 | R334 08 | 20 R334 -/
  vTp : Rat := 20
  /-- heat h | 16 | R349 08 | 0 R387 -/
  heat : Rat := 0
  /-- PEAK, mA | 32 | R374 08 | 0 DC7 -/
  peak : Rat := 0
  /-- POWER, mW | 32 | R372 08 | 0 DC7 -/
  power : Rat := 0
  /-- ENERGY_OUT, mJ | 48 | R372 08 | 0 R372 -/
  eOut : Rat := 0
  /-- ENERGY_IN, mJ | 48 | R372 08 | 0 R372 -/
  eIn : Rat := 0
  /-- word pairs that wait for a VALID word, oldest first | model | R372 08 | empty DC7 -/
  wait : List MeterWait := []
  /-- start of the pre-charge | model | R341 08 | 0 DC7 -/
  preAt : Time := 0
  /-- V_BUS at its start, mV | model | R342 08 | 0 DC7 -/
  preBus : Rat := 0
  /-- VALID I_P words of the pre-charge, mA, up to six | model | R341 08 | empty DC7 -/
  preWords : List Rat := []
  /-- DIODE has been entered since CONFIGURE | 1 | R374 08 | 0 DC7 -/
  diodeRan : Bool := false
  /-- duration of the last pre-charge, 0.1 ms | 16 | R374 08 | 0 DC7 -/
  preLast : Nat := 0
  /-- I_PRE0, mA | 16 | R341 08 | 0 DC7 -/
  iPre0 : Rat := 0
  /-- confirmation of the fast-trip comparator | — | R303 07 | DC7 -/
  trip : Trip := {}
  /-- TRIPS: confirmed, refuted, slow, pre-charge failures | 4 × 8 | R374 08 | 0 R374 -/
  trips : List Nat := [0, 0, 0, 0]
  /-- LAST_FAIL: cause and time in ms | 32 | R374 08 | 0 DC7 -/
  lastFail : Nat × Nat := (0, 0)
  deriving DecidableEq, Repr

/-- Charger faults (Table 8.5). -/
inductive ChgFault | overvolt | current | noCurrent | overcharge | deep
  deriving DecidableEq, Repr

/-- The charging policy and CHG_EN, CHG_SET. -/
structure Chg where
  /-- CHG_SET setting | 12 | R355 08 | 0 R387 -/
  set : Nat := 0
  /-- trim k | 16 | R355 08 | 1.000 R355 -/
  k : Rat := 1
  /-- I_FEED, mA | 16 | R356 08 | 0 DC7 -/
  iFeed : Rat := 0
  /-- I_CV, mA | 16 | R356 08 | 0 DC7 -/
  iCv : Rat := 0
  /-- last step down of I_FEED | model | R356 08 | 0 DC7 -/
  feedDnAt : Time := 0
  /-- last step up of I_FEED | model | R356 08 | 0 DC7 -/
  feedUpAt : Time := 0
  /-- last step of I_CV | model | R356 08 | 0 DC7 -/
  cvAt : Time := 0
  /-- last update of CHG_SET | model | R355 08 | 0 DC7 -/
  setAt : Time := 0
  /-- last trim | model | R357 08 | 0 DC7 -/
  trimAt : Time := 0
  /-- SESSION, charge delivered since charging started, mAh | 32 | R375 08 | 0 DC7 -/
  session : Rat := 0
  /-- COUNTS: starts, ends at end of charge, hand-backs | 16 + 8 + 8 | R375 08 | 0 R375 -/
  counts : List Nat := [0, 0, 0]
  /-- LAST_END: cause and time in ms | 32 | R375 08 | reset 0x08 R359 -/
  lastEnd : Nat × Nat := (0x08, 0)
  /-- last hand-back or end by a charger fault | model | R354 08 | none DC7 -/
  holdAt : Option Time := none
  /-- over-voltage latched | 1 | R360 08 | 0 DC7 -/
  latOv : Bool := false
  /-- over-current latched | 1 | R360 08 | 0 DC7 -/
  latCur : Bool := false
  /-- no current latched | 1 | R360 08 | 0 DC7 -/
  latNo : Bool := false
  /-- overcharge latched | 1 | R360 08 | 0 DC7 -/
  latOver : Bool := false
  /-- deep discharge latched | 1 | R360 08 | 0 DC7 -/
  latDeep : Bool := false
  /-- end of charge declared since charging last started | 1 | R354 08 | 0 DC7 -/
  eoc : Bool := false
  /-- k at a limit with I_MEAS off by more than 10 % since | model | R360 08 | none DC7 -/
  kBadAt : Option Time := none
  /-- a SPAN point on I_P runs the charger | 1 | R389 08 | 0 DC7 -/
  spanPoint : Bool := false
  deriving DecidableEq, Repr

/-- The share loop of a pair. -/
structure Share where
  /-- v_D, mV | 12 | R361 08 | 0 DC7 -/
  vD : Rat := 0
  /-- v_B, mV | 12 | R361 08 | 0 DC7 -/
  vB : Rat := 0
  /-- share weight w | 16 | R362 08 | 1 DC7 -/
  w : Rat := 1
  /-- loop active | 1 | R363 08 | 0 DC7 -/
  active : Bool := false
  /-- last step of the loop or of the decay | model | R363 08 | 0 DC7 -/
  at_ : Time := 0
  /-- SHARE outside its range while driven | 1 | R390 08 | 0 DC7 -/
  fault : Bool := false
  deriving DecidableEq, Repr

/-! ### Alerts and the wake line (chapter 14) -/

/-- The alert causes, ALERT_N and the WAKE_N pulse (R707, R708). -/
structure Alert where
  /-- ALERT, latched causes | 5 | R707 14 | 0 DC7 -/
  causes : BitVec 5 := 0
  /-- when each cause was latched | model | R707 14 | 0 DC7 -/
  at_ : List Time := [0, 0, 0, 0, 0]
  /-- WAKE_N driven low since | model | R708 14 | none DC7 -/
  pulse : Option Time := none
  /-- WAKE[15:0], pulses driven | 16 | R714 14 | 0 R714 -/
  pulses : Nat := 0
  /-- WAKE[31:16], wakes by another device | 16 | R714 14 | 0 R714 -/
  wakes : Nat := 0
  deriving DecidableEq, Repr
/-! ### Spurs (chapter 9) -/

/-- Spur states (Table 9.1). -/
inductive SpurSt
  | absent | off | rampUp | on | rampDown | retryWait | cut | faulted | blocked | tiedOff | faultHold
  deriving DecidableEq, Repr

/-- A ramp in RAMP_UP or RAMP_DOWN (R394, R428). -/
structure Ramp where
  /-- start of the ramp -/
  start : Time
  /-- origin of the deadline of R400: the start, or the resumption (R428) -/
  from_ : Time
  /-- resumed from a ramp-down -/
  resumed : Bool
  /-- the current limit was entered -/
  limited : Bool
  deriving DecidableEq, Repr

/-- A ramp that ran to completion and may yield an estimate (R396, R397). -/
structure RampEst where
  start  : Time
  end_   : Time
  /-- Q_R so far, mA·ns -/
  q      : Rat
  /-- stamp of the ramp-end read, once it has ended -/
  readAt : Option Time
  deriving DecidableEq, Repr

/-- One spur. -/
structure Spur where
  /-- state of Table 9.1 | 4 | R391 09 | OFF R436 -/
  st : SpurSt := .off
  /-- retries used | 4 | R402 09 | 0 R436 -/
  retries : Nat := 0
  /-- STATE[8], commanded on | 1 | R392 09 | 0 DC7 -/
  cmd : Bool := false
  /-- the command last changed | model | R407 09 | 0 DC7 -/
  cmdAt : Time := 0
  /-- the innkeeper grants the spur | 1 | R392 09 | 0 DC7 -/
  granted : Bool := false
  /-- STATE[9], in current limit | 1 | R395 09 | 0 DC7 -/
  limiting : Bool := false
  /-- current limit held since | model | R400 09 | 0 DC7 -/
  limAt : Time := 0
  /-- STATE[11], open load | 1 | R416 09 | 0 DC7 -/
  openLoad : Bool := false
  /-- the last diagnosis found the spur open | model | R416 09 | 0 DC7 -/
  lastOpen : Bool := false
  /-- last off cause | 8 | R423 09 | reset 0x0D R436 -/
  offCause : Nat := 0x0D
  /-- ramp time t_R, µs | 16 | R396 09 | SS_MAX R396 -/
  tR : Nat := 1000
  /-- C_EST, 0.1 µF | 16 | R396 09 | 0 DC7 -/
  cEst : Nat := 0
  /-- ramp in progress | model | R394 09 | none DC7 -/
  ramp : Option Ramp := none
  /-- charge of the ramp in progress, mA·ns | model | R396 09 | 0 DC7 -/
  rampQ : Rat := 0
  /-- completed ramp that waits for its reads | model | R397 09 | none DC7 -/
  est : Option RampEst := none
  /-- ENERGY, mJ | 48 | R420 09 | 0 R423 -/
  energy : Rat := 0
  /-- ENERGY_IDLE, mJ | 48 | R421 09 | 0 R423 -/
  idle : Rat := 0
  /-- stamp of the last current conversion that ended an interval | model | R202 05 | 0 DC7 -/
  readAt : Time := 0
  /-- latest VALID mean current, mA, none before the first | model | R407 09 | none DC7 -/
  iLast : Option Rat := none
  /-- VALID current conversions of the last 100 ms: mA, interval in ns, stamp, newest first | model | R400 09 | empty DC7 -/
  iHist : List (Rat × Nat × Time) := []
  /-- VALID voltage conversions of the last 1.2 s: mV and time, newest first | model | R407 09 | empty DC7 -/
  vHist : List (Rat × Time) := []
  /-- latest VALID voltage conversion, mV, when the spur was in ON throughout it | model | R407 09 | none DC7 -/
  vOn : Option Rat := none
  /-- a slot's energy is being counted: its start read has ended | 1 | R421 09 | 0 DC7 -/
  counting : Bool := false
  /-- energy of the running slot, mJ | model | R421 09 | 0 DC7 -/
  slotE : Rat := 0
  /-- the ramp of the slot was withdrawn before it was complete: its energy is idle energy | model | R640 13 | 0 DC7 -/
  dropped : Bool := false
  /-- end of the last completed ramp | model | R413 09 | 0 DC7 -/
  onAt : Time := 0
  /-- the spur last left ON | model | R452 10 | 0 DC7 -/
  leftOn : Time := 0
  /-- charge, mA·ns, and time, ns, of the present on-time | model | R413 09 | 0 DC7 -/
  onQ : Rat × Nat := (0, 0)
  /-- diagnosed slots among the last 256, newest first | 256 | R423 09 | 0 R436 -/
  cover : List Bool := []
  /-- open findings since CONFIGURE, saturating | 16 | R423 09 | 0 R423 -/
  findings : Nat := 0
  /-- an off-state test is due in this off-period | 1 | R414 09 | 0 DC7 -/
  testDue : Bool := false
  /-- slots since the last off-state test, saturating at 15 | 4 | R414 09 | 15 DC7 -/
  sinceTest : Nat := 15
  /-- last 1 s diagnosis | model | R415 09 | 0 DC7 -/
  diagAt : Time := 0
  /-- COUNTS: ramp failures, limit failures in ON, thermal shutdowns, cuts | 4 × 8 | R423 09 | 0 R423 -/
  counts : List Nat := [0, 0, 0, 0]
  /-- TIE[7:0], spurs tied to this one | 8 | R423 09 | 0 DC7 -/
  tied : BitVec 8 := 0
  /-- TIE[8], found at CONFIGURE | 1 | R423 09 | 0 DC7 -/
  tieCfg : Bool := false
  /-- TIE[9], found at run time | 1 | R423 09 | 0 DC7 -/
  tieRun : Bool := false
  /-- TIE[10], CONFIGURE test inconclusive | 1 | R410 09 | 0 DC7 -/
  tieUnsure : Bool := false
  /-- TIE[11] and STATE[10]: the tie of this spur is merged | 1 | R411 09 | 0 DC7 -/
  merged : Bool := false
  /-- the spurs that CONFIGURE merged with this one, itself among them: whose slots are planned together | model | R616 13 | 0 DC7 -/
  mergeMask : BitVec 8 := 0
  /-- spurs that followed this one at the end of its last ramp | model | R412 09 | 0 DC7 -/
  tieCand : BitVec 8 := 0
  /-- LAST_FAIL: cause and time in ms | 32 | R423 09 | 0 DC7 -/
  lastFail : Nat × Nat := (0, 0)
  /-- latest failure by the current limit | model | R437 09 | none DC7 -/
  limFailAt : Option Time := none
  /-- entry to RETRY_WAIT | model | R431 09 | 0 DC7 -/
  waitAt : Time := 0
  /-- switch shut down thermally and not yet cooled | 1 | R404 09 | 0 DC7 -/
  hot : Bool := false
  /-- probe interval of FAULTED counts from | model | R403 09 | 0 DC7 -/
  probeAt : Time := 0
  /-- a probe is held for the next command on | 1 | R403 09 | 0 DC7 -/
  probeHeld : Bool := false
  /-- probe running since | model | R403 09 | none DC7 -/
  probing : Option Time := none
  /-- entry to BLOCKED | model | R393 09 | 0 DC7 -/
  blockedAt : Time := 0
  /-- consecutive conversions above the sum of R417 | model | R417 09 | 0 DC7 -/
  overs : Nat := 0
  deriving DecidableEq, Repr

/-- Since when the spur totals exceed their limits: all spurs, SP0 … SP3, SP4 … SP7 (R418). -/
structure SpurTotals where
  all  : Option Time := none
  low  : Option Time := none
  high : Option Time := none
  deriving DecidableEq, Repr

/-! ### The gauge: counting and estimation (chapter 10) -/

/-- Governor states (Table 10.4). -/
inductive GovSt | full | duty2 | duty05
  deriving DecidableEq, Repr

/-- The sampling-rate governor and its governor second. -/
structure Gov where
  /-- governor state | 2 | R450 10 | FULL DC7 -/
  st : GovSt := .full
  /-- on-window running since | model | R450 10 | none DC7 -/
  win : Option Time := none
  /-- start of the latest on-window that has ended | model | R452 10 | 0 DC7 -/
  winStart : Time := 0
  /-- end of the latest on-window | model | R452 10 | 0 DC7 -/
  winEnd : Time := 0
  /-- the running or latest on-window overlaps a burst | 1 | R452 10 | 0 DC7 -/
  winBurst : Bool := false
  /-- burst running since | 1 | R451 10 | none DC7 -/
  burst : Option Time := none
  /-- the fast-path |I_P| of the burst has stayed below QUIET since | model | R451 10 | none DC7 -/
  quietAt : Option Time := none
  /-- qualifying seconds towards the next duty state | 16 | R479 10 | 0 DC7 -/
  qual : Nat := 0
  /-- bursts since CONFIGURE, saturating | 16 | R479 10 | 0 R479 -/
  bursts : Nat := 0
  /-- start of the present governor second | model | R450 10 | 0 DC7 -/
  secAt : Time := 0
  /-- I_base, mA | model | R452 10 | 0 DC7 -/
  iBase : Rat := 0
  /-- time covered by bursts in this second, ns | model | R452 10 | 0 DC7 -/
  burstNs : Nat := 0
  /-- charge of the words of this second counted under R446, or of its bursts, mA·ns out of the pack | model | R452 10 | 0 DC7 -/
  wordQ : Rat := 0
  /-- spur charge of this second outside bursts, mA·ns | model | R452 10 | 0 DC7 -/
  spurQ : Rat := 0
  /-- time the modulators ran in this second, ns | model | R449 10 | 0 DC7 -/
  runNs : Nat := 0
  /-- modulators running since, within this second | model | R449 10 | none DC7 -/
  runAt : Option Time := none
  /-- charge of the gauge's own draw counted so far in this second, mA·ns | model | R449 10 | 0 DC7 -/
  selfQ : Rat := 0
  /-- mean current of the last governor second, mA | model | R450 10 | 0 DC7 -/
  iSec : Rat := 0
  /-- I_SELF, µA | 16 | R449 10 | 0 DC7 -/
  iSelf : Rat := 0
  /-- modulator duty of the last second, 0.01 % | 16 | R479 10 | 0 DC7 -/
  duty : Nat := 0
  deriving DecidableEq, Repr

/-- The coulomb counter. -/
structure Counter where
  /-- charge counter, 2^−20 µAh, positive into the pack | 64 | R446 10 | 0 R446 -/
  n : Int := 0
  /-- what the charge counted so far leaves of a whole unit | model | R446 10 | 0 DC7 -/
  rest : Rat := 0
  /-- I_P time waiting for the next VALID word, ns | model | R447 10 | 0 DC7 -/
  wait : Nat := 0
  /-- I_P words have carried OPEN or OVER since | model | R448 10 | none DC7 -/
  gapAt : Option Time := none
  /-- STATE[27], count gap | 1 | R448 10 | 0 DC7 -/
  gap : Bool := false
  /-- counting gaps so far, so that a pair of anchors can tell whether one fell between them | model | R510 11 | 0 DC7 -/
  gaps : Nat := 0
  /-- counting spans so far: removals and CONFIGUREs | model | R510 11 | 0 DC7 -/
  span : Nat := 0
  /-- wake-comparator crossing from which the next VALID word counts | model | R447 10 | none DC7 -/
  from_ : Option Time := none
  deriving DecidableEq, Repr

/-- The covariance of the estimator: upper triangle of the symmetric 3 × 3 matrix P (R458). -/
structure Cov where
  zz : Rat := 0
  zf : Rat := 0
  zs : Rat := 0
  ff : Rat := 0
  fs : Rat := 0
  ss : Rat := 0
  deriving DecidableEq, Repr

/-- Sources of the active profile (T.GAUGE.STATE[9:8]). -/
inductive ProfSrc | image | tag | generic | rom
  deriving DecidableEq, Repr

/-- A held anchor (R508). -/
structure HeldAnchor where
  z     : Rat
  sigma : Rat
  n     : Int
  tPack : Int
  at_   : Time
  full  : Bool
  span  : Nat
  gaps  : Nat
  deriving DecidableEq, Repr

/-- An anchor that waits for the next update (R457): mean V_PACK / CELLS, V, mean I_P, mA, and what learning receives after it. -/
structure DueAnchor where
  v    : Rat
  i    : Rat
  held : HeldAnchor
  deriving DecidableEq, Repr

/-- The estimator, anchors, end of charge and end of discharge. -/
structure Gauge where
  gov : Gov := {}
  cnt : Counter := {}
  /-- active profile | 196 B | R441 10 | ROM DC7 -/
  prof : Profile := romProfile 0 100000
  /-- its source | 2 | R479 10 | ROM DC7 -/
  profSrc : ProfSrc := .rom
  /-- its chemistry | 1 | R441 10 | 0 DC7 -/
  chem : Nat := 0
  /-- z | 30 fraction bits | R458 10 | 0 DC7 -/
  z : Rat := 0
  /-- u_F, V | 24 fraction bits | R458 10 | 0 DC7 -/
  uF : Rat := 0
  /-- u_S, V | 24 fraction bits | R458 10 | 0 DC7 -/
  uS : Rat := 0
  /-- covariance P | 6 × 24 | R458 10 | 0 DC7 -/
  p : Cov := {}
  /-- measurement noise R, V² | 24 | R464 10 | R_0 R464 -/
  r : Rat := 25 / 1000000
  /-- noise scale α | 5 | R464 10 | 1 R464 -/
  alpha : Rat := 1
  /-- consecutive outliers | 7 | R462 10 | 0 DC7 -/
  outliers : Nat := 0
  /-- the next voltage update is exempt from R462 | 1 | R463 10 | 0 DC7 -/
  exempt : Bool := false
  /-- applied updates towards the next step of α | 4 | R464 10 | 0 DC7 -/
  applied : Nat := 0
  /-- sum of ν²/S over them | model | R464 10 | 0 DC7 -/
  appliedSum : Rat := 0
  /-- last ν, V | 24 | R479 10 | 0 DC7 -/
  nu : Rat := 0
  /-- last update skipped as an outlier | 1 | R479 10 | 0 DC7 -/
  skipped : Bool := false
  /-- STATE[4], voltage updates applied in the last interval | 1 | R479 10 | 0 DC7 -/
  voltUsed : Bool := false
  /-- f_T in 1/256 | 16 | R444 10 | 256 DC7 -/
  fT : Nat := 256
  /-- time of the last update | model | R458 10 | 0 DC7 -/
  updAt : Time := 0
  /-- counter at the last update | model | R459 10 | 0 DC7 -/
  updN : Int := 0
  /-- first estimate formed | 1 | R472 10 | 0 DC7 -/
  formed : Bool := false
  /-- the verdict has been given and the first estimate waits for words or adoption | model | R473 10 | 0 DC7 -/
  wanted : Bool := false
  /-- first-estimate source (Table 10.8) | 4 | R479 10 | 0 R479 -/
  source : Nat := 0
  /-- z0, 0.001 % | 17 | R479 10 | 0 DC7 -/
  z0 : Nat := 0
  /-- candidate age, days | 8 | R479 10 | 0 DC7 -/
  ageDays : Nat := 0
  /-- VALID V_PACK words since the pack became present, up to 64 | model | R473 10 | 0 DC7 -/
  v0n : Nat := 0
  /-- sum of those words, mV | model | R473 10 | 0 DC7 -/
  v0V : Rat := 0
  /-- sum of I_P over the same words, mA | model | R473 10 | 0 DC7 -/
  v0I : Rat := 0
  /-- rest indicated | 1 | R453 10 | 0 R454 -/
  rest : Bool := false
  /-- rest has been indicated since | model | R245 06 | 0 DC7 -/
  restFrom : Time := 0
  /-- qualifying time, s | model | R453 10 | 0 R454 -/
  qualS : Nat := 0
  /-- t_rest, s | model | R453 10 | 0 DC7 -/
  tRest : Rat := 0
  /-- g was last recomputed | model | R453 10 | none DC7 -/
  gAt : Option Time := none
  /-- the next anchor falls due | model | R456 10 | 0 DC7 -/
  anchorAt : Time := 0
  /-- an anchor waits for the next update | model | R457 10 | none DC7 -/
  anchor : Option DueAnchor := none
  /-- z_A of the latest anchor | 17 | R479 10 | 0 DC7 -/
  zA : Rat := 0
  /-- it was applied | 1 | R479 10 | 0 DC7 -/
  anchorUsed : Bool := false
  /-- its sample time, s | 32 | R479 10 | 0 DC7 -/
  anchorTime : Nat := 0
  /-- anchors, outliers and re-seeds since CONFIGURE, saturating | 16 + 8 + 8 | R479 10 | 0 R479 -/
  counts : List Nat := [0, 0, 0]
  /-- qualifying end-of-charge seconds | 8 | R467 10 | 0 DC7 -/
  eocN : Nat := 0
  /-- end of charge declared | 1 | R468 10 | 0 DC7 -/
  eoc : Bool := false
  /-- it was declared since the last update | model | R484 10 | 0 DC7 -/
  eocNow : Bool := false
  /-- the last second met the conditions of R467 | 1 | R467 10 | 0 DC7 -/
  eocPend : Bool := false
  /-- end-of-discharge seconds | 3 | R469 10 | 0 DC7 -/
  eodN : Nat := 0
  /-- end of discharge declared | 1 | R469 10 | 0 DC7 -/
  eod : Bool := false
  /-- charge counter at the declaration | model | R471 10 | 0 DC7 -/
  eodN0 : Int := 0
  /-- v_C, V per cell | 32 | R469 10 | 0 DC7 -/
  vC : Rat := 0
  /-- start of the last second judged for end of charge and end of discharge | model | R467 10 | 0 DC7 -/
  eocAt : Time := 0
  /-- start of the last second judged for end of discharge | model | R469 10 | 0 DC7 -/
  eodAt : Time := 0
  /-- start of the last second judged for rest | model | R453 10 | 0 DC7 -/
  restAt : Time := 0
  /-- Q_FCC of LIMP, mAh (R477) | model | R477 10 | 100000 DC7 -/
  limpFcc : Rat := 100000
  deriving DecidableEq, Repr

/-! ### Reporting and learning (chapter 11) -/

/-- An impedance phase in progress (R514 … R517). Currents in mA, voltages in V per cell, resistances in µΩ at 25 °C. -/
structure ImpRun where
  at_    : Time
  i0     : Rat
  /-- greatest distance of the 16 words before the step from their mean -/
  dev    : Rat
  v0     : Rat
  z      : Rat
  n      : Int
  /-- I_P words since the step, oldest first, up to eight -/
  words  : List Rat
  i1     : Option Rat
  serM   : Option Rat
  polFM  : Option Rat
  tauFM  : Option Rat
  phase  : Nat
  /-- the latest words: mA and V per cell, newest first, up to four -/
  last4  : List (Rat × Rat)
  /-- −Δv / (ΔI × f_T), µΩ, with the time since the step, newest first -/
  track  : List (Nat × Rat)
  deriving DecidableEq, Repr

/-- The reported figures and everything learned. -/
structure Learn where
  /-- z_E | 17 | R493 11 | 0 DC7 -/
  zE : Rat := 0
  /-- S | 14 | R494 11 | 0 DC7 -/
  target : Rat := 0
  /-- SOC_R, internal | 24 fraction bits | R499 11 | 0 DC7 -/
  soc : Rat := 0
  /-- a correction is being spread | 1 | R532 11 | 0 DC7 -/
  spread : Bool := false
  /-- held at the floor or the ceiling | 1 | R532 11 | 0 DC7 -/
  held : Bool := false
  /-- the ceiling is released | 1 | R496 11 | 0 DC7 -/
  ceilFree : Bool := false
  /-- the floor is released | 1 | R496 11 | 0 DC7 -/
  floorFree : Bool := false
  /-- FCC_R, mAh | 32 | R500 11 | 0 DC7 -/
  fccR : Rat := 0
  /-- RM, mAh | 32 | R500 11 | 0 DC7 -/
  rm : Rat := 0
  /-- E_REM, mJ | 48 | R500 11 | 0 DC7 -/
  eRem : Rat := 0
  /-- E_AVAIL, mJ | 48 | R500 11 | 0 DC7 -/
  eAvail : Rat := 0
  /-- SOH, 0.01 % | 16 | R500 11 | 0 DC7 -/
  soh : Nat := 0
  /-- TTE, s | 32 | R504 11 | 0xFFFF_FFFF R507 -/
  tte : Nat := 0xFFFFFFFF
  /-- TTE_SHED, s | 32 | R504 11 | 0xFFFF_FFFF R507 -/
  tteShed : Nat := 0xFFFFFFFF
  /-- TTF, s | 32 | R506 11 | 0xFFFF_FFFF R506 -/
  ttf : Nat := 0xFFFFFFFF
  /-- P_BASE, mW | 32 | R503 11 | 0 DC7 -/
  pBase : Rat := 0
  /-- P_PLAN, mW | 32 | R532 11 | 0 DC7 -/
  pPlan : Rat := 0
  /-- TTE_FLAGS | 11 | R532 11 | no plan R507 -/
  tteFlags : Nat := 4
  /-- energy of the pack not metered to slots, mJ for each of the last 3,600 PARKED seconds, newest first | model | R503 11 | empty DC7 -/
  parkedE : List Rat := []
  /-- idle spur energy of each of the last 3,600 governor seconds, newest first | model | R503 11 | empty DC7 -/
  idleE : List Rat := []
  /-- slot energy handed over in this governor second, mJ | model | R503 11 | 0 DC7 -/
  slotE : Rat := 0
  /-- idle spur energy in this governor second, mJ | model | R503 11 | 0 DC7 -/
  idleNow : Rat := 0
  /-- pack energy in this governor second, mJ | model | R503 11 | 0 DC7 -/
  packE : Rat := 0
  /-- mean charge currents of the last 60 s spent in CHARGE, mA, newest first | model | R506 11 | empty DC7 -/
  chgI : List Rat := []
  /-- Q_FCC in use, mAh | 32 | R512 11 | 100000 DC7 -/
  qFcc : Rat := 100000
  /-- σ_F², mAh² | 32 | R512 11 | 10 % of Q_FCC R512 -/
  varF : Rat := 100000000
  /-- the Q_FCC in use counts as learned | 1 | R848 11 | 0 DC7 -/
  learned : Bool := false
  /-- held low anchor | — | R508 11 | none DC7 -/
  low : Option HeldAnchor := none
  /-- held high anchor | — | R508 11 | none DC7 -/
  high : Option HeldAnchor := none
  /-- LAST_CAP, mAh | 32 | R532 11 | 0 DC7 -/
  lastCap : Nat := 0
  /-- LAST_CAP_RESULT (Table 11.7) | 8 | R532 11 | 0 R532 -/
  capResult : Nat := 0
  /-- σ_m / Q_m, 0.01 % | 16 | R532 11 | 0 DC7 -/
  capSigma : Nat := 0
  /-- accepted capacity updates, saturating | 16 | R532 11 | 0 DC7 -/
  capUpdates : Nat := 0
  /-- impedance table: SER, POL_F, TAU_F, POL_S, TAU_S of 16 points | 16 × 80 | R518 11 | zero DC7 -/
  imp : List (List Rat) := List.replicate 16 [0, 0, 0, 0, 0]
  /-- IMP_LEARNED | 16 | R521 11 | 0 DC7 -/
  impBits : BitVec 16 := 0
  /-- accepted impedance updates, saturating | 16 | R532 11 | 0 DC7 -/
  impUpdates : Nat := 0
  /-- IMP_LAST: phases completed, point k, |ΔI| in 100 mA | 2 + 4 + 16 | R532 11 | 0 DC7 -/
  impLast : Nat × Nat × Nat := (0, 0, 0)
  /-- consecutive rejections of SER, POL_F, TAU_F, POL_S, TAU_S | model | R519 11 | 0 DC7 -/
  impRej : List Nat := [0, 0, 0, 0, 0]
  /-- impedance measurement in progress | — | R515 11 | none DC7 -/
  impRun : Option ImpRun := none
  /-- whole cycles, saturating | 16 | R520 11 | 0 DC7 -/
  cycles : Nat := 0
  /-- DSG_ACC, mAh | 32 | R520 11 | 0 DC7 -/
  dsg : Rat := 0
  /-- charge counted out of the pack before its first estimate, mAh | model | R520 11 | 0 DC7 -/
  dsgNew : Rat := 0
  /-- SOURCES[1:0] | 2 | R532 11 | 0 DC7 -/
  srcFcc : Nat := 0
  /-- SOURCES[3:2] | 2 | R532 11 | 0 DC7 -/
  srcCyc : Nat := 0
  /-- SOURCES[6:4] | 3 | R532 11 | 0 DC7 -/
  srcBits : BitVec 3 := 0
  /-- RECORD_TIME | 32 | R532 11 | 0 DC7 -/
  recordTime : Nat := 0
  /-- last periodic journal request | model | R523 11 | 0 DC7 -/
  jrnAt : Time := 0
  /-- start of the 4 h period of cause 0x08 | model | R526 11 | 0 DC7 -/
  tagAt : Time := 0
  deriving DecidableEq, Repr

/-! ### Pack identity (chapter 12) -/

/-- Verdicts (Table 12.10). -/
inductive Verdict | none | authenticated | notAuthenticated | silent
  deriving DecidableEq, Repr

/-- A tag command with its parameters (Table 12.2). -/
inductive TagCmd
  | read (addr len : Nat)
  | challenge (nonce : List Byte)
  | getResponse
  | writeSlot (slot off : Nat) (data : List Byte)
  | commitSlot (slot : Nat)
  | slotStatus
  | slotDigest (slot : Nat)
  deriving DecidableEq, Repr

/-- Why the gauge probes PK_ID (Table 12.8), or repeats the probe of the last row. -/
inductive ProbeWhy | configure | inserted | silent
  deriving DecidableEq, Repr

/-- What the crypto engine verifies (R563). -/
inductive VerifyJob
  | header | response
  | record (slot : Nat) | writerCert (slot : Nat)
  deriving DecidableEq, Repr

/-- Stages of identification: the exchange up to its verdict, then adoption (R567). -/
inductive TagStage
  | idle | challenge | header | response | verify
  | profile | slots | slotRead | slotVerify
  deriving DecidableEq, Repr

/-- A tag write in progress (R572). -/
structure TagWrite where
  /-- step 1 … 5 of R572; 0 reads SLOT_STATUS first when none has been read -/
  step   : Nat
  causes : List Nat
  slot   : Nat
  payload : List Byte
  sig    : Option (List Byte)
  start  : Time
  /-- COMMIT_SLOT was answered at -/
  waitAt : Option Time
  /-- the payload has changed since its WRITE_SLOT began, and is sent anew (R589) -/
  stale  : Bool := false
  deriving DecidableEq, Repr

/-- What a transaction of the depot tool still owes: CMD_TAG_READ of a handle. -/
structure ToolRead where
  handle : Nat
  addr   : Nat
  len    : Nat
  deriving DecidableEq, Repr

/-- Pack identity. -/
structure Tag where
  /-- verdict | 2 | R562 12 | none DC7 -/
  verdict : Verdict := .none
  /-- reason (Table 12.11) | 4 | R581 12 | 0 DC7 -/
  reason : Nat := 0
  /-- last probe answered | 1 | R581 12 | 0 DC7 -/
  answered : Bool := false
  /-- adoption ended | 1 | R581 12 | 0 DC7 -/
  adopted : Bool := false
  /-- present stage | model | R561 12 | idle DC7 -/
  stage : TagStage := .idle
  /-- transaction in progress | — | R547 12 | none DC7 -/
  txn : Option TagCmd := none
  /-- the bytes that the gauge sends in it, its CRC-16 the last two | — | R547 12 | empty DC7 -/
  sent : List Byte := []
  /-- failures in a row of this transaction | 2 | R551 12 | 0 DC7 -/
  fails : Nat := 0
  /-- every one of them was an absence | model | R551 12 | 0 DC7 -/
  absent : Bool := true
  /-- why the gauge probes | 2 | R564 12 | none DC7 -/
  probe : Option ProbeWhy := none
  /-- unanswered probes in a row | model | R564 12 | 0 DC7 -/
  probes : Nat := 0
  /-- start of the probing | model | R564 12 | 0 DC7 -/
  probeAt : Time := 0
  /-- last probe | model | R564 12 | 0 DC7 -/
  lastProbe : Time := 0
  /-- a presence probe of Table 6.3 is wanted beside a transaction or stage | 1 | R586 12 | 0 DC7 -/
  ts1Probe : Bool := false
  /-- start of the exchange | model | R571 12 | 0 DC7 -/
  exAt : Time := 0
  /-- time of the verdict | model | R571 12 | 0 DC7 -/
  verdictAt : Time := 0
  /-- NONCE of the exchange | 16 B | R561 12 | empty DC7 -/
  nonce : List Byte := []
  /-- identity header of the present pack | 160 B | R552 12 | empty DC7 -/
  header : List Byte := []
  /-- the header signature has verified | model | R561 12 | 0 DC7 -/
  headerOk : Bool := false
  /-- the response that awaits its verification | 64 B | R561 12 | none DC7 -/
  sig : Option (List Byte) := none
  /-- GET_RESPONSE was last answered BUSY at | model | R561 12 | none DC7 -/
  busyAt : Option Time := none
  /-- verification in progress | — | R563 12 | none DC7 -/
  job : Option VerifyJob := none
  /-- the tag's profile, when it was read and its digest is right | 196 B | R567 12 | none DC7 -/
  profile : Option (List Byte) := none
  /-- the profile read was skipped by digest | 1 | R567 12 | 0 DC7 -/
  profSkip : Bool := false
  /-- the tag's profile is invalid: read and its digest is wrong | 1 | R567 12 | 0 DC7 -/
  profBad : Bool := false
  /-- state of each slot: 0 EMPTY, 1 OPEN, 2 COMMITTED | 4 × 2 | R581 12 | 0 DC7 -/
  slotSt : List Nat := [0, 0, 0, 0]
  /-- SLOT_SEQ | 4 × 32 | R581 12 | 0 DC7 -/
  slotSeq : List Nat := [0, 0, 0, 0]
  /-- SLOTS[4:2] of each slot: verifying, trusted, own | 4 × 3 | R581 12 | 0 DC7 -/
  slotBits : List (BitVec 3) := [0, 0, 0, 0]
  /-- SLOT_STATUS has been read from the present pack | model | R573 12 | 0 DC7 -/
  slotsRead : Bool := false
  /-- COMMITTED slots still to be tried, newest first | model | R567 12 | empty DC7 -/
  toTry : List Nat := []
  /-- bytes of the slot that is being checked | 384 B | R567 12 | empty DC7 -/
  slotData : List Byte := []
  /-- slot adopted and its record | 2 + 384 B | R569 12 | none DC7 -/
  record : Option (Nat × List Byte) := none
  /-- its writer is trusted | 1 | R581 12 | 0 DC7 -/
  trusted : Bool := false
  /-- BUS: repeated transactions, failed exchanges, unanswered probes | 16 + 8 + 8 | R581 12 | 0 R581 -/
  bus : List Nat := [0, 0, 0]
  /-- TIMES: last exchange and last adoption, 0.1 ms | 16 + 16 | R581 12 | 0 DC7 -/
  times : Nat × Nat := (0, 0)
  /-- C.CERT verifies under a USAGE[1] key of C.TRUST | 1 | R581 12 | 0 DC7 -/
  certOk : Bool := false
  /-- the driver is off after a pin fault since | model | R592 12 | none DC7 -/
  pinOff : Option Time := none
  /-- causes of tag-write events that wait, bit per cause | 8 | R525 12 | 0 DC7 -/
  due : BitVec 9 := 0
  /-- tag write in progress | — | R572 12 | none DC7 -/
  write : Option TagWrite := none
  /-- failed writes in a row | 2 | R543 11 | 0 DC7 -/
  writeFails : Nat := 0
  /-- TAG_WRITE: cause of the last write | 8 | R532 11 | 0 DC7 -/
  wCause : Nat := 0
  /-- last write succeeded | 1 | R532 11 | 0 DC7 -/
  wOk : Bool := false
  /-- skipped writes since CONFIGURE, saturating | 7 | R532 11 | 0 R532 -/
  wSkipped : Nat := 0
  /-- writes since CONFIGURE, saturating | 16 | R532 11 | 0 R532 -/
  writes : Nat := 0
  /-- TAG_SEQ | 32 | R532 11 | 0 DC7 -/
  seq : Nat := 0
  /-- TAG_TIME | 32 | R532 11 | 0 DC7 -/
  wTime : Nat := 0
  /-- the first authentication since the pack became present has had its write | model | R523 11 | 0 DC7 -/
  firstDone : Bool := false
  /-- a READ that the depot tool requests | — | R579 12 | none DC7 -/
  tool : Option ToolRead := none
  deriving DecidableEq, Repr

/-! ### The innkeeper (chapter 13) -/

/-- The reasons of Table 13.5, with GRANTED. -/
inductive Reason | granted | lowSupply | shed | noReserve | spur | revoked | late | shutdown | cut | page
  deriving DecidableEq, Repr

/-- The codes of Table 13.5. -/
def Reason.code : Reason → Nat
  | .granted => 0 | .lowSupply => 1 | .shed => 2 | .noReserve => 3 | .spur => 4 | .revoked => 5 | .late => 6
  | .shutdown => 7 | .cut => 8 | .page => 9

/-- A guest record (Table 13.4) without its check sum. -/
structure GuestRec where
  contract : List Byte
  tab      : Nat := 0
  metered  : Nat := 0
  oasis    : Nat := 0
  grants   : Nat := 0
  withheld : Nat := 0
  refunded : Nat := 0
  next     : Nat := 0
  revoked  : Bool := false
  safety   : Bool := false
  reason   : Nat := 0
  writeSeq : Nat := 0
  deriving DecidableEq, Repr

/-- A guest of the running image, in image order. -/
structure Guest where
  cfg      : GuestCfg
  /-- position in the image, from 0 (R626) -/
  pos      : Nat
  /-- rejection reported in GUEST_REJECT; none when admitted -/
  reject   : Option GuestReject
  /-- admitted on this gauge's side: its slots run here -/
  own      : Bool
  /-- holds its room for good (R630) -/
  resident : Bool := false
  /-- inn second of the oldest release that is not yet planned -/
  rel      : Nat := 0
  deriving DecidableEq, Repr

/-- A room with the record it holds (R627): `dirty` tells that the record has changed since its last write-back, `due`
that a write-back waits for the end read of its slot (R659). -/
structure Room where
  pos   : Nat
  rcd   : GuestRec
  dirty : Bool
  due   : Bool
  deriving DecidableEq, Repr

/-- Life of a planned slot. -/
inductive SlotSt | planned | running
  deriving DecidableEq, Repr

/-- A planned, running or ended slot. Ticks are inn ticks. -/
structure Slot where
  /-- position of the guest -/
  pos     : Nat
  start   : Nat
  stop    : Nat
  /-- latest start (R594) -/
  latest  : Nat
  st      : SlotSt := .planned
  /-- epoch, once pre-armed (R618) -/
  epoch   : Option Nat := none
  /-- provisional decision taken: its reason -/
  prov    : Option Reason := none
  /-- START of the provisional beacon, when it was sent -/
  beacon  : Option Nat := none
  /-- funded from the guest's balance (R603) -/
  balance : Bool := false
  /-- ticks elapsed at the revocation that stopped it (Table 13.6) -/
  revoked : Option Nat := none
  /-- refunded (Table 13.6) -/
  refund  : Bool := false
  deriving DecidableEq, Repr

/-- The innkeeper's side of one spur. -/
structure SpurInn where
  /-- planned slots in order of their starts; the first may be running | — | R611 13 | empty DC7 -/
  plan : List Slot := []
  /-- slots that have ended and wait for their end read, oldest first | — | R606 13 | empty DC7 -/
  ended : List Slot := []
  /-- planned end of the last planned slot | model | R611 13 | 0 DC7 -/
  freeAt : Nat := 0
  /-- held under R644 until this inn second | 16 | R644 13 | none DC7 -/
  hold : Option Nat := none
  /-- CHARGED, mJ | 48 | R606 13 | 0 R647 -/
  charged : Nat := 0
  /-- SLOT_METERED, mJ | 48 | R606 13 | 0 R647 -/
  metered : Nat := 0
  /-- metered energy of the charged slots, mJ | model | R609 13 | 0 R647 -/
  chargedMetered : Nat := 0
  /-- slots ended since CONFIGURE | model | R610 13 | 0 R647 -/
  ends : Nat := 0
  /-- withholding under check 4 for derating | 1 | R647 13 | 0 DC7 -/
  derated : Bool := false
  /-- image position of the guest whose slot ended last | model | R435 09 | none DC7 -/
  lastPos : Option Nat := none
  deriving DecidableEq, Repr

/-- The innkeeper. -/
structure Inn where
  /-- planning: step 8 has ended and at least one guest of this side is admitted | 1 | R617 13 | 0 DC7 -/
  on : Bool := false
  /-- inn time, ticks; INN_TIME shows it modulo 2^32 | 32 | R594 13 | 0 R663 -/
  time : Nat := 0
  /-- guests of the running image in image order | — | R595 13 | empty DC7 -/
  guests : List Guest := []
  /-- rooms in use, up to 64 | 64 × 64 B | R627 13 | empty DC7 -/
  rooms : List Room := []
  /-- fills waiting, the first in progress: guest position and start | — | R631 13 | empty DC7 -/
  fills : List (Nat × Time) := []
  /-- the innkeeper's side of each spur | — | R611 13 | DC7 -/
  spurs : Vector SpurInn 8 := Vector.replicate 8 {}
  /-- last epoch assigned | 32 | R625 13 | 0 R625 -/
  epoch : Nat := 0
  /-- records persist (R628) | 1 | R647 13 | 0 DC7 -/
  persist : Bool := false
  /-- paging in use | 1 | R647 13 | 0 DC7 -/
  paging : Bool := false
  /-- fenced figure F, mJ | 48 | R599 13 | 0 DC7 -/
  fenced : Nat := 0
  /-- P_c of each class, mW | 8 × 32 | R605 13 | empty DC7 -/
  pClass : List Rat := []
  /-- E_c of each class, mJ | 8 × 48 | R605 13 | empty DC7 -/
  eClass : List Nat := []
  /-- a class table has been handed over | 1 | R507 11 | 0 DC7 -/
  handed : Bool := false
  /-- E_AVAIL lay below F at the last update | model | R604 13 | 0 DC7 -/
  below : Bool := false
  /-- WITHHELD by reason code | 10 × 8 | R647 13 | 0 R647 -/
  withheld : List Nat := List.replicate 16 0
  /-- LAST_DECISION: guest index, reason and inn tick | 32 | R647 13 | 0 DC7 -/
  last : Nat × Nat × Nat := (0, 0, 0)
  /-- RESTORED: at the last CONFIGURE and by fills | 11 + 11 | R647 13 | 0 R647 -/
  restored : Nat × Nat := (0, 0)
  /-- LATE | 32 | R647 13 | 0 R647 -/
  late : Nat := 0
  /-- provisional and cancel beacons | 16 + 16 | R647 13 | 0 R647 -/
  beacons : Nat × Nat := (0, 0)
  /-- LEDGER: largest difference and failed checks | 16 + 16 | R647 13 | 0 R647 -/
  ledger : Nat × Nat := (0, 0)
  /-- last ledger check | model | R610 13 | 0 DC7 -/
  ledgerAt : Time := 0
  /-- most rooms pinned at once | 7 | R647 13 | 0 R647 -/
  mostPinned : Nat := 0
  /-- PAGING: fills and longest fill, µs | 16 + 16 | R647 13 | 0 R647 -/
  paged : Nat × Nat := (0, 0)
  deriving DecidableEq, Repr

/-! ### Host links, sessions and caravan time (chapter 14) -/

/-- A session handle in use (R683, R685 … R688). -/
structure Sess where
  role    : Role
  index   : Nat
  /-- half-open -/
  half    : Bool
  link    : LinkId
  addr    : Nat
  /-- last accepted COUNTER -/
  counter : Nat
  /-- last accepted request, or the opening of a half-open handle -/
  lastAt  : Time
  fails   : Nat
  ks      : List Byte
  /-- opened in LIMP -/
  limp    : Bool
  deriving DecidableEq, Repr

/-- The one pending command (R692). -/
structure Pend where
  op      : Nat
  handle  : Nat
  at_     : Time
  /-- the session that issued it ended, or dropped it: its outcome is discarded (R723) -/
  orphan  : Bool
  /-- the outcome that the command's own work has produced and PENDING_OUTCOME_READY has not yet made ready -/
  done    : Option (Nat × List Byte)
  /-- the outcome that CMD_RESULT reads -/
  outcome : Option (Nat × List Byte)
  deriving DecidableEq, Repr

/-- A response that waits for its instant of release (R672, R690). -/
structure Resp where
  ready : Time
  bytes : List Byte
  /-- priority of the request, on CAN -/
  prio  : Nat
  deriving DecidableEq, Repr

/-- A reassembly of a REQUEST message (R678). -/
structure Reasm where
  addr  : Nat
  total : Nat
  got   : List Byte
  /-- SEQ of the next segment -/
  next  : Nat
  lastAt : Time
  deriving DecidableEq, Repr

/-- The SMBus slave. -/
structure Smb where
  /-- SMB_COUNTS: transfers, PEC errors, timeouts | 16 + 8 + 8 | R714 14 | 0 R714 -/
  counts : List Nat := [0, 0, 0]
  /-- SMB_ZERO: zero-length reads and zero-length SENDs | 16 + 16 | R714 14 | 0 R714 -/
  zero : Nat × Nat := (0, 0)
  /-- response to the last SEND | — | R671 14 | none DC7 -/
  resp : Option Resp := none
  /-- bytes that the last FETCH or zero-length read returned, PEC included | — | R671 14 | empty DC7 -/
  out : List Byte := []
  /-- a FETCH stretches SMB_CLK since | 1 | R672 14 | none DC7 -/
  stretch : Option Time := none
  /-- interface found stuck | 1 | R730 14 | 0 DC7 -/
  stuck : Bool := false
  /-- the last byte of the last SEND, its PEC, was acknowledged | 1 | R668 14 | none DC7 -/
  acked : Option Bool := none
  deriving DecidableEq, Repr

/-- The CAN FD controller and its frames. -/
structure Can where
  /-- CAN domain running | 1 | R714 14 | 0 DC7 -/
  on : Bool := false
  /-- CAN_STB high | 1 | R714 14 | 1 R45 -/
  stb : Bool := true
  /-- CAN_STB was released for a transmission of the gauge's own: the WAKE frame goes first after 200 µs | model | R712 14 | none DC7 -/
  wakeAt : Option Time := none
  /-- frames handed to the controller, oldest first, with their hand-over | — | R721 14 | empty DC7 -/
  queue : List (RuellFrame × Time) := []
  /-- the last frame sent | — | R675 14 | none DC7 -/
  last : Option RuellFrame := none
  /-- transmit error count | 8 | R714 14 | 0 R714 -/
  tec : Nat := 0
  /-- receive error count | 8 | R714 14 | 0 R714 -/
  rxec : Nat := 0
  /-- bus-offs, saturating | 8 | R714 14 | 0 R714 -/
  busOffs : Nat := 0
  /-- error-passive entries, saturating | 8 | R714 14 | 0 R714 -/
  passives : Nat := 0
  /-- bus-off | 1 | R681 14 | 0 DC7 -/
  off : Bool := false
  /-- times of the bus-offs of the last 60 s | model | R681 14 | empty DC7 -/
  offTimes : List Time := []
  /-- recovery may begin | model | R681 14 | 0 DC7 -/
  recoverAt : Time := 0
  /-- CAN_RX found stuck: the controller is held off the bus since | model | R730 14 | none DC7 -/
  rxStuck : Option Time := none
  /-- CAN_RX: accepted, 11-bit and remote frames, reserved kinds | 16 + 8 + 8 | R714 14 | 0 R714 -/
  rx : List Nat := [0, 0, 0]
  /-- CAN_MULTI: zero-length first frames and incomplete reassemblies | 16 + 16 | R714 14 | 0 R714 -/
  multi : Nat × Nat := (0, 0)
  /-- CAN_TX: sent and dropped | 16 + 16 | R714 14 | 0 R714 -/
  tx : Nat × Nat := (0, 0)
  /-- reassemblies, oldest first | — | R678 14 | empty DC7 -/
  reasm : List Reasm := []
  /-- session responses that wait for their instant | — | R690 14 | empty DC7 -/
  resp : List Resp := []
  /-- last event that R711 waits for: a frame, the end of a session on CAN, WAKE_N released, the start of a slot of R619 | model | R711 14 |
  0 DC7 -/
  frameAt : Time := 0
  /-- WAKE_N found stuck since | model | R730 14 | none DC7 -/
  wakeStuck : Option Time := none
  /-- WAKE_N was released after it had been stuck | model | R730 14 | none DC7 -/
  wakeHighAt : Option Time := none
  /-- the bus is kept awake until | model | R709 14 | 0 DC7 -/
  awakeUntil : Time := 0
  /-- another device has held WAKE_N low for 1 ms and still does | 1 | R711 14 | 0 DC7 -/
  wakeLow : Bool := false
  /-- intervals between frames whose bus errors have entered the error counts | model | R674 14 | 0 DC7 -/
  errs : Nat := 0
  deriving DecidableEq, Repr

/-- Sessions and commands. -/
structure Access where
  /-- handles 1 … 8 | 8 | R687 14 | free DC7 -/
  sess : List (Option Sess) := List.replicate 8 none
  /-- pending command | — | R692 14 | none DC7 -/
  pend : Option Pend := none
  /-- AUTH: AUTH answers, REPLAY answers, lockouts | 16 + 8 + 8 | R714 14 | 0 R714 -/
  auth : List Nat := [0, 0, 0]
  /-- times of the failed confirms of the last 10 s | model | R689 14 | empty DC7 -/
  failed : List Time := []
  /-- lockout until | model | R689 14 | none DC7 -/
  lockUntil : Option Time := none
  /-- the gauge answers its links: cleared at step 6 of a shut-down sequence (R726) | 1 | R726 14 | 1 DC7 -/
  answers : Bool := true
  deriving DecidableEq, Repr

/-- Caravan time as a source and as a follower (R703 … R705, R722). -/
structure Caravan where
  /-- SEQ of the last TIME_SYNC sent | 5 | R703 14 | 0 DC7 -/
  sendSeq : Nat := 0
  /-- last TIME_SYNC sent | model | R703 14 | none DC7 -/
  sendAt : Option Time := none
  /-- stopped because a lower source was heard | 1 | R722 14 | 0 DC7 -/
  stopped : Bool := false
  /-- sources heard: address and time of the last TIME_SYNC | model | R704 14 | empty DC7 -/
  heard : List (Nat × Time) := []
  /-- the last TIME_SYNC stamped of each source: source, SEQ, gauge time and own caravan time, µs | model | R704 14 | empty DC7 -/
  stamps : List (Nat × Nat × Time × Rat) := []
  /-- source followed | 16 | R715 14 | none DC7 -/
  follow : Option Nat := none
  /-- last TIME_FOLLOW used | model | R705 14 | none DC7 -/
  followAt : Option Time := none
  /-- gauge time and source time of the previous sync used | model | R704 14 | none DC7 -/
  prev : Option (Time × Rat) := none
  /-- synchronised | 1 | R715 14 | 0 DC7 -/
  synced : Bool := false
  /-- OFFSET, µs | 32 | R715 14 | 0 DC7 -/
  offset : Rat := 0
  /-- COUNTS: syncs used, steps, losses | 16 + 8 + 8 | R715 14 | 0 R715 -/
  counts : List Nat := [0, 0, 0]
  deriving DecidableEq, Repr

/-! ### Running as a pair (chapter 15) -/

/-- T.PAIR.STATE[1:0]. -/
inductive PairSt | single | joined | lost | singles
  deriving DecidableEq, Repr

/-- A record on the Kersor link: its type and payload, with the time of its event. -/
structure KRec where
  type    : Nat
  payload : List Byte
  at_     : Time
  deriving DecidableEq, Repr

/-- A symbol of the Kersor link: a control symbol of R737, or a data symbol. -/
inductive LinkSymbol
  | k28_5 | k27_7 | k29_7
  | data (b : Byte)
  deriving DecidableEq, Repr

/-- A sequenced frame that the partner has not acknowledged (R741). -/
structure KTx where
  seq    : Nat
  rcd    : KRec
  sentAt : Time
  /-- its symbols as they were last sent (R737) -/
  frame  : List LinkSymbol
  deriving DecidableEq, Repr

/-- A probe of the SHARE line (R760). -/
structure Probe where
  start : Time
  /-- last codes of the SHARE sense in the two halves -/
  first  : Option Nat
  second : Option Nat
  deriving DecidableEq, Repr

/-- The partner as it last reported itself. -/
structure Partner where
  /-- PARTNER_UID | 16 B | R769 15 | zero DC7 -/
  uid : List Byte := []
  /-- MODE | 3 | R769 15 | 0 DC7 -/
  mode : Nat := 0
  /-- PACK_STATE | 4 | R769 15 | 0 DC7 -/
  packSt : Nat := 0
  /-- FLAGS | 8 | R769 15 | 0 DC7 -/
  flags : BitVec 8 := 0
  /-- SOC | 14 | R769 15 | 0 DC7 -/
  soc : Nat := 0
  /-- E_AVAIL, mJ | 48 | R769 15 | 0 DC7 -/
  eAvail : Nat := 0
  /-- TTE, s | 32 | R769 15 | 0 DC7 -/
  tte : Nat := 0
  /-- Q_FCC, mAh | 32 | R769 15 | 0 DC7 -/
  qFcc : Nat := 0
  /-- T_PACK and DIE, 0.01 °C | 16 + 16 | R769 15 | 0 DC7 -/
  temps : Int × Int := (0, 0)
  /-- last SUMMARY | model | R769 15 | none DC7 -/
  sumAt : Option Time := none
  /-- highest epoch seen since the last join | 32 | R749 15 | none DC7 -/
  epoch : Option Nat := none
  /-- open epochs: number, guest index and running | — | R749 15 | empty DC7 -/
  epochs : List (Nat × Nat × Bool) := []
  deriving DecidableEq, Repr

/-- The pair. -/
structure Pair where
  /-- state | 2 | R769 15 | single DC7 -/
  st : PairSt := .single
  /-- standing in | 1 | R764 15 | 0 DC7 -/
  standIn : Bool := false
  /-- split | 1 | R765 15 | 0 DC7 -/
  split : Bool := false
  /-- leaving holds | 1 | R759 15 | 0 DC7 -/
  leaving : Bool := false
  /-- this gauge has sent LEAVING: FLAGS[0] | 1 | R766 15 | 0 DC7 -/
  ownLeaving : Bool := false
  /-- copies fresh | 1 | R746 15 | 0 DC7 -/
  fresh : Bool := false
  /-- records restored at the last CONFIGURE | 1 | R769 15 | 0 DC7 -/
  restored : Bool := false
  /-- records restored at the last join | 11 | R769 15 | 0 DC7 -/
  restoredN : Nat := 0
  /-- acting as time source for the partner | 1 | R764 15 | 0 DC7 -/
  timeSource : Bool := false
  /-- last verdict: 0 none, 1 ABSENT, 2 PRESENT, 3 INCONCLUSIVE | 2 | R761 15 | 0 DC7 -/
  verdict : Nat := 0
  /-- consecutive ABSENT verdicts | model | R763 15 | 0 DC7 -/
  absents : Nat := 0
  /-- probe in progress | 1 | R760 15 | none DC7 -/
  probe : Option Probe := none
  /-- SHARE drive held under R760, or driven by the probe, mV | 12 | R760 15 | none DC7 -/
  drive : Option Rat := none
  /-- the next probe while split falls due | model | R763 15 | none DC7 -/
  nextProbe : Option Time := none
  /-- last Δ, mV | 12 | R769 15 | 0 DC7 -/
  delta : Int := 0
  /-- probes since CONFIGURE, saturating | 8 | R769 15 | 0 R769 -/
  probes : Nat := 0
  /-- the link is held lost: FLAGS[5] | 1 | R758 15 | 0 DC7 -/
  linkLost : Bool := false
  /-- symbol lock | 1 | R736 15 | 0 DC7 -/
  lock : Bool := false
  /-- last valid HEARTBEAT | model | R758 15 | none DC7 -/
  hbAt : Option Time := none
  /-- consecutive timely HEARTBEATs while lock has held | model | R767 15 | 0 DC7 -/
  hbRun : Nat := 0
  /-- symbols of the last HEARTBEAT sent | 16 B | R737 15 | empty DC7 -/
  hbOut : List LinkSymbol := []
  /-- SEQ of the last sequenced frame sent | 8 | R739 15 | 0 DC7 -/
  txSeq : Nat := 0
  /-- SEQ of the last sequenced frame accepted | 8 | R740 15 | 0 DC7 -/
  rxSeq : Nat := 0
  /-- unacknowledged frames, oldest first, up to 64 | 64 | R741 15 | empty DC7 -/
  unacked : List KTx := []
  /-- records that wait for room among them | — | R741 15 | empty DC7 -/
  waiting : List KRec := []
  /-- link losses since CONFIGURE, saturating | 8 | R769 15 | 0 R769 -/
  losses : Nat := 0
  /-- LINK_ERRORS: frames discarded and frames sent again | 16 + 16 | R769 15 | 0 R769 -/
  errs : Nat × Nat := (0, 0)
  /-- COMMIT: longest, µs, and later than 1 ms | 16 + 16 | R769 15 | 0 R769 -/
  commit : Nat × Nat := (0, 0)
  /-- symbols sent in this second, and occupancy of the last, % | 8 | R769 15 | 0 DC7 -/
  occ : Nat × Time × Nat := (0, 0, 0)
  /-- EPOCHS[23:8], epochs discarded at losses, saturating | 16 | R769 15 | 0 R769 -/
  dropped : Nat := 0
  /-- the partner -/
  them : Partner := {}
  /-- copies of the partner's guest records by guest index | 64 B each | R745 15 | empty DC7 -/
  copies : List (Nat × List Byte) := []
  /-- a JOIN was accepted in this step 7 | model | R750 15 | 0 DC7 -/
  joinedIn7 : Bool := false
  /-- step 7 may end: RECORDS_END arrived, or the 60 ms passed | model | R754 15 | 0 DC7 -/
  done7 : Bool := false
  /-- last JOIN of step 7 sent | model | R750 15 | none DC7 -/
  joinAt : Option Time := none
  /-- RECORDS_END of the join sent | model | R756 15 | 0 DC7 -/
  sentEnd : Bool := false
  /-- RECORDS_END of the join accepted | model | R756 15 | 0 DC7 -/
  gotEnd : Bool := false
  /-- resync running: the partner's RECORDS_END of it is awaited | model | R756 15 | 0 DC7 -/
  resync : Bool := false
  /-- role conflict: single until the next CONFIGURE | 1 | R751 15 | 0 DC7 -/
  conflict : Bool := false
  deriving DecidableEq, Repr

/-! ### Pins (chapter 2) -/

/-- Drive of an output pin. -/
inductive Drive | low | high | hiZ
  deriving DecidableEq, Repr

/-- Drive of a gate, or of the two gates of a feed together. -/
inductive Gate
  /-- actively sunk to its own CS -/
  | sunk
  /-- held to its own CS by the internal 100 kΩ (SHIP) -/
  | held
  /-- fully enhanced -/
  | on
  /-- one regulated voltage that keeps the fast-path sense voltage at or below `uv` µV (R285) -/
  | limit (uv : Rat)
  /-- the drop regulator with this drop target in mV (R293, R333) -/
  | drop (mv : Rat)
  deriving DecidableEq, Repr

/-- The charge pump pins VCP, CP_H and CP_L. -/
inductive PumpDrive | off | bursts | on
  deriving DecidableEq, Repr

/-- The NVM pins NV_CS_N, NV_CK and NV_DO: idle (high, low, low), in a transaction, or unpowered. -/
inductive NvBus | idle | active | unpowered
  deriving DecidableEq, Repr

/-- The state of the output pins (Table 2.3), analog outputs in mV. -/
structure Pins where
  /-- FA_GB, FA_GP | 2 | R45 02 | sunk R45 -/
  gateA : Gate := .sunk
  /-- FB_GB, FB_GP | 2 | R45 02 | sunk R45 -/
  gateB : Gate := .sunk
  /-- PK_GD | 1 | R45 02 | sunk R45 -/
  gateD : Gate := .sunk
  /-- PK_GC | 1 | R45 02 | sunk R45 -/
  gateC : Gate := .sunk
  /-- PK_GPC | 1 | R45 02 | sunk R45 -/
  gatePc : Gate := .sunk
  /-- VHOLD: the level towards which it is charged, mV; none while it is not driven | model | R39 02 | not driven DC7 -/
  vHold : Option Rat := none
  /-- NV_CS_N, NV_CK, NV_DO | 3 | R45 02 | high, low, low R45 -/
  nvBus : NvBus := .idle
  /-- CHG_EN | 1 | R45 02 | low R45 -/
  chgEn : Bool := false
  /-- CHG_SET, steps of 1.2 V / 4,096 | 12 | R45 02 | 0 R45 -/
  chgSet : Nat := 0
  /-- SHARE drive, mV; none at high impedance | 12 | R45 02 | high impedance R45 -/
  share : Option Rat := none
  /-- SP0 … SP7 conducting or ramping | 8 | R45 02 | off R45 -/
  spurs : BitVec 8 := 0
  /-- spur into which the tie test of CONFIGURE step 3 sources 2 mA | 8 | R45 02 | none R45 -/
  tieTest : Option Nat := none
  /-- FAULT_N | 1 | R787 16 | low R45 -/
  faultN : Drive := .low
  /-- ALERT_N | 1 | R707 14 | high impedance R45 -/
  alertN : Drive := .hiZ
  /-- WAKE_N | 1 | R708 14 | high impedance R45 -/
  wakeN : Drive := .hiZ
  /-- CAN_STB | 1 | R710 14 | high R45 -/
  canStb : Drive := .high
  /-- CAN_TX recessive or active; true when active | 1 | R45 02 | recessive R45 -/
  canTx : Bool := false
  /-- TSB driven | 1 | R195 05 | off R45 -/
  tsb : Bool := false
  /-- PK_ID pulled up | 1 | R544 12 | inactive R45 -/
  pkId : Bool := false
  /-- NV_WP_N | 1 | R797 16 | low R45 -/
  nvWp : Bool := false
  /-- LK_TP, LK_TN driven | 1 | R734 15 | high impedance R45 -/
  link : Bool := false
  /-- charge pump: VCP, CP_H, CP_L | 1 | R45 02 | off R45 -/
  pump : PumpDrive := .off
  /-- VCC5, VIO, VCORE on | 1 | R45 02 | on R45 -/
  rails : Bool := true
  /-- SMB_CLK, SMB_DAT active | 1 | R45 02 | high impedance R45 -/
  smb : Bool := false
  /-- XI, XO oscillating | 1 | R45 02 | stopped R45 -/
  xtal : Bool := false
  deriving DecidableEq, Repr


/-- The gauge without the NVM and the queue. -/
structure Chip where
  /-- time of the gauge's own time base, ns | model | R201 05 | 0 DC7 -/
  now : Time := 0
  /-- V_TOP as it was last known when a reset or a supply event came, mV | model | R39 02 | 0 DC7 -/
  vTop : Rat := 0
  /-- the last command was an internal reset, and the pins are still in their Reset states | model | R46 02 | 0 DC7 -/
  atReset : Bool := false
  seq : Seq := {}
  ret : Retention := {}
  otp : Otp := {}
  img : ImageSt := {}
  jrn : Journal := {}
  meas : Meas := {}
  cal : Cal := {}
  aux : Aux := {}
  clk : Clk := {}
  tmp : Temp := {}
  prs : Presence := {}
  feedA : Feed := {}
  feedB : Feed := {}
  rail : Rail := {}
  pack : Pack := {}
  chg : Chg := {}
  share : Share := {}
  alert : Alert := {}
  /-- counter of the free values drawn; the model's own field, no register | model | log 2 | 0 DESIGN CHOICE -/
  free : Nat := 0
  /-- NVM writes that the present command puts on the interface; empty between commands | model | R797 16 | empty DC7 -/
  spi : List (Nat × List Byte) := []
  spurs : Vector Spur 8 := Vector.replicate 8 {}
  /-- since when the spur totals exceed their limits | model | R418 09 | none DC7 -/
  totals : SpurTotals := {}
  gauge : Gauge := {}
  learn : Learn := {}
  tag : Tag := {}
  inn : Inn := {}
  smb : Smb := {}
  can : Can := {}
  host : Access := {}
  caravan : Caravan := {}
  pair : Pair := {}
  pins : Pins := {}
  deriving DecidableEq, Repr

/-- Reasons for a fault. The spec gives every command an effect or none, so no step stops with one. -/
inductive Fault
  deriving DecidableEq, Repr

/-- Reasons for a refusal. -/
inductive Refusal
  /-- The arm of this command has no meaning yet; raised by the dispatch alone. Safe: no claim about it can be proved. -/
  | notModelled (mnemonic : String)
  deriving DecidableEq, Repr

/-- The whole block: the gauge, the cells of its NVM and the commands that wait. -/
structure State where
  chip : Chip
  /-- the NVM cells, canonical (Nvm.wf) | 8 per address | R75 03 | nothing listed, log entry 6 -/
  nvm : Nvm
  /-- commands waiting, first in, first out -/
  pending : List Instr
  deriving DecidableEq, Repr

/-- The gauge at power-on reset: unpowered until the reset is released (R142), every register at its reset value. -/
def State.reset : State := { chip := {}, nvm := [], pending := [] }

end Sys2Proof.Machine
end

