-- ==== Sys2Proof/Machine/Ops.lean ====
section
/-! DEFINITION. Operations that every family shares: the passage of time, the configuration in force, access to the
feeds, channels and caravan time, and the random source. -/

namespace Sys2Proof.Machine

/-! ### Time -/

/-- Time passes to `t`; it never runs backwards (DESIGN CHOICE, log entry 1). An internal reset that the command before
took has been released by then (log entry 112). -/
def tick (t : Time) (c : Chip) : Chip := { c with now := max c.now t, atReset := false }

/-- Time since `t0`. -/
def since (c : Chip) (t0 : Time) : Time := c.now - t0

/-- Sample time in µs: the time since CONFIGURE step 0 (R201). -/
def sampleUs (c : Chip) : Nat := (c.now - c.seq.cfgStart) / 1000

/-- Sample time in ms modulo 2^24, as the LAST_FAIL and LAST_END objects report it. -/
def sampleMs24 (c : Chip) : Nat := sampleUs c / 1000 % 2 ^ 24

/-- Sample time in ms modulo 2^32 (Table 15.4). -/
def sampleMs32 (c : Chip) : Nat := sampleUs c / 1000 % 2 ^ 32

/-- Since when a condition has held, once it has been looked at again. -/
def holdsSince (now : Time) (old : Option Time) (holds : Bool) : Option Time := if holds then some (old.getD now) else none

/-- It has held for `d`. -/
def heldFor (c : Chip) (d : Time) (o : Option Time) : Bool := o.elim false fun t => decide (t + d ≤ c.now)

/-! ### Rational helpers -/

def ratMin (a b : Rat) : Rat := if a ≤ b then a else b
def ratMax (a b : Rat) : Rat := if a ≤ b then b else a

/-- `x` held to `lo … hi`. -/
def clampRat (lo hi x : Rat) : Rat := ratMax lo (ratMin hi x)

def absRat (x : Rat) : Rat := if x < 0 then -x else x

/-- Rounds to the nearest integer, ties away from zero (log entry 9). -/
def roundRat (x : Rat) : Int := if x < 0 then -((-x + 1 / 2).floor) else (x + 1 / 2).floor

/-- A non-negative integer part; negative values give 0. -/
def natOfRat (x : Rat) : Nat := x.floor.toNat

/-- A quotient; for a divisor of zero, of which the spec states no result, a free value (log entry 25). -/
def qdiv (x y : Rat) : Rat := if y = 0 then Config.quotientByZero x else x / y

/-- The mean of a list, 0 for an empty one. -/
def meanRat (xs : List Rat) : Rat := if xs.isEmpty then 0 else xs.foldl (· + ·) 0 / (xs.length : Rat)

/-! ### Configuration in force -/

/-- The gauge runs on the LIMP defaults: in LIMP and on the way into it (R147, R148). -/
def inLimp (c : Chip) : Bool := c.seq.mode == .limp || c.seq.limpPath.isSome

/-- A feed section under the LIMP feed set (Table 4.6). -/
def limpFeed (set24 : Bool) : FeedCfg := if set24 then {} else { uvRise := 90, ovRise := 180 }

/-- The defaults of LIMP (Table 4.6). -/
def limpCfg (set24 : Bool) : Cfg := { Cfg.default with feedA := limpFeed set24, feedB := limpFeed set24 }

/-- The configuration in force: that of the image, or the LIMP defaults (R148). An item that a loaded image declares absent
stays ignored in LIMP, the spurs excepted (R66) (DEDUCED, log entry 94). -/
def cfg (c : Chip) : Cfg :=
  if inLimp c then
    let k := limpCfg (c.seq.limpSet24.getD true)
    { k with board := { k.board with fitted := c.img.cfg.board.fitted } }
  else c.img.cfg

/-- Bit `i` of C.BOARD.FITTED. -/
def fitted (c : Chip) (i : Nat) : Bool := (cfg c).board.fitted.getLsbD i

/-- C.BOARD declares spur n fitted; LIMP switches on all eight (R66). -/
def spurFitted (c : Chip) (n : Fin 8) : Bool := (cfg c).board.spurs.getLsbD n

/-- The gauge is one of a pair: the strap decides (Table 3.20). -/
def inPairStrap (c : Chip) : Bool := c.seq.strap != .opn

/-- The side that the strap gives: 0 for DGND, 1 for VIO (Table 3.18). -/
def ownSide (c : Chip) : Bool := c.seq.strap == .vio

/-- The gauge executes: not unpowered, not in reset and not in SHIP. -/
def running (c : Chip) : Bool :=
  match c.seq.mode with
  | .unpowered | .reset | .ship => false
  | _ => true

/-- A shut-down sequence runs. -/
def shutting (c : Chip) : Bool := c.seq.shutStep != 0

/-! ### Feeds -/

def feed (c : Chip) : FeedId → Feed
  | .a => c.feedA
  | .b => c.feedB

def setFeed (c : Chip) (f : FeedId) (x : Feed) : Chip :=
  match f with
  | .a => { c with feedA := x }
  | .b => { c with feedB := x }

def updFeed (f : FeedId) (u : Feed → Feed) (c : Chip) : Chip := setFeed c f (u (feed c f))

def feedCfg (c : Chip) : FeedId → FeedCfg
  | .a => (cfg c).feedA
  | .b => (cfg c).feedB

def otherFeed : FeedId → FeedId
  | .a => .b
  | .b => .a

/-- A feed is accepted in ON and BLOCKING (Table 7.1). -/
def feedAccepted (x : Feed) : Bool := x.st == .on || x.st == .blocking

/-- At least one feed is accepted. -/
def anyFeed (c : Chip) : Bool := feedAccepted c.feedA || feedAccepted c.feedB

/-! ### Modulator channels -/

def chan (c : Chip) : ChId → ModCh
  | .iA => c.meas.iA
  | .iB => c.meas.iB
  | .iP => c.meas.iP
  | .vBus => c.meas.vBus
  | .vPack => c.meas.vPack

def setChan (c : Chip) (ch : ChId) (x : ModCh) : Chip :=
  match ch with
  | .iA => { c with meas.iA := x }
  | .iB => { c with meas.iB := x }
  | .iP => { c with meas.iP := x }
  | .vBus => { c with meas.vBus := x }
  | .vPack => { c with meas.vPack := x }

def updChan (ch : ChId) (u : ModCh → ModCh) (c : Chip) : Chip := setChan c ch (u (chan c ch))

def chIndex : ChId → Fin 5
  | .iA => 0 | .iB => 1 | .iP => 2 | .vBus => 3 | .vPack => 4

/-- The channel is one of the three current channels. -/
def isCurrent : ChId → Bool
  | .iA | .iB | .iP => true
  | _ => false

/-- The current channel of a feed. -/
def feedChan : FeedId → ChId
  | .a => .iA
  | .b => .iB

def tripChan : TripId → ChId
  | .a => .iA
  | .b => .iB
  | .p => .iP

/-- RSNS in µΩ of a current channel's section (R182). -/
def rsnsOf (c : Chip) : ChId → Nat
  | .iA => (cfg c).feedA.rsns
  | .iB => (cfg c).feedB.rsns
  | _ => (cfg c).pack.rsns

/-- A sense voltage in µV as a current in mA through `rsns` µΩ. -/
def maOf (rsns : Nat) (uv : Rat) : Rat := uv * 1000 / (rsns : Rat)

/-- The slow-chop sign that a native word carries now (R180). -/
def chopSign (x : ModCh) : Rat := match x.chop with
  | some p => if p < 8 then 1 else -1
  | none => 1

/-- What R180 subtracts from a native word now. -/
def offsetNow (x : ModCh) : Rat := x.offset * chopSign x

/-- The GATE domain runs: turn-on commands cross into it (R208). -/
def gateRuns (c : Chip) : Bool := !c.clk.stopped.getLsbD 0

/-- The NVM domain runs (R225): a stopped one ends no transaction (DEDUCED, log entry 140). -/
def nvmRuns (c : Chip) : Bool := !c.clk.stopped.getLsbD 1

/-- The CRYPT domain runs (R225): a stopped one gives no result (DEDUCED, log entry 140). -/
def cryptRuns (c : Chip) : Bool := !c.clk.stopped.getLsbD 2

/-! ### Metering of word pairs (R314, R372, R447) -/

/-- A pair of words both of whose values are known: current and voltage at the sense inputs, and the word period, ns. -/
structure MeterPair where
  i  : Rat
  v  : Rat
  dt : Rat

/-- The value with which a word enters a sum; a SETTLE word waits for the next VALID one (R447). -/
def wordAmount (w : Sample) : Option Rat := if w.status = .settle then none else some w.value

/-- The value that a word gives those that wait. -/
def validAmount (w : Sample) : Option Rat := if w.status = .valid then some w.value else none

/-- A waiting pair whose values are both known. -/
def MeterWait.done (w : MeterWait) : Option MeterPair :=
  match w.i, w.v with
  | some i, some v => some { i := i, v := v, dt := w.dt }
  | _, _ => none

/-- The pairs that can be summed once the words `i` and `v` are there, and those that go on waiting. -/
def meterPairs (ws : List MeterWait) (i v : Sample) (dt : Rat) : List MeterPair × List MeterWait :=
  let filled := ws.map fun w => { w with i := w.i <|> validAmount i, v := w.v <|> validAmount v }
  let all := filled ++ [{ i := wordAmount i, v := wordAmount v, dt := dt }]
  (all.filterMap MeterWait.done, all.filter fun w => w.done.isNone)

/-! ### Caravan time (R704, R705) -/

/-- Caravan time in µs at gauge time `t`: the base, the rate correction, and the offset slewed out at up to 200 ppm. -/
def caravanAt (r : Retention) (t : Time) : Rat :=
  let d : Rat := ((t - r.cvRef : Nat) : Rat) / 1000
  let s := d * 200 / 1000000
  r.cvBase + d * (1 + (r.cvRate : Rat) / 10000000) + clampRat (-s) s r.cvSlew

/-- Caravan time now, whole µs in its 56 bits. -/
def caravanUs (c : Chip) : Nat := natOfRat (caravanAt c.ret c.now) % 2 ^ 56

/-- Caravan time in seconds, 32 bits. -/
def caravanSec (c : Chip) : Nat := caravanUs c / 1000000 % 2 ^ 32

/-! ### Random bytes -/

/-- Draws `n` bytes from the random source. -/
def randomBytes (n : Nat) (c : Chip) : List Byte × Chip :=
  ((List.range n).map fun i => Config.random (c.free + i), { c with free := c.free + n })

/-- Draws one free truth value for a pulse whose effect the spec leaves open. -/
def freePulse (c : Chip) : Bool × Chip := (Config.pulseActs c.free, { c with free := c.free + 1 })

/-! ### Bit fields of telemetry -/

/-- `v` held to `n` bits without wrapping. -/
def sat (n : Nat) (v : Nat) : Nat := min v (2 ^ n - 1)

/-- A rational as a saturated unsigned field, rounded to the nearest. -/
def satR (n : Nat) (x : Rat) : Nat := sat n (roundRat x).toNat

/-- A signed field of `n` bits, saturating. -/
def satI (n : Nat) (v : Int) : Nat := twos n (max (-(2 ^ (n - 1) : Int)) (min ((2 ^ (n - 1) : Int) - 1) v))

/-- A rational as a saturated signed field. -/
def satRI (n : Nat) (x : Rat) : Nat := satI n (roundRat x)

/-- A truth value at bit `i`. -/
def bitAt (i : Nat) (b : Bool) : Nat := if b then 2 ^ i else 0

end Sys2Proof.Machine
end

