-- ==== Sys2Proof/Machine/Flags.lean ====
section
/-! DEFINITION. The sticky record (chapter 16): the numbers of its bits, the setting of a bit with everything that a
detection brings about, the alert causes, the requests for journal commits, and who may clear a bit. -/

namespace Sys2Proof.Machine

/-! ### Numbers of the fault bits (R784, Table 16.1): 32 × (index − 0x700) + position -/

namespace F
def imageABad : Nat := 0
def imageBBad : Nat := 1
def imageNone : Nat := 2
def otpFault : Nat := 3
def pairImageMismatch : Nat := 4
def selfTest : Nat := 5
def watchdog : Nat := 6
def coreBrownout : Nat := 7
def ramParity : Nat := 8
def commitTorn : Nat := 9
def wakeLockout : Nat := 10
def xtalFail : Nat := 11
def clockFault : Nat := 12
def modUnstable : Nat := 13
def auxFault : Nat := 14
def offsetLimit : Nat := 15
def nvmWrite : Nat := 16
def holdup : Nat := 17
/-- F.TSk_OPEN, k = 1 … 3. -/
def tsOpen (k : Nat) : Nat := 17 + k
/-- F.TSk_SHORT, k = 1 … 3. -/
def tsShort (k : Nat) : Nat := 20 + k
def tempSlew : Nat := 24
def tempXcheck : Nat := 25
def dieSensor : Nat := 26
def packHot : Nat := 27
def packCold : Nat := 28
def boardHot : Nat := 29
def dieHot : Nat := 30
def dieCritical : Nat := 31
/-- The nine bits of a feed, in the order of Table 16.1. -/
def feedBase : FeedId → Nat
  | .a => 32
  | .b => 41
def feedShort (f : FeedId) : Nat := feedBase f
def feedInrush (f : FeedId) : Nat := feedBase f + 1
def feedFastTrip (f : FeedId) : Nat := feedBase f + 2
def feedFuse (f : FeedId) : Nat := feedBase f + 3
def feedLatched (f : FeedId) : Nat := feedBase f + 4
def feedMirage (f : FeedId) : Nat := feedBase f + 5
def feedReversed (f : FeedId) : Nat := feedBase f + 6
def feedOv (f : FeedId) : Nat := feedBase f + 7
def feedKelvin (f : FeedId) : Nat := feedBase f + 8
def railHeld : Nat := 50
def packFastTrip : Nat := 51
def packFuse : Nat := 52
def packPrecharge : Nat := 53
def packLatched : Nat := 54
def packMirage : Nat := 55
def packReversed : Nat := 56
def packKelvin : Nat := 57
def packOv : Nat := 58
def packDeep : Nat := 59
def chgOvervolt : Nat := 60
def chgCurrent : Nat := 61
def chgNoCurrent : Nat := 62
def chgOvercharge : Nat := 63
def spurShort (n : Nat) : Nat := 64 + n
def spurThermal (n : Nat) : Nat := 72 + n
def spurFaulted (n : Nat) : Nat := 80 + n
def spurBackfeed (n : Nat) : Nat := 88 + n
def spurMirage (n : Nat) : Nat := 96 + n
def spurTied (n : Nat) : Nat := 104 + n
def spurOpenLoad (n : Nat) : Nat := 112 + n
def spurOverdraw (n : Nat) : Nat := 120 + n
def spurTotal : Nat := 128
def shareFault : Nat := 129
def countGap : Nat := 130
def diverged : Nat := 131
def anchorJump : Nat := 132
def recordRejected : Nat := 133
def profileBad : Nat := 134
def capRejected : Nat := 135
def impRejected : Nat := 136
def tagWrite : Nat := 137
def packAuthFail : Nat := 138
def tagSilent : Nat := 139
def tagBus : Nat := 140
def tagRecordBad : Nat := 141
def pkIdFault : Nat := 142
def innLate : Nat := 143
def innCellar : Nat := 144
def innRestored : Nat := 145
def innLedger : Nat := 146
def innFence : Nat := 147
def smbStuck : Nat := 148
def canBusOff : Nat := 149
def canRxStuck : Nat := 150
def addressConflict : Nat := 151
def caravanTime : Nat := 152
def wakeNStuck : Nat := 153
def pairLink : Nat := 154
def pairPartnerLost : Nat := 155
def pairSplit : Nat := 156
def pairProbe : Nat := 157
def pairRole : Nat := 158

/-- Bits of the clearing class D (Table 16.1); every other bit is of class O. -/
def classD : List Nat :=
  [0, 1, 2, 3, 5, 8, 13, 14, 16, 17, 26, 31, 37, 46, 55, 60, 63] ++ (List.range 8).map spurMirage ++ [158]

/-- Bits that do not drive FAULT_N (Table 16.1). -/
def quiet : List Nat :=
  [0, 1, 9, 10, 15, 25] ++ (List.range 8).map spurOpenLoad
    ++ [130, 131, 132, 133, 134, 135, 136, 137, 139, 140, 141, 143, 144, 145, 147, 148, 149, 150, 151, 152, 153]
end F

/-- A mask of the bits numbered in a list. -/
def maskOf (bs : List Nat) : BitVec 160 := bs.foldl (fun m b => m ||| (1#160 <<< b)) 0

/-- The bits that drive FAULT_N (Table 16.1). -/
def faultMask : BitVec 160 := (maskOf (List.range 159)) &&& ~~~ (maskOf F.quiet)

/-- Class D of R790. -/
def classDMask : BitVec 160 := maskOf F.classD

/-! ### Alert causes (R707, R708) -/

/-- Latches alert cause `i`, with the WAKE_N pulse that PARKED adds (DEDUCED, log entry 57). -/
def latchAlert (i : Nat) (c : Chip) : Chip :=
  let a := { c.alert with causes := c.alert.causes ||| (1#5 <<< i), at_ := updAt c.alert.at_ i fun _ => c.now }
  if c.seq.mode = .parked then
    { c with alert := { a with pulse := some c.now, pulses := if a.pulse.isSome then a.pulses else satInc 65535 a.pulses } }
  else { c with alert := a }

/-! ### Journal commits wanted (R789, R791, R799) -/

/-- The head holds the last sequence number (R799). -/
def seqSpent (c : Chip) : Bool :=
  match c.jrn.head with
  | some (_, q) => q == 0xFFFFFFFE
  | none => false

/-- Caravan time in seconds as the records carry it: 0 while absolute time is not set. -/
def writeTime (c : Chip) : Nat := if c.ret.cvSet then caravanSec c else 0

/-- The bits detected at this instant (R811). -/
def detectedNow (c : Chip) : BitVec 160 := if c.jrn.detAt = c.now then c.jrn.detNow else 0

/-- One detection of the fault numbered `b` (R785, R786, R789), with its instant for R811. -/
def setFault (b : Nat) (c : Chip) : Chip :=
  let c := { c with jrn := { c.jrn with
    events := updAt c.jrn.events b (satInc 255), detAt := c.now, detNow := detectedNow c ||| (1#160 <<< b) } }
  if c.ret.sticky.getLsbD b then c
  else
    let mark := some (b, writeTime c)
    let first := if c.ret.sticky = 0 then mark else c.ret.first
    latchAlert 0 { c with
      ret := { c.ret with sticky := c.ret.sticky ||| (1#160 <<< b), first := first, last := mark }
      jrn := { c.jrn with bitRequest := true } }

/-- Sets the fault when `p` holds. -/
def setFaultIf (p : Bool) (b : Nat) (c : Chip) : Chip := if p then setFault b c else c

/-- Asks for a journal commit; with the sequence numbers spent the request sets F.NVM_WRITE instead (R799). -/
def requestCommit (c : Chip) : Chip :=
  if seqSpent c then setFault F.nvmWrite c else { c with jrn.request := true }

/-- The sticky bit is set. -/
def faultSet (c : Chip) (b : Nat) : Bool := c.ret.sticky.getLsbD b

/-- Sticky bits set, as the heartbeat counts them. -/
def stickyCount (c : Chip) : Nat := ((List.range 159).filter (c.ret.sticky.getLsbD ·)).length

/-! ### Clearing (R790 … R792, R694, R807) -/

/-- The bits that a session of this role may clear now (R790). -/
def clearable (r : Role) (m : Mode) : BitVec 160 :=
  let o := ~~~ classDMask
  match r with
  | .owner => o
  | .depot => if m = .depot ∨ m = .limp then ~~~ (0 : BitVec 160) else o
  | .guest => 0

/-! ### Counters -/

/-- Increments entry `i` of a list of counters that saturate at `m`. -/
def bump (m i : Nat) (xs : List Nat) : List Nat := updAt xs i (satInc m)

/-- Adds a time to a list of recent times and keeps those within `win` ns of now. -/
def pushTime (win now : Time) (ts : List Time) : List Time := now :: ts.filter fun t => decide (now < t + win)

end Sys2Proof.Machine
end

