-- ==== Sys2Proof/Machine/Frames.lean ====
section
/-! DEFINITION. What leaves the gauge on its two serial buses: Ruell frames handed to the CAN controller (R674 … R679,
R712, R721) and records on the Kersor link with their sequence numbers and acknowledgements (R739 … R743). -/

namespace Sys2Proof.Machine

/-! ### Ruell frames -/

/-- C.BOARD declares CAN fitted. -/
def canFitted (c : Chip) : Bool := fitted c 5

/-- The Ruell address in use (R675). -/
def ownAddr (c : Chip) : Nat := (cfg c).device.ruellAddr

/-- The gauge sends FD frames when DATA_RATE is not 0 (R679). -/
def sendsFd (c : Chip) : Bool := (cfg c).links.dataRate != 0

/-- The 29-bit identifier of a frame (Table 14.4). -/
def frameId (f : RuellFrame) : Nat := f.prio * 2 ^ 26 + f.kind * 2 ^ 21 + f.device * 2 ^ 5 + f.seq

/-- The controller is error-passive: either error counter is above 127 (ISO 11898-1). -/
def canPassive (m : Can) : Bool := decide (128 ≤ m.tec) || decide (128 ≤ m.rxec)

/-- The error counters take new values; an entry into error-passive is counted. -/
def canErrors (tec rxec : Nat) (m : Can) : Can :=
  let enters := (decide (128 ≤ tec) || decide (128 ≤ rxec)) && !canPassive m
  { m with tec := tec, rxec := rxec, passives := if enters then satInc 255 m.passives else m.passives }

/-- The bus errors since the frame before raise the counters by free amounts, short of bus-off (DEDUCED, log entry 18). -/
def busErrors (m : Can) : Can :=
  let m' := canErrors (min 255 (m.tec + Config.txErrors m.errs)) (min 255 (m.rxec + Config.rxErrors m.errs)) m
  { m' with errs := m.errs + 1 }

/-- A frame has been received without error: the receive counter falls (ISO 11898-1). -/
def goodReceive (m : Can) : Can :=
  let m := busErrors m
  canErrors m.tec (if m.rxec ≤ 127 then m.rxec - 1 else 119 + Config.rxBack m.errs % 9) m

/-- A frame has been sent without error: the transmit counter falls (ISO 11898-1). -/
def goodSend (m : Can) : Can :=
  let m := busErrors m
  canErrors (m.tec - 1) m.rxec m

/-- Hands a frame to the controller; without CAN there is none. -/
def canHand (f : RuellFrame) (c : Chip) : Chip :=
  if canFitted c then { c with can.queue := c.can.queue ++ [(f, c.now)] } else c

/-- A frame of the gauge's own address. -/
def ownFrame (c : Chip) (prio kind seq : Nat) (data : List Byte) : RuellFrame :=
  { prio := prio, kind := kind, device := ownAddr c, seq := seq % 32, data := data, fd := sendsFd c }

/-- The next valid FD payload length. -/
def fdLength (n : Nat) : Nat :=
  if n ≤ 8 then n else if n ≤ 12 then 12 else if n ≤ 16 then 16 else if n ≤ 20 then 20 else if n ≤ 24 then 24
  else if n ≤ 32 then 32 else if n ≤ 48 then 48 else 64

/-- The payloads of the segments of `bs`, `size` bytes each, the last padded (R676); `fuel` bounds their number. -/
def segments (fd : Bool) (size : Nat) : Nat → List Byte → List (List Byte)
  | 0, _ => []
  | fuel + 1, bs =>
    if bs.length ≤ size then
      [bs ++ List.replicate ((if fd then fdLength bs.length else bs.length) - bs.length) 0]
    else bs.take size :: segments fd size fuel (bs.drop size)

/-- Sends a message as frames of one kind (R676). -/
def canMessage (prio kind : Nat) (msg : List Byte) (c : Chip) : Chip :=
  let fd := sendsFd c
  let parts := segments fd (if fd then 64 else 8) 33 (u8B msg.length ++ msg)
  parts.zipIdx.foldl (fun c p => canHand (ownFrame c prio kind p.2 p.1) c) c

/-- The CAN domain may run: fitted, with its crystal, and not held off by a stuck CAN_RX (R223, R730). -/
def canMay (c : Chip) : Bool := canFitted c && c.clk.xtalOk && c.can.rxStuck.isNone

/-- Starts the CAN domain and releases CAN_STB (R709, R710). -/
def canStart (c : Chip) : Chip :=
  if canMay c then { c with can := { c.can with on := true, stb := false } } else c

/-- Starts the CAN domain for a transmission of the gauge's own: the WAKE frame follows after 200 µs (R712). -/
def canStartOwn (c : Chip) : Chip :=
  if canMay c && !c.can.on then
    { c with can := { c.can with on := true, stb := false, wakeAt := some c.now } }
  else c

/-- The bus is awake: the controller runs and may send. -/
def canAwake (c : Chip) : Bool := canFitted c && c.can.on && !c.can.off && c.can.rxStuck.isNone

/-! ### Records on the Kersor link -/

/-- The link carries frames: the strap names a pair, in PARKED, COUPLED and DEPOT and from step 7 of CONFIGURE (R750,
R768; log entry 21). -/
def linkRuns (c : Chip) : Bool :=
  inPairStrap c && (match c.seq.mode with
    | .configure => decide (7 ≤ c.seq.step) && decide (c.seq.step ≤ 8)
    | .parked | .coupled | .depot => true
    | _ => false) && !inLimp c

/-- The symbols of a frame, after the idle set that parts it from the frame before (R737, R739, R740). -/
def linkFrame (type seq ack : Nat) (payload : List Byte) : List LinkSymbol :=
  let b := u8B type ++ u8B seq ++ u8B ack ++ u8B payload.length ++ payload
  [.k28_5, .data 0x50, .k27_7] ++ (b ++ leBytes 2 (crc16 b)).map .data ++ [.k29_7]

/-- A sequenced frame as it goes out now, with the ACK of now. -/
def txFrame (c : Chip) (q : Nat) (r : KRec) : KTx :=
  { seq := q, rcd := r, sentAt := c.now, frame := linkFrame r.type q c.pair.rxSeq r.payload }

/-- Symbols sent count towards the transmit occupancy of T.PAIR.LINK: a frame of LEN payload bytes has LEN + 8. -/
def countSymbols (len : Nat) (c : Chip) : Chip :=
  let busy := (len + 8) * 200
  let (ns, at_, pct) := c.pair.occ
  if c.now < at_ + sec 1 then { c with pair.occ := (ns + busy, at_, pct) }
  else { c with pair.occ := (busy, c.now, min 100 (ns * 100 / sec 1)) }

/-- Sends a sequenced record, or lets it wait while 64 frames are unacknowledged or others wait (R739, R741). -/
def kSend (type : Nat) (payload : List Byte) (c : Chip) : Chip :=
  if !linkRuns c then c
  else
    let r : KRec := { type := type, payload := payload, at_ := c.now }
    if c.pair.unacked.length < 64 ∧ c.pair.waiting = [] then
      let q := (c.pair.txSeq + 1) % 256
      countSymbols payload.length { c with pair := { c.pair with txSeq := q, unacked := c.pair.unacked ++ [txFrame c q r] } }
    else { c with pair.waiting := c.pair.waiting ++ [r] }

/-- Mirror records flow only while the pair is joined and the link is up (R757, R765). -/
def mirrors (c : Chip) : Bool := linkRuns c && c.pair.st == .joined && !c.pair.linkLost

/-- Sends a mirror record. -/
def kMirror (type : Nat) (payload : List Byte) (c : Chip) : Chip := if mirrors c then kSend type payload c else c

/-- The frames that ACK acknowledges: those up to and including the one whose SEQ it names. -/
def ackedCount (ack : Nat) (fs : List KTx) : Nat :=
  match fs.findIdx? fun f => f.seq == ack with
  | some i => i + 1
  | none => 0

/-- Records the commit of one acknowledged frame (R742). -/
def noteCommit (c : Chip) (f : KTx) : Chip :=
  let d := (c.now - f.rcd.at_) / us 1
  { c with pair.commit := (max c.pair.commit.1 (sat 16 d), if d ≤ 1000 then c.pair.commit.2 else satInc 65535 c.pair.commit.2) }

/-- Lets waiting records out while there is room; `fuel` bounds their number. -/
def kDrain : Nat → Chip → Chip
  | 0, c => c
  | fuel + 1, c =>
    match c.pair.waiting with
    | [] => c
    | r :: rs =>
      if c.pair.unacked.length < 64 then
        let q := (c.pair.txSeq + 1) % 256
        kDrain fuel (countSymbols r.payload.length
          { c with pair := { c.pair with txSeq := q, waiting := rs, unacked := c.pair.unacked ++ [txFrame c q r] } })
      else c

/-- Takes the ACK of a received frame, and lets waiting records out, but not in a split or as one of two singles, which send none
(R741, R757, R765). -/
def kAck (ack : Nat) (c : Chip) : Chip :=
  let n := ackedCount ack c.pair.unacked
  let c' := (c.pair.unacked.take n).foldl noteCommit c
  let c' := { c' with pair.unacked := c'.pair.unacked.drop n }
  if c.pair.split || c.pair.st == .singles then c' else kDrain 64 c'

/-- The frames that may be sent again: singles repeat only the JOIN that told of the mismatch or the conflict (R757). -/
def repeats (c : Chip) (f : KTx) : Bool := c.pair.st != .singles || f.rcd.type == 2

/-- Sends the unacknowledged frames again once the oldest has waited 500 µs, in their order (R741). -/
def kRepeat (c : Chip) : Chip :=
  let fs := c.pair.unacked.filter (repeats c)
  match fs with
  | [] => c
  | f :: _ =>
    if us 500 ≤ c.now - f.sentAt then
      let c' := fs.foldl (fun c g => countSymbols g.rcd.payload.length c) c
      { c' with pair := { c'.pair with
          unacked := c'.pair.unacked.map fun g => if repeats c g then txFrame c g.seq g.rcd else g
          errs := (c'.pair.errs.1, min 65535 (c'.pair.errs.2 + fs.length)) } }
    else c

end Sys2Proof.Machine
end

