-- ==== Sys2Proof/Machine/LinkMsg.lean ====
section
/-! DEFINITION. What one gauge of a pair tells the other about itself: the payloads of HEARTBEAT, SUMMARY, JOIN and
LEAVING (Tables 15.3 … 15.5). -/

namespace Sys2Proof.Machine

/-- T.IDENTITY.MODE[2:0] (Table 4.7). -/
def modeCode : Mode → Nat
  | .configure => 1 | .parked => 2 | .coupled => 3 | .depot => 4 | .limp => 5 | .unpowered | .reset | .ship => 0

/-- The codes of Table 8.1. -/
def packCode : PackSt → Nat
  | .noPack => 0 | .wait => 1 | .precharge => 2 | .standby => 3 | .diode => 4 | .charge => 5 | .retryWait => 6
  | .latched => 7 | .isolated => 8 | .reversed => 9 | .faultHold => 10 | .off => 11

/-- The gauge is the caravan time source of its image, or acts as one for its partner (R703, R764). -/
def timeDuty (c : Chip) : Bool := canFitted c && ((cfg c).device.timeSource || c.pair.timeSource)

/-- It sends TIME_SYNC now: R722 has not stopped it. -/
def actsAsSource (c : Chip) : Bool := timeDuty c && !c.caravan.stopped

/-- The isothermal condition (R245). -/
def isothermal (c : Chip) : Bool :=
  c.seq.mode == .parked && c.gauge.rest && decide (c.gauge.restFrom + minutes 60 ≤ c.now)

/-- A sensor is failed. -/
def sensorFailed (s : Sensor) : Bool := s.failedWire || s.failedSlew || s.failedX

/-- FLAGS of a HEARTBEAT (Table 15.4). -/
def heartbeatFlags (c : Chip) : Nat :=
  bitAt 0 c.pair.ownLeaving + bitAt 1 c.pair.standIn + bitAt 2 (actsAsSource c) + bitAt 3 (c.pack.st == .diode)
    + bitAt 4 c.share.active + bitAt 5 c.pair.linkLost

/-- The payload of a HEARTBEAT (Table 15.4). -/
def heartbeatBytes (c : Chip) : List Byte :=
  u8B (modeCode c.seq.mode) ++ u8B (heartbeatFlags c) ++ u8B (packCode c.pack.st) ++ u8B 0
    ++ u32B c.inn.epoch ++ u32B (sampleMs32 c) ++ u16B (sat 16 (stickyCount c)) ++ u16B 0

/-- A HEARTBEAT goes out at a slot tick, under the SEQ of the last sequenced frame (R739, R743). -/
def sendHeartbeat (c : Chip) : Chip :=
  if linkRuns c then
    countSymbols 16 { c with pair.hbOut := linkFrame 1 c.pair.txSeq c.pair.rxSeq (heartbeatBytes c) }
  else c

/-- The payload of a SUMMARY (Table 15.5). -/
def summaryBytes (c : Chip) : List Byte :=
  let flags := bitAt 0 (isothermal c) + bitAt 1 (sensorFailed c.tmp.die) + bitAt 2 c.gauge.rest + bitAt 3 (anyFeed c)
    + bitAt 4 c.gauge.eoc + bitAt 5 c.gauge.eod
  u16B (satR 14 (c.learn.soc * 10000)) ++ u16B (satR 16 (c.share.w * 256)) ++ i16B c.tmp.pack ++ i16B c.tmp.die.temp
    ++ u8B flags ++ u8B 0 ++ leBytes 6 (satR 48 c.learn.eAvail) ++ leBytes 6 (sat 48 c.inn.fenced)
    ++ u32B c.learn.tte ++ u32B (satR 32 c.learn.qFcc) ++ u16B c.learn.cycles ++ u32B 0

/-- A SUMMARY goes out at each estimator update (R743). -/
def sendSummary (c : Chip) : Chip := kMirror 3 (summaryBytes c) c

/-- ROLE of a JOIN: 0 primary, 1 secondary. -/
def roleCode (c : Chip) : Nat := if ownSide c then 1 else 0

/-- The payload of a JOIN (Table 15.3). -/
def joinBytes (state : Nat) (c : Chip) : List Byte :=
  Config.uid ++ u8B (roleCode c) ++ u8B state ++ u16B 0 ++ u32B c.img.cfg.sequence
    ++ (c.img.pairDigest ++ List.replicate (32 - c.img.pairDigest.length) 0)

/-- Sends LEAVING with its cause and sets FLAGS[0] from then on (R766); a split gauge and a single one send no record. -/
def sendLeaving (cause : Nat) (c : Chip) : Chip :=
  if !linkRuns c then c
  else
    let c := if c.pair.split || c.pair.st == .singles then c else kSend 7 (u8B cause ++ u8B 0 ++ u16B 0) c
    { c with pair.ownLeaving := true }

end Sys2Proof.Machine
end

