-- ==== Sys2Proof/Machine/Inn.lean ====
section
/-! DEFINITION. The innkeeper without its commands (chapter 13): guest records, rooms and the cellar, admission, the plan
of slots, the checks of a decision, beacons, and the outcome of a slot that is stopped. -/

namespace Sys2Proof.Machine

/-! ### Contracts (R593) -/

/-- T_i, ticks. -/
def gPeriod (g : GuestCfg) : Nat := g.period * 4000

/-- D_i, ticks. -/
def gDeadline (g : GuestCfg) : Nat := min g.deadline (gPeriod g)

/-- C_i, ticks. -/
def gCost (g : GuestCfg) : Nat := g.slotLen + 1

/-- σ_i, ticks. -/
def gSlack (g : GuestCfg) : Nat := gDeadline g - g.slotLen

/-- The 24 bytes of a C.GUEST body (Table 3.18). -/
def guestBody (g : GuestCfg) : List Byte :=
  u16B g.index ++ u8B (g.spur + (if g.side then 8 else 0) + (if g.beacon then 128 else 0)) ++ u8B g.cls
    ++ u16B g.period ++ u16B g.slotLen ++ u16B g.deadline ++ u16B g.phase ++ u32B g.energy ++ u32B g.oasis
    ++ u16B g.vmin ++ u16B g.iMax

/-! ### Guest records (R627, R629) -/

/-- A record that begins afresh (R629). -/
def freshRec (g : GuestCfg) : GuestRec := { contract := guestBody g, oasis := g.oasis }

/-- Bytes 0 … 59 of a record. -/
def recordHead (r : GuestRec) : List Byte :=
  slice r.contract 0 24 ++ leBytes 6 r.tab ++ leBytes 6 r.metered ++ u32B r.oasis ++ u32B r.grants ++ u16B r.withheld
    ++ u16B r.refunded ++ u32B r.next ++ u8B ((if r.revoked then 1 else 0) + (if r.safety then 2 else 0))
    ++ u8B r.reason ++ u16B 0 ++ u32B r.writeSeq

/-- The 64 bytes of a record with its check sum. -/
def encodeRec (r : GuestRec) : List Byte := recordHead r ++ u32B (crc32 (recordHead r))

/-- The fields of 64 bytes read as a record. -/
def decodeRec (b : List Byte) : GuestRec :=
  { contract := slice b 0 24, tab := leNat (slice b 24 6), metered := leNat (slice b 30 6), oasis := u32At b 36
    grants := u32At b 40, withheld := u16At b 44, refunded := u16At b 46, next := u32At b 48
    revoked := (b.getD 52 0).getLsbD 0, safety := (b.getD 52 0).getLsbD 1, reason := u8At b 53, writeSeq := u32At b 56 }

/-- A record is valid when its check sum is right and it carries the guest's contract (R629). -/
def recValid (b : List Byte) (g : GuestCfg) : Bool :=
  u32At b 60 == crc32 (slice b 0 60) && slice b 0 24 == guestBody g

/-- Address of the record at image position `p` (R626). -/
def cellarAt (c : Chip) (p : Nat) : Nat := (c.img.map.elim 0 (·.cellar)) + 64 * p

/-- Reads the record of a guest from the cellar; invalid bytes begin afresh, which the flag tells. -/
def cellarRead (nvm : Nvm) (c : Chip) (g : Guest) : GuestRec × Bool :=
  let b := nvm.readBytes (cellarAt c g.pos) 64
  if c.inn.persist && recValid b g.cfg then (decodeRec b, false) else (freshRec g.cfg, true)

def roomOf (c : Chip) (p : Nat) : Option Room := c.inn.rooms.find? fun r => r.pos == p

def guestAt (c : Chip) (p : Nat) : Option Guest := c.inn.guests.find? fun g => g.pos == p

/-- The admitted guest with this index, of either side. -/
def guestByIndex (c : Chip) (i : Nat) : Option Guest := c.inn.guests.find? fun g => g.cfg.index == i && g.reject.isNone

/-- The guests whose slots run on this gauge. -/
def ownGuests (c : Chip) : List Guest := c.inn.guests.filter (·.own)

/-- The record of a guest: from its room, otherwise from the cellar as this command has left it. -/
def recordOf (nvm : Nvm) (c : Chip) (g : Guest) : GuestRec :=
  match roomOf c g.pos with
  | some r => r.rcd
  | none => (cellarRead (nvm.apply c.spi) c g).1

/-- Writes a record to the cellar with the next G.WRITE_SEQ (R633). -/
def cellarWrite (c : Chip) (p : Nat) (r : GuestRec) : Chip × GuestRec :=
  let r := { r with writeSeq := (r.writeSeq + 1) % 2 ^ 32 }
  if c.inn.persist then ({ c with spi := c.spi ++ [(cellarAt c p, encodeRec r)] }, r) else (c, r)

def setRooms (c : Chip) (rs : List Room) : Chip := { c with inn.rooms := rs }

/-- Writes back a room's record when it has changed. -/
def writeBack (p : Nat) (c : Chip) : Chip :=
  match roomOf c p with
  | some r =>
    if r.dirty then
      let (c', rcd) := cellarWrite c p r.rcd
      setRooms c' (c'.inn.rooms.map fun x => if x.pos == p then { x with rcd := rcd, dirty := false, due := false } else x)
    else setRooms c (c.inn.rooms.map fun x => if x.pos == p then { x with due := false } else x)
  | none => c

/-- Changes a guest's record; `mirror` tells that an account or G.STATUS changes, so that the partner gets it (R743). -/
def modRecord (nvm : Nvm) (mirror : Bool) (p : Nat) (f : GuestRec → GuestRec) (c : Chip) : Chip :=
  match guestAt c p with
  | none => c
  | some g =>
    let old := recordOf nvm c g
    let new := f old
    if new = old then c
    else
      let c :=
        if (roomOf c p).isSome then
          setRooms c (c.inn.rooms.map fun x => if x.pos == p then { x with rcd := new, dirty := true } else x)
        else (cellarWrite c p new).1
      if mirror && g.own then kMirror 4 (encodeRec new) c else c

/-! ### Spurs as the innkeeper sees them -/

/-- The spur whose command spur n takes: the lowest-numbered of the tie that CONFIGURE merged it with (R392, R616). A tie found
later changes no plan (R612). -/
def leadSpur (c : Chip) (n : Fin 8) : Fin 8 := ((List.finRange 8).find? fun m => c.spurs[n].mergeMask.getLsbD m.val).getD n

/-- The spurs that take the command of spur n, itself among them. -/
def tieGroup (c : Chip) (n : Fin 8) : List (Fin 8) := (List.finRange 8).filter fun m => leadSpur c m == n

/-- The spur that a contract names. -/
def guestSpur (g : GuestCfg) : Fin 8 := ⟨g.spur % 8, Nat.mod_lt _ (by decide)⟩

/-- The admitted guests whose slots run on spur n. -/
def spurGuests (c : Chip) (n : Fin 8) : List Guest := (ownGuests c).filter fun g => leadSpur c (guestSpur g.cfg) == n

/-- HOUSE_ALLOW of a spur, mA; not applied in LIMP (R422). -/
def houseAllow (c : Chip) (n : Fin 8) : Nat := if inLimp c then 0 else (cfg c).spurs[n].houseAllow

/-- The continuous allowance of R419, mA. -/
def spurAllowance (c : Chip) : Rat := 350 * (c.tmp.dS : Rat) / 256

/-! ### Admission (R595 … R598, Table 13.1) -/

def sumRat (xs : List Rat) : Rat := xs.foldl (· + ·) 0
def maxNat (xs : List Nat) : Nat := xs.foldl max 0

/-- Test A1 over the guests of one spur. -/
def testTime (gs : List GuestCfg) : Bool :=
  gs.all fun k =>
    let dk := gDeadline k
    let inside := sumRat ((gs.filter fun i => decide (gDeadline i ≤ dk)).map fun i => (gCost i : Rat) / (gDeadline i : Rat))
    let block := maxNat ((gs.filter fun j => decide (dk < gDeadline j)).map gCost)
    decide (inside + (block : Rat) / (dk : Rat) ≤ 1)

/-- Test A2 of one guest. -/
def testSpurCurrent (c : Chip) (n : Fin 8) (g : GuestCfg) : Bool := decide (g.iMax + (cfg c).spurs[n].houseAllow ≤ 350)

/-- The spur load of test A3, mA. -/
def spurLoad (c : Chip) (gs : List GuestCfg) (n : Fin 8) : Nat :=
  let on := gs.filter fun g => guestSpur g == n
  if !spurFitted c n then 0
  else if on.isEmpty then (if (cfg c).spurs[n].defaultOn then 350 else 0)
  else maxNat (on.map (·.iMax)) + (cfg c).spurs[n].houseAllow

def testTotal (c : Chip) (gs : List GuestCfg) : Bool :=
  let load (ns : List (Fin 8)) : Nat := (ns.map (spurLoad c gs)).foldl (· + ·) 0
  decide (load (List.finRange 8) ≤ 1600) && decide (load [0, 1, 2, 3] ≤ 1400) && decide (load [4, 5, 6, 7] ≤ 1400)

/-- OCV[8] of C.PROFILE, or of the ROM profile of C.PACK.CHEM, mV. -/
def ocv8 (c : Chip) : Nat :=
  match (cfg c).profile with
  | some p => (p.points[8]?).elim 0 (·.ocv)
  | none => (romOcv (cfg c).pack.chem).getD 8 0

/-- E_DES, mJ: mAh × cells × mV × 3.6 (log entry 16). -/
def designEnergy (c : Chip) : Nat := (cfg c).pack.designCap * (cfg c).pack.cells * ocv8 c * 36 / 10

def testReserves (c : Chip) (gs : List GuestCfg) : Bool :=
  decide (2 * (gs.map (·.oasis)).foldl (· + ·) 0 ≤ designEnergy c)

/-- Test A5, when more than 64 guests would be admitted (DEDUCED, log entry 70). -/
def testPaging (c : Chip) (gs : List GuestCfg) : Bool :=
  if gs.length ≤ 64 then true
  else
    let paged := gs.filter fun g => decide (64 ≤ gSlack g)
    let h := max 20 (4 * (cfg c).inn.provLead)
    let nOf (n : Fin 8) : Nat :=
      match (paged.filter fun g => guestSpur g == n).map (·.slotLen) with
      | [] => 0
      | l :: ls => 1 + max 2 (1 + h / (ls.foldl min l))
    decide (gs.length - paged.length ≤ 32)
      && decide (sumRat (paged.map fun g => 1 / ((gSlack g : Rat) - 20)) ≤ 1 / 2)
      && decide ((((List.finRange 8).map nOf).foldl (· + ·) 0 : Nat) ≤ 32)

/-- Every test of Table 13.1 over the admitted guests together with `g`. -/
def admissible (c : Chip) (gs : List GuestCfg) (g : GuestCfg) : Bool :=
  let n := guestSpur g
  let all := gs ++ [g]
  testTime (all.filter fun k => guestSpur k == n) && testSpurCurrent c n g && testTotal c all && testReserves c all
    && testPaging c all

/-- Inserts a guest by CLASS, then INDEX (R595). -/
def insertGuest (g : Guest) : List Guest → List Guest
  | [] => [g]
  | x :: xs =>
    if g.cfg.cls < x.cfg.cls || (g.cfg.cls == x.cfg.cls && decide (g.cfg.index < x.cfg.index)) then g :: x :: xs
    else x :: insertGuest g xs

def classOrder (gs : List Guest) : List Guest := gs.foldl (fun acc g => insertGuest g acc) []

/-- The positions that admission accepts, in the order of R595 (DEDUCED, log entry 13). -/
def admitLoop (c : Chip) : List Guest → List GuestCfg → List Nat → List Nat
  | [], _, acc => acc
  | g :: gs, inside, acc =>
    if admissible c inside g.cfg then admitLoop c gs (inside ++ [g.cfg]) (acc ++ [g.pos]) else admitLoop c gs inside acc

/-- Admission at CONFIGURE step 1 (R595, R597). A guest of the other side is admitted without the tests of this one. -/
def admitGuests (c : Chip) : Chip :=
  let raw : List Guest := c.img.contracts.zipIdx.map fun p =>
    { cfg := p.1.1, pos := p.2, reject := p.1.2, own := false }
  let mine := raw.filter fun g => g.reject.isNone && g.cfg.side == (inPairStrap c && ownSide c)
  let ok := admitLoop c (classOrder mine) [] []
  { c with inn.guests := raw.map fun g =>
      if g.reject.isSome then g
      else if g.cfg.side != (inPairStrap c && ownSide c) then g
      else if ok.contains g.pos then { g with own := true }
      else { g with reject := some .overbooked } }

/-- A1 and A2 again over the guests of a merged tie (R598). -/
def readmitLoop (c : Chip) : List Guest → List GuestCfg → List Nat → List Nat
  | [], _, out => out
  | g :: gs, inside, out =>
    if testTime (inside ++ [g.cfg]) && testSpurCurrent c (leadSpur c (guestSpur g.cfg)) g.cfg then
      readmitLoop c gs (inside ++ [g.cfg]) out
    else readmitLoop c gs inside (out ++ [g.pos])

def readmit (c : Chip) : Chip :=
  let leads := (List.finRange 8).filter fun n => c.spurs[n].merged && leadSpur c n == n
  let out := leads.flatMap fun n => readmitLoop c (classOrder (spurGuests c n)) [] []
  { c with inn.guests := c.inn.guests.map fun g =>
      if out.contains g.pos then { g with own := false, reject := some .overbooked } else g }

/-! ### The available figure and the classes (R600 … R605) -/

/-- A of R600, mJ. -/
def innA (c : Chip) : Rat := if anyFeed c then ratMax c.learn.eAvail (c.inn.fenced : Rat) else c.learn.eAvail

/-- A is at least F. -/
def aboveFence (c : Chip) : Bool := decide ((c.inn.fenced : Rat) ≤ innA c)

/-- Class `k` is served (R602, R603). -/
def classServed (c : Chip) (k : Nat) : Bool := aboveFence c || decide (((c.inn.eClass.getD k 0 : Nat) : Rat) < innA c)

/-- The classes below C.INN.CLASSES. -/
def classes (c : Chip) : List Nat := List.range (cfg c).inn.classes

/-- The mask of the classes served now. -/
def servedMask (c : Chip) : Nat := ((classes c).map fun k => bitAt k (classServed c k)).foldl (· + ·) 0

/-! ### Beacons (R619 … R624) -/

/-- The payload of a beacon (Table 13.3). -/
def beaconBytes (g : GuestCfg) (n : Fin 8) (start reason : Nat) : List Byte :=
  u16B (g.index + n.val * 1024) ++ u16B (g.slotLen + reason * 1024) ++ u32B start

/-- Hands a beacon of this kind to the controller. -/
def sendBeacon (kind : Nat) (g : GuestCfg) (n : Fin 8) (epoch start reason : Nat) (c : Chip) : Chip :=
  canHand (ownFrame c (cfg c).inn.beaconPrio kind epoch (beaconBytes g n start reason)) c

/-- The planned start as caravan time in slot ticks (R623). -/
def startCaravan (c : Chip) (start : Nat) : Nat :=
  (caravanUs c + (start - c.inn.time) * 250 - (c.inn.time - start) * 250) / 250 % 2 ^ 32

def spurInn (c : Chip) (n : Fin 8) : SpurInn := c.inn.spurs[n]
def setSpurInn (c : Chip) (n : Fin 8) (x : SpurInn) : Chip := { c with inn.spurs := c.inn.spurs.set n x }
def updSpurInn (n : Fin 8) (f : SpurInn → SpurInn) (c : Chip) : Chip := setSpurInn c n (f (spurInn c n))

/-- Replaces the slot that starts at `start`. -/
def updSlot (n : Fin 8) (start : Nat) (f : Slot → Slot) (c : Chip) : Chip :=
  updSpurInn n (fun x => { x with plan := x.plan.map fun s => if s.start == start then f s else s }) c

/-- Sends the cancel beacon of a slot whose provisional beacon is out, with its mirror record (R622, R624). -/
def cancelSlot (n : Fin 8) (s : Slot) (r : Reason) (c : Chip) : Chip :=
  match s.beacon, guestAt c s.pos with
  | some start, some g =>
    let e := s.epoch.getD 0
    let c := sendBeacon 0x12 g.cfg n e start r.code c
    let c := kMirror 6 (u32B e ++ u8B 1 ++ u8B r.code ++ u16B 0) c
    { c with inn.beacons := (c.inn.beacons.1, satInc 65535 c.inn.beacons.2) }
  | _, _ => c

/-! ### Decisions (R637, Table 13.5) -/

/-- The states in which a spur can serve a slot (check 4). -/
def spurServes (s : SpurSt) : Bool :=
  match s with
  | .off | .rampUp | .on | .rampDown => true
  | _ => false

/-- The checks that cancel an announced slot when they come to fail: 1 … 3, and of check 4 the spur and the die. -/
def standingChecks (nvm : Nvm) (c : Chip) (n : Fin 8) (g : Guest) : Option Reason :=
  if shutting c || c.seq.mode == .configure then some .shutdown
  else if (recordOf nvm c g).revoked then some .revoked
  else if (spurInn c n).hold.isSome then some .cut
  else if spurServes c.spurs[n].st && !c.tmp.dieCrit then none
  else some .spur

/-- Checks 1 … 4: a decision also compares the allowance of R419 (check 4, R662). -/
def earlyChecks (nvm : Nvm) (c : Chip) (n : Fin 8) (g : Guest) : Option Reason :=
  match standingChecks nvm c n g with
  | some r => some r
  | none => if ((g.cfg.iMax + houseAllow c n : Nat) : Rat) ≤ spurAllowance c then none else some .spur

/-- The reason of a decision by the checks of Table 13.5 in their order. -/
def decide13 (nvm : Nvm) (c : Chip) (n : Fin 8) (g : Guest) : Reason :=
  match earlyChecks nvm c n g with
  | some r => r
  | none =>
    match roomOf c g.pos with
    | none => .page
    | some room =>
      if c.meas.vBus.precHeld < (g.cfg.vmin : Rat) then .lowSupply
      else if !classServed c g.cfg.cls then .shed
      else if !aboveFence c && decide (room.rcd.oasis < g.cfg.energy) then .noReserve
      else .granted

/-- Cancels the announced slots of a spur that no longer pass their standing checks (R653 … R655); a fall of the allowance
waits for the next decision (R662). They stay in the plan and are withheld with that reason at their final decision. -/
def recheckSpur (nvm : Nvm) (n : Fin 8) (c : Chip) : Chip :=
  (spurInn c n).plan.foldl (fun c s =>
    match s.st, s.beacon, guestAt c s.pos with
    | .planned, some _, some g =>
      match standingChecks nvm c n g with
      | some r => updSlot n s.start (fun x => { x with beacon := none, prov := some r }) (cancelSlot n s r c)
      | none => c
    | _, _, _ => c) c

/-- The same on every spur. -/
def recheckAll (nvm : Nvm) (c : Chip) : Chip := (List.finRange 8).foldl (fun c n => recheckSpur nvm n c) c

/-! ### The plan (R611 … R618) -/

/-- Whether `g` comes before `h` at one planning instant: deadline, CLASS, INDEX (R611). -/
def planBefore (g h : Guest) : Bool :=
  let dg := g.rel * 4000 + gDeadline g.cfg
  let dh := h.rel * 4000 + gDeadline h.cfg
  decide (dg < dh) || (dg == dh && (decide (g.cfg.cls < h.cfg.cls)
    || (g.cfg.cls == h.cfg.cls && decide (g.cfg.index < h.cfg.index))))

/-- The guest that R611 plans next on a spur that is free at `freeAt`, and the start of its slot. -/
def nextPlan (freeAt : Nat) (gs : List Guest) : Option (Guest × Nat) :=
  match gs.map (·.rel) with
  | [] => none
  | r :: rs =>
    let at_ := max freeAt (rs.foldl min r * 4000)
    match gs.filter fun g => decide (g.rel * 4000 ≤ at_) with
    | [] => none
    | g :: more => some (more.foldl (fun b x => if planBefore x b then x else b) g, at_)

/-- The guest's next release follows the planned one. -/
def releaseOn (p : Nat) (gs : List Guest) : List Guest :=
  gs.map fun x => if x.pos == p then { x with rel := x.rel + x.cfg.period } else x

/-- Plans the next slot of a spur (R611). -/
def planOne (n : Fin 8) (c : Chip) : Chip :=
  match nextPlan (spurInn c n).freeAt (spurGuests c n) with
  | none => c
  | some (g, at_) =>
    let slot : Slot := {
      pos := g.pos, start := at_, stop := at_ + g.cfg.slotLen
      latest := g.rel * 4000 + gDeadline g.cfg - g.cfg.slotLen }
    let c := updSpurInn n (fun x => { x with plan := x.plan ++ [slot], freeAt := slot.stop }) c
    { c with inn.guests := releaseOn g.pos c.inn.guests }

/-- The start that R611 will give the next slot not yet planned of the guest at `p`; `fuel` bounds the slots before it. -/
def futureStart (p : Nat) : Nat → Nat → List Guest → Option Nat
  | 0, _, _ => none
  | fuel + 1, freeAt, gs =>
    match nextPlan freeAt gs with
    | none => none
    | some (g, at_) => if g.pos == p then some at_ else futureStart p fuel (at_ + g.cfg.slotLen) (releaseOn g.pos gs)

/-- The run-ahead horizon in ticks: the larger of 5 ms and PROV_LEAD (R618). -/
def horizon (c : Chip) : Nat := max 20 (4 * (cfg c).inn.provLead)

/-- Slots of a spur that have not started. -/
def plannedSlots (x : SpurInn) : List Slot := x.plan.filter fun s => s.st == .planned

/-- Plans ahead as far as pre-arming, its fills and the start of the CAN domain need (R618, R620, R631); `fuel` bounds the
number of slots. -/
def planAhead (n : Fin 8) : Nat → Chip → Chip
  | 0, c => c
  | fuel + 1, c =>
    let x := spurInn c n
    if (spurGuests c n).isEmpty then c
    else if (plannedSlots x).length < 3 || decide (x.freeAt ≤ c.inn.time + 4 * (cfg c).inn.provLead + 41) then
      planAhead n fuel (planOne n c)
    else c

/-- A room pinned by a pre-armed or running slot, or by a slot that waits for its end read. -/
def pinned (c : Chip) (p : Nat) : Bool :=
  (List.finRange 8).any fun n =>
    (spurInn c n).plan.any (fun s => s.pos == p && (s.epoch.isSome || s.st == .running)) || (spurInn c n).ended.any (·.pos == p)

/-- The next planned start of a guest: that of its slot in the plan, or the one the plan will come to (R627). -/
def nextStart (c : Chip) (g : Guest) : Option Nat :=
  let x := spurInn c (leadSpur c (guestSpur g.cfg))
  match (plannedSlots x).find? fun s => s.pos == g.pos with
  | some s => some s.start
  | none =>
    let gs := spurGuests c (leadSpur c (guestSpur g.cfg))
    let span := g.rel * 4000 + gDeadline g.cfg - x.freeAt
    futureStart g.pos ((gs.map fun k => 2 + span / gPeriod k.cfg).foldl (· + ·) 0) x.freeAt gs

/-- The next planned start of a guest that holds a room goes to G.NEXT. -/
def noteNext (nvm : Nvm) (p : Nat) (c : Chip) : Chip :=
  match (roomOf c p).bind fun _ => (guestAt c p).bind (nextStart c) with
  | none => c
  | some s => modRecord nvm false p (fun r => { r with next := s % 2 ^ 32 }) c

/-- Takes the most rooms pinned at once (Table 13.8). -/
def notePinned (c : Chip) : Chip :=
  { c with inn.mostPinned := max c.inn.mostPinned (c.inn.rooms.filter fun r => pinned c r.pos).length }

/-- The planned slots of a spur among the next `k`, or whose start falls within `h` ticks. -/
def slotsAhead (c : Chip) (n : Fin 8) (k h : Nat) : List Slot :=
  ((plannedSlots (spurInn c n)).zipIdx.filter fun p => decide (p.2 < k) || decide (p.1.start ≤ c.inn.time + h)).map (·.1)

/-- The slots that R618 pre-arms and that are neither pre-armed nor withheld for their page yet. -/
def slotsToArm (c : Chip) (n : Fin 8) : List Slot :=
  (slotsAhead c n 2 (horizon c)).filter fun s => s.epoch.isNone && s.prov != some .page

/-- The pre-arm instant of the guest's first slot that is not pre-armed: the horizon before its start, or the start of the
slot two places before it (R618). -/
def armInstant (c : Chip) (p : Nat) : Nat :=
  let at_ (n : Fin 8) : List Nat :=
    let slots := plannedSlots (spurInn c n)
    (slots.zipIdx.filter fun s => s.1.pos == p && s.1.epoch.isNone).map fun s =>
      min (s.1.start - horizon c) (if s.2 < 2 then 0 else (slots.map (·.start)).getD (s.2 - 2) 0)
  match (List.finRange 8).flatMap at_ with
  | [] => 0
  | x :: xs => xs.foldl min x

/-- Asks for the fill of a guest's room: behind the one in progress, in the order of the pre-arm instants (R631). -/
def requestFill (p : Nat) (c : Chip) : Chip :=
  if (roomOf c p).isSome || c.inn.fills.any (fun f => f.1 == p) then c
  else
    let later (f : Nat × Time) : Bool := decide (armInstant c p < armInstant c f.1)
    match c.inn.fills with
    | [] => { c with inn.fills := [(p, c.now)] }
    | f :: fs => { c with inn.fills := f :: fs.takeWhile (fun x => !later x) ++ (p, c.now) :: fs.dropWhile fun x => !later x }

/-- Pre-arms one slot whose record is in a room with an epoch; one without is to be withheld for its page (R618, R636). -/
def prearmSlot (nvm : Nvm) (n : Fin 8) (s : Slot) (c : Chip) : Chip :=
  if (roomOf c s.pos).isNone then updSlot n s.start (fun x => { x with prov := some .page }) c
  else
    let e := (c.inn.epoch + 1) % 2 ^ 32
    let c := updSlot n s.start (fun x => { x with epoch := some e }) { c with inn.epoch := e }
    notePinned (noteNext nvm s.pos c)

/-- Pre-arms the next two planned slots of a spur and every slot that starts within the horizon (R618). Fills are asked for one
slot, or 20 ticks, further ahead (DESIGN CHOICE, log entry 148). -/
def prearmSpur (nvm : Nvm) (n : Fin 8) (c : Chip) : Chip :=
  let c := planAhead n 256 c
  let c := (slotsToArm c n).foldl (fun c s => prearmSlot nvm n s c) c
  (slotsAhead c n 3 (horizon c + 20)).foldl (fun c s => requestFill s.pos c) c

/-- Plans and pre-arms every spur. -/
def prearmAll (nvm : Nvm) (c : Chip) : Chip := (List.finRange 8).foldl (fun c n => prearmSpur nvm n c) c

/-! ### Starting, withholding and stopping slots -/

/-- Records the final decision in LAST_DECISION and the record (R637, Table 13.8). -/
def noteDecision (nvm : Nvm) (g : Guest) (r : Reason) (c : Chip) : Chip :=
  let c := { c with inn.last := (g.cfg.index, r.code, c.inn.time % 65536) }
  match r with
  | .granted => modRecord nvm true g.pos (fun x => { x with grants := (x.grants + 1) % 2 ^ 32, reason := r.code }) c
  | _ =>
    let refund := r == .cut
    let c := { c with inn.withheld := bump 255 r.code c.inn.withheld }
    modRecord nvm true g.pos (fun x =>
      { x with withheld := satInc 65535 x.withheld, reason := r.code
               refunded := if refund then satInc 65535 x.refunded else x.refunded }) c

/-- A slot of the guest runs, or has ended and waits for its end read. -/
def inService (c : Chip) (p : Nat) : Bool :=
  (List.finRange 8).any fun n =>
    (spurInn c n).plan.any (fun s => s.pos == p && s.st == .running) || (spurInn c n).ended.any (·.pos == p)

/-- A write-back that waited for a slot of the guest is made once none of its slots is in service (R659). -/
def settleDue (p : Nat) (c : Chip) : Chip :=
  match roomOf c p with
  | some room => if room.due && !inService c p then writeBack p c else c
  | none => c

/-- Withholds a slot: its place stays, the spur stays off for it (R612, R621). -/
def withhold (nvm : Nvm) (n : Fin 8) (s : Slot) (g : Guest) (r : Reason) (c : Chip) : Chip :=
  let c := cancelSlot n s r c
  let derated := r == .spur && spurServes c.spurs[n].st && !c.tmp.dieCrit
  let c := updSpurInn n (fun x => { x with plan := x.plan.filter (·.start != s.start), derated := derated }) c
  settleDue s.pos (noteNext nvm s.pos (noteDecision nvm g r c))

/-- Grants a slot: the spur is commanded on, its start read requested unless the read at the boundary serves, and the
confirm beacon sent (R621, R429). -/
def grantSlot (nvm : Nvm) (n : Fin 8) (s : Slot) (g : Guest) (boundary : Bool) (c : Chip) : Chip :=
  let balance := !aboveFence c
  let c := updSlot n s.start (fun x => { x with st := .running, balance := balance }) c
  let c := updSpurInn n (fun x => { x with derated := false }) c
  let c := { c with spurs := c.spurs.set n { c.spurs[n] with granted := true } }
  let c := if boundary then c else { c with aux.edges := c.aux.edges ++ [{ spur := n, kind := .start }] }
  let c :=
    match s.beacon with
    | some start =>
      let e := s.epoch.getD 0
      kMirror 6 (u32B e ++ u8B 0 ++ u8B 0 ++ u16B 0) (sendBeacon 0x11 g.cfg n e start 0 c)
    | none => c
  noteNext nvm s.pos (noteDecision nvm g .granted c)

/-- The slot of a spur whose planned start has come; past its latest start it starts no more (R615). -/
def startingSlot (c : Chip) (n : Fin 8) : Option Slot :=
  (spurInn c n).plan.find? fun s => s.st == .planned && decide (s.start ≤ c.inn.time) && decide (c.inn.time ≤ s.latest)

/-- The planned start of a slot that R619 covers has come: until now it kept the CAN domain running (R711). -/
def beaconStart (g : Guest) (c : Chip) : Chip := if g.cfg.beacon && canFitted c then { c with can.frameAt := c.now } else c

/-- The final decision of a slot (R621). A slot withheld at its provisional decision stays withheld (DEDUCED, log entry 99). -/
def finalDecision (nvm : Nvm) (n : Fin 8) (boundary : Bool) (c : Chip) : Chip :=
  match startingSlot c n with
  | none => c
  | some s =>
    match guestAt c s.pos with
    | none => updSpurInn n (fun x => { x with plan := x.plan.filter (·.start != s.start) }) c
    | some g =>
      let r :=
        match s.prov with
        | some .granted | none => decide13 nvm c n g
        | some r => r
      let c := beaconStart g c
      match r with
      | .granted => grantSlot nvm n s g boundary c
      | _ => withhold nvm n s g r c

/-- The running slot of a spur. -/
def runningSlot (c : Chip) (n : Fin 8) : Option Slot := (spurInn c n).plan.find? fun s => s.st == .running

/-- Holds a spur until the end of the spur period in which the cut falls (R642, R644). -/
def holdSpur (nvm : Nvm) (n : Fin 8) (c : Chip) : Chip :=
  match (spurGuests c n).map (·.cfg.period) with
  | [] => c
  | p :: ps =>
    let per := max 1 (ps.foldl min p)
    let inSec := c.inn.time / 4000
    recheckSpur nvm n (updSpurInn n (fun x => { x with hold := some ((inSec / per + 1) * per) }) c)

/-- The running slot of a spur that its own rules stop is refunded (Table 13.6). -/
def refundRunning (n : Fin 8) (c : Chip) : Chip :=
  match runningSlot c n with
  | some s => updSlot n s.start (fun x => { x with refund := true }) c
  | none => c

/-- The charge of an ended slot (R606, Table 13.6) (DEDUCED, log entry 17). -/
def slotCharge (g : GuestCfg) (s : Slot) : Nat :=
  if s.refund then 0
  else match s.revoked with
    | some e => (g.energy * e + g.slotLen - 1) / g.slotLen
    | none => g.energy

/-- Charges an ended slot with `e` mJ metered (R606, R607, R609). -/
def chargeSlot (nvm : Nvm) (n : Fin 8) (s : Slot) (e : Nat) (c : Chip) : Chip :=
  match guestAt c s.pos with
  | none => c
  | some g =>
    let q := slotCharge g.cfg s
    let c := updSpurInn n (fun x => { x with
      charged := x.charged + q, metered := x.metered + e, ends := x.ends + 1
      chargedMetered := if s.refund then x.chargedMetered else x.chargedMetered + e }) c
    let c := { c with learn.slotE := c.learn.slotE + (e : Rat) }
    let c := modRecord nvm true g.pos (fun r => { r with
      tab := (r.tab + q) % 2 ^ 48, metered := (r.metered + e) % 2 ^ 48
      oasis := if s.balance then r.oasis - q else r.oasis
      refunded := if s.refund then satInc 65535 r.refunded else r.refunded }) c
    match roomOf c g.pos with
    | some room => if room.due then writeBack g.pos c else c
    | none => c

/-! ### Figures handed over at an estimator update (R599, R601, R604, R605) -/

/-- The admitted guests of this side in the order of R595, with their records. -/
def guestRecords (nvm : Nvm) (c : Chip) : List (Guest × GuestRec) :=
  (classOrder (ownGuests c)).map fun g => (g, recordOf nvm c g)

/-- Those of them that are not revoked. -/
def liveGuests (nvm : Nvm) (c : Chip) : List (Guest × GuestRec) := (guestRecords nvm c).filter fun p => !p.2.revoked

/-- F (R599). -/
def fencedOf (nvm : Nvm) (c : Chip) : Nat := ((liveGuests nvm c).map fun p => p.2.oasis).foldl (· + ·) 0

/-- Raises the balances below their OASIS while A exceeds F (R601); `left` is the part of A − F not yet used
(DEDUCED, log entry 100). -/
def refillLoop (nvm : Nvm) : List (Guest × GuestRec) → Nat → Chip → Chip
  | [], _, c => c
  | (g, r) :: gs, left, c =>
    let up := min (g.cfg.oasis - r.oasis) left
    if up = 0 then refillLoop nvm gs left c
    else refillLoop nvm gs (left - up) (modRecord nvm true g.pos (fun r => { r with oasis := r.oasis + up }) c)

/-- The class table (R605) and F after the refill, with F.INN_FENCE (R604). The balances of revoked guests are raised and enter
E_c; F and P_c leave those guests out (DEDUCED, log entry 100). -/
def innHandOver (nvm : Nvm) (c : Chip) : Chip :=
  if (ownGuests c).isEmpty then { c with inn := { c.inn with fenced := 0, pClass := [], eClass := [], handed := false } }
  else
    let c := { c with inn.fenced := fencedOf nvm c }
    let extra := natOfRat (innA c - (c.inn.fenced : Rat))
    let c := refillLoop nvm (guestRecords nvm c) extra c
    let live := liveGuests nvm c
    let all := guestRecords nvm c
    let below := decide (c.learn.eAvail < ((fencedOf nvm c : Nat) : Rat))
    let runs (g : Guest) : Bool :=
      match c.spurs[leadSpur c (guestSpur g.cfg)].st with
      | .faultHold | .tiedOff => false
      | _ => true
    let p (k : Nat) : Rat := sumRat ((live.filter fun x => x.1.cfg.cls == k && runs x.1).map fun x =>
      (x.1.cfg.energy : Rat) / (x.1.cfg.period : Rat))
    let e (k : Nat) : Nat := ((all.filter fun x => decide (x.1.cfg.cls < k)).map fun x => x.2.oasis).foldl (· + ·) 0
    let c := setFaultIf (below && !c.inn.below) F.innFence c
    { c with inn := { c.inn with
        fenced := fencedOf nvm c, below := below, handed := true
        pClass := (classes c).map p, eClass := (classes c).map e } }

/-! ### Begin and end of innkeeping -/

/-- Step 6: cellar records are read and the rooms of the resident guests filled (R628 … R630, R635)
(DEDUCED, log entry 101). -/
def fillRooms (nvm : Nvm) (c : Chip) : Chip :=
  let own := ownGuests c
  let paging := decide (64 < own.length)
  let res (g : Guest) : Bool := !paging || decide (gSlack g.cfg < 64)
  let need := 64 * c.img.contracts.length
  let persist := match c.img.map with
    | some m => decide (need ≤ m.cellarLen)
    | none => false
  let c := { c with inn := { c.inn with
    persist := persist, paging := paging, rooms := [], fills := []
    guests := c.inn.guests.map fun g => { g with resident := g.own && res g } } }
  own.foldl (fun c g =>
    let (r, bad) := cellarRead nvm c g
    let c := if bad then { c with inn.restored := (satInc 2047 c.inn.restored.1, c.inn.restored.2) } else c
    let c := setFaultIf (bad && persist) F.innRestored c
    if res g then { c with inn.rooms := c.inn.rooms ++ [{ pos := g.pos, rcd := r, dirty := bad, due := false }] }
    else if bad then (cellarWrite c g.pos r).1
    else c) c

/-- Marks every changed record for write-back and writes those whose slot is neither pre-armed nor running (R633, R659). -/
def periodicWriteBack (c : Chip) : Chip :=
  c.inn.rooms.foldl (fun c r =>
    if !r.dirty then c
    else if pinned c r.pos then
      setRooms c (c.inn.rooms.map fun x => if x.pos == r.pos then { x with due := true } else x)
    else writeBack r.pos c) c

/-- Writes back every changed record (shut-down and power-loss commit, R633). -/
def writeBackAll (c : Chip) : Chip := c.inn.rooms.foldl (fun c r => writeBack r.pos c) c

/-- The rooms that a fill may take: paged ones that hold no pre-armed or running slot (R632). -/
def freeRooms (c : Chip) : List Room :=
  c.inn.rooms.filter fun r => !pinned c r.pos && !((guestAt c r.pos).elim false (·.resident))

/-- Makes a room free: with 64 in use, the one of them whose G.NEXT lies furthest ahead, written back first (R632). None when
every room is pinned or resident. -/
def evict (c : Chip) : Option Chip :=
  let ahead (r : Room) : Nat := (r.rcd.next + 2 ^ 32 - c.inn.time % 2 ^ 32) % 2 ^ 32
  if c.inn.rooms.length < 64 then some c
  else match freeRooms c with
    | [] => none
    | r :: rs =>
      let v := rs.foldl (fun b x => if ahead b < ahead x then x else b) r
      let c := writeBack v.pos c
      some (setRooms c (c.inn.rooms.filter (·.pos != v.pos)))

/-- Places the record of a guest in a room (R632, R635). None when none can be had. -/
def takeRoom (nvm : Nvm) (g : Guest) (c : Chip) : Option Chip :=
  (evict c).map fun c =>
    let (r, bad) := cellarRead (nvm.apply c.spi) c g
    let c := if bad then setFault F.innCellar { c with inn.restored := (c.inn.restored.1, satInc 2047 c.inn.restored.2) } else c
    notePinned (noteNext nvm g.pos (setRooms c (c.inn.rooms ++ [{ pos := g.pos, rcd := r, dirty := bad, due := false }])))

/-- A fill ends (R631, R632, R635). -/
def fillDone (nvm : Nvm) (c : Chip) : Chip :=
  match c.inn.fills with
  | [] => c
  | (p, at_) :: rest =>
    match guestAt c p with
    | none => { c with inn.fills := rest }
    | some g =>
      match takeRoom nvm g c with
      | none => c
      | some c => { c with inn := { c.inn with
          fills := rest, paged := (satInc 65535 c.inn.paged.1, max c.inn.paged.2 (sat 16 ((c.now - at_) / 1000))) } }

/-- Places the records of the slots that a spur pre-arms when planning begins (DEDUCED, log entry 101). -/
def openRooms (nvm : Nvm) (n : Fin 8) (c : Chip) : Chip :=
  (slotsToArm c n).foldl (fun c s =>
    if (roomOf c s.pos).isSome then c else ((guestAt c s.pos).bind fun g => takeRoom nvm g c).getD c) c

/-- Inn time starts, the epoch counter stands at its beginning, and no slot is planned (R594, R625). -/
def innClock (c : Chip) : Chip :=
  { c with inn := { c.inn with
      time := 0, epoch := 0, on := c.inn.guests.any (·.own)
      guests := c.inn.guests.map fun g => { g with rel := g.cfg.phase }
      spurs := c.inn.spurs.map fun x => { x with plan := [], ended := [], freeAt := 0, hold := none } } }

/-- The end of step 8: inn time starts and planning begins, with the records of the first slots in rooms and those slots
pre-armed (R594, R618, R625). -/
def innStart (nvm : Nvm) (c : Chip) : Chip :=
  let c := innClock c
  if !c.inn.on then c
  else
    let c := (List.finRange 8).foldl (fun c n => openRooms nvm n (planAhead n 256 c)) c
    prearmAll nvm (c.inn.rooms.foldl (fun c r => noteNext nvm r.pos c) c)

end Sys2Proof.Machine
end

