-- ==== Sys2Proof/Machine/JournalRec.lean ====
section
/-! DEFINITION. Journal records as the NVM holds them (Table 16.2): slots, marks, the search for the head (R800), and the
gauge block (R522). -/

namespace Sys2Proof.Machine

def markPending : Nat := 0x5AA5
def markCommit : Nat := 0xC33C

/-- Slots of the ring (R796). -/
def journalSlots (m : RegionMap) : Nat := m.journalLen / 64

/-- Address of slot i. -/
def journalAt (m : RegionMap) (i : Nat) : Nat := m.journal + 64 * i

/-- The 64 bytes of slot i. -/
def journalSlot (nvm : Nvm) (m : RegionMap) (i : Nat) : List Byte := nvm.readBytes (journalAt m i) 64

/-- A record is committed (R795). -/
def committedRec (b : List Byte) : Bool := u16At b 62 == markCommit && u16At b 60 == crc16 (slice b 0 60)

/-- A record is torn: its MARK is PENDING (R146, R800). -/
def pendingRec (b : List Byte) : Bool := u16At b 62 == markPending

/-- key(i) of R800. -/
def journalKey (nvm : Nvm) (m : RegionMap) (i : Nat) : Nat :=
  let b := journalSlot nvm m i
  if committedRec b then u32At b 0 else 0

/-- The search of R800; `fuel` bounds its rounds. -/
def headSearch (key : Nat → Nat) (k0 : Nat) : Nat → Nat → Nat → Nat
  | 0, lo, _ => lo
  | fuel + 1, lo, hi =>
    if lo < hi then
      let mid := (lo + hi + 1) / 2
      if k0 ≤ key mid then headSearch key k0 fuel mid hi else headSearch key k0 fuel lo (mid - 1)
    else lo

/-- The head, slot and SEQ, and whether a torn record was found (R800). -/
def findHead (nvm : Nvm) (m : RegionMap) : Option (Nat × Nat) × Bool :=
  let n := journalSlots m
  let lo := headSearch (journalKey nvm m) (journalKey nvm m 0) 32 0 (n - 1)
  let k := journalKey nvm m lo
  if k = 0 then (none, pendingRec (journalSlot nvm m 0))
  else (some (lo, k), pendingRec (journalSlot nvm m ((lo + 1) % n)))

/-- The latest committed record. -/
def latestRecord (nvm : Nvm) (c : Chip) : Option (List Byte) :=
  match c.img.map, c.jrn.head with
  | some m, some (i, _) => some (journalSlot nvm m i)
  | _, _ => none

/-- The sticky words of a record. -/
def recordSticky (b : List Byte) : BitVec 160 := BitVec.ofNat 160 (leNat (slice b 8 20)) &&& maskOf (List.range 159)

/-- IMAGE_SEQ of a record (DEDUCED, log entry 62). -/
def recordFloor (b : List Byte) : Nat := u32At b 4

/-- The gauge block of a record (R522). -/
structure GaugeBlock where
  packId   : List Byte
  z        : Nat
  zSigma   : Nat
  soc      : Nat
  fcc      : Nat
  fccSigma : Nat
  cells    : Nat
  cycles   : Nat
  dsg      : Nat
  time     : Nat
  deriving DecidableEq, Repr

/-- The 32 bytes of a record's gauge block. -/
def recordGauge (b : List Byte) : List Byte := slice b 28 32

/-- The fields of a gauge block; none when it was written without an estimate, all zero (log entry 23). -/
def gaugeBlock (b : List Byte) : Option GaugeBlock :=
  if allZero b then none
  else some {
    packId := slice b 0 8, z := u32At b 8, zSigma := u16At b 12, soc := u16At b 14, fcc := u32At b 16
    fccSigma := u8At b 20, cells := u8At b 21, cycles := u16At b 22, dsg := u32At b 24, time := u32At b 28 }

/-- The gauge block of the latest committed record. -/
def latestBlock (nvm : Nvm) (c : Chip) : Option GaugeBlock := (latestRecord nvm c).bind fun b => gaugeBlock (recordGauge b)

end Sys2Proof.Machine
end

