-- ==== Sys2Proof/Machine/Numerics.lean ====
section
/-! DEFINITION. Logarithms, powers and square roots in fixed point, for the formulas that the spec gives in real numbers
(R233, R444, R453, R459). Each works to 2^−60, far below the resolution in which the result is kept (log entry 22). -/

namespace Sys2Proof.Machine

/-- One in fixed point with 60 fraction bits. -/
def fxOne : Int := 2 ^ 60

/-- A rational in fixed point. -/
def toFx (x : Rat) : Int := roundRat (x * (fxOne : Rat))

/-- A fixed-point number as a rational. -/
def ofFx (x : Int) : Rat := (x : Rat) / (fxOne : Rat)

/-- Product of two fixed-point numbers. -/
def fxMul (a b : Int) : Int := (a * b) / fxOne

/-- ln 2 in fixed point. -/
def fxLn2 : Int := 799144290325165979

/-- Terms y^n / n of the area hyperbolic tangent series, n = 1, 3, 5, …, added to `acc`. -/
def atanhTerms : Nat → Int → Int → Int → Int → Int
  | 0, _, _, _, acc => acc
  | k + 1, y2, p, n, acc => atanhTerms k y2 (fxMul p y2) (n + 2) (acc + p / n)

/-- The natural logarithm of a positive rational, in fixed point. -/
def fxLn (x : Rat) : Int :=
  let e : Int := (Nat.log2 x.num.toNat : Int) - (Nat.log2 x.den : Int)
  let m : Rat := if 0 ≤ e then x / ((2 ^ e.toNat : Nat) : Rat) else x * ((2 ^ (-e).toNat : Nat) : Rat)
  let y := toFx ((m - 1) / (m + 1))
  2 * atanhTerms 30 (fxMul y y) y 1 0 + e * fxLn2

/-- Terms r^n / n! of the exponential series, added to `acc`. -/
def expTerms : Nat → Int → Int → Int → Int → Int
  | 0, _, _, _, acc => acc
  | k + 1, r, p, n, acc => expTerms k r (fxMul p r / n) (n + 1) (acc + p)

/-- 2^x for any rational x, rounded to 60 fraction bits. -/
def pow2 (x : Rat) : Rat :=
  let k := x.floor
  let m := ofFx (expTerms 26 (fxMul (toFx (x - (k : Rat))) fxLn2) fxOne 1 0)
  if 0 ≤ k then m * ((2 ^ k.toNat : Nat) : Rat) else m / ((2 ^ (-k).toNat : Nat) : Rat)

/-- e^−x for x ≥ 0; 0 once x exceeds 64. -/
def expNeg (x : Rat) : Rat := if 64 < x then 0 else pow2 (-(x * (fxOne : Rat) / (fxLn2 : Rat)))

/-- The square root of a non-negative rational, rounded down to 2^−40. -/
def sqrtRat (x : Rat) : Rat := if x ≤ 0 then 0 else (Nat.sqrt ((x * ((2 ^ 80 : Nat) : Rat)).floor.toNat) : Rat) / ((2 ^ 40 : Nat) : Rat)

/-- Rounds to a multiple of 1 / `n`, ties away from zero. -/
def roundTo (n : Nat) (x : Rat) : Rat := (roundRat (x * (n : Rat)) : Rat) / (n : Rat)

end Sys2Proof.Machine
end

