-- ==== Sys2Proof/Machine/Cell.lean ====
section
/-! DEFINITION. The cell model of the gauge (R440 … R445): the active profile with the learned impedance, interpolation,
and the temperature factor. Voltages in V per cell, currents in A, resistances in µΩ per cell. -/

namespace Sys2Proof.Machine

/-- The state-of-charge points z_k (Table 10.1). -/
def zPoints : List Rat := [0, 2, 5, 10, 15, 20, 30, 40, 50, 60, 70, 80, 85, 90, 95, 100].map fun p => p / 100

/-- Interpolates along ascending points; beyond the ends the end values hold. -/
def interp : List (Rat × Rat) → Rat → Rat
  | [], _ => 0
  | [(_, y)], _ => y
  | (x0, y0) :: (x1, y1) :: r, x =>
    if x ≤ x0 then y0
    else if x < x1 ∨ (x = x1 ∧ r = []) then y0 + (y1 - y0) * (x - x0) / (x1 - x0)
    else interp ((x1, y1) :: r) x

/-- The slope of the segment that encloses `x`; at a point that of the segment above it, at the top that below it. -/
def interpSlope : List (Rat × Rat) → Rat → Rat
  | (x0, y0) :: (x1, y1) :: r, x =>
    if x < x1 ∨ r = [] then (y1 - y0) / (x1 - x0) else interpSlope ((x1, y1) :: r) x
  | _, _ => 0

/-- The lower point k of the segment that encloses z (DEDUCED, log entry 71). -/
def segmentOf (z : Rat) : Nat := min 14 (((zPoints.filter fun x => decide (x ≤ z)).length) - 1)

/-- OCV points of the active profile, V. -/
def ocvPoints (c : Chip) : List (Rat × Rat) := zPoints.zip (c.gauge.prof.points.map fun p => (p.ocv : Rat) / 1000)

/-- OCV(z) (R443). -/
def ocvOf (c : Chip) (z : Rat) : Rat := interp (ocvPoints c) z

/-- s(z), V per unit of z (R443). -/
def slopeOf (c : Chip) (z : Rat) : Rat := interpSlope (ocvPoints c) z

/-- OCV⁻¹(v) (R443). -/
def ocvInv (c : Chip) (v : Rat) : Rat := interp ((ocvPoints c).map fun p => (p.2, p.1)) v

/-- Quantity j of a profile point: SER, POL_F, TAU_F, POL_S, TAU_S. -/
def pointQty (p : ProfilePoint) : Nat → Nat
  | 0 => p.ser | 1 => p.polF | 2 => p.tauF | 3 => p.polS | _ => p.tauS

/-- Quantity j at point k: learned where the table holds a value, otherwise from the active profile (R443). -/
def impPoint (c : Chip) (k j : Nat) : Rat :=
  if c.learn.impBits.getLsbD k then (c.learn.imp.getD k []).getD j 0
  else ((c.gauge.prof.points[k]?).elim 0 fun p => ((pointQty p j : Nat) : Rat))

/-- Quantity j interpolated at z, in C.PROFILE units. -/
def impAt (c : Chip) (j : Nat) (z : Rat) : Rat := interp (zPoints.zip ((List.range 16).map fun k => impPoint c k j)) z

def serAt (c : Chip) (z : Rat) : Rat := impAt c 0 z
def polFAt (c : Chip) (z : Rat) : Rat := impAt c 1 z
/-- TAU_F(z), s. -/
def tauFAt (c : Chip) (z : Rat) : Rat := impAt c 2 z / 1000
def polSAt (c : Chip) (z : Rat) : Rat := impAt c 3 z
/-- TAU_S(z), s. -/
def tauSAt (c : Chip) (z : Rat) : Rat := impAt c 4 z / 10

/-- T_PACK in °C, 25 °C while none has been formed since the pack became present (R444). -/
def modelTemp (c : Chip) : Rat := if c.tmp.packFormed then (c.tmp.pack : Rat) / 100 else 25

/-- f_T in 1/256 (R444). -/
def formFT (c : Chip) : Nat := (roundRat (clampRat (1 / 2) 8 (pow2 ((25 - modelTemp c) / 15)) * 256)).toNat

/-- f_T. -/
def fTOf (c : Chip) : Rat := (c.gauge.fT : Rat) / 256

/-- SER(z) × f_T, Ω per cell. -/
def serOhm (c : Chip) (z : Rat) : Rat := serAt c z * fTOf c / 1000000

/-- The anchor window of the active chemistry (R456). -/
def inWindow (c : Chip) (z : Rat) : Bool := c.gauge.chem != 0 || decide (z * 100 < 20) || decide (92 < z * 100)

/-- ∫ OCV from `a` to `b`, exactly over the segments (R501); 0 when b ≤ a. -/
def ocvIntegral : List (Rat × Rat) → Rat → Rat → Rat
  | (x0, y0) :: (x1, y1) :: r, a, b =>
    let lo := ratMax a x0
    let hi := ratMin b x1
    let f (x : Rat) : Rat := y0 + (y1 - y0) * (x - x0) / (x1 - x0)
    (if lo < hi then (f lo + f hi) / 2 * (hi - lo) else 0) + ocvIntegral ((x1, y1) :: r) a b
  | _, _, _ => 0

/-- The energy of the pack from `a` to `b`, mJ (R500). -/
def packEnergy (c : Chip) (a b : Rat) : Rat :=
  ((cfg c).pack.cells : Rat) * c.learn.qFcc * 3600 * ocvIntegral (ocvPoints c) a b

/-! ### Words -/

/-- The words of a channel that end within `(t0, t1]`, newest first. -/
def wordsIn (ch : ModCh) (t0 t1 : Time) : List Sample := ch.precHist.filter fun w => decide (t0 < w.at_) && decide (w.at_ ≤ t1)

def validOf (ws : List Sample) : List Sample := ws.filter fun w => w.status == .valid

/-- Pairs of words of V_PACK and I_P of one word period, newest first, in which both are VALID. -/
def validPairs (c : Chip) (t0 t1 : Time) : List (Sample × Sample) :=
  ((wordsIn c.meas.vPack t0 t1).zip (wordsIn c.meas.iP t0 t1)).filter fun p => p.1.status == .valid && p.2.status == .valid

/-- Pack current of a word, mA, positive on discharge. -/
def packMa (c : Chip) (w : Sample) : Rat := maOf (cfg c).pack.rsns w.value

/-- The mean of V_PACK words as V per cell. -/
def meanCellV (c : Chip) (ws : List Sample) : Rat := meanRat (ws.map (·.value)) / 1000 / ((cfg c).pack.cells : Rat)

/-- The mean pack current of words, mA. -/
def meanPackMa (c : Chip) (ws : List Sample) : Rat := maOf (cfg c).pack.rsns (meanRat (ws.map (·.value)))

/-- The latest VALID V_PACK word, mV. -/
def packMv (c : Chip) : Rat := c.meas.vPack.precHeld

end Sys2Proof.Machine
end

