-- ==== Sys2Proof/Machine/Learn.lean ====
section
/-! DEFINITION. Learning (chapter 11): tag-write events, held anchors and capacity, impedance, and cycles. -/

namespace Sys2Proof.Machine

/-! ### Tag-write events (R523 … R526) -/

/-- A stage belongs to the exchange. -/
def exchanging (s : TagStage) : Bool :=
  match s with
  | .challenge | .header | .response | .verify => true
  | _ => false

/-- A tag-write event: a journal commit is requested; the write is skipped and counted unless the pack is authenticated and
the image carries a C.CERT (R523, R524, R576). During an exchange the event waits (R588). -/
def tagEvent (cause : Nat) (c : Chip) : Chip :=
  let c := requestCommit c
  if (c.tag.verdict = .authenticated ∨ exchanging c.tag.stage = true) ∧ (cfg c).cert ≠ [] then
    { c with tag.due := c.tag.due ||| (1#9 <<< cause) }
  else { c with tag.wSkipped := satInc 127 c.tag.wSkipped, learn.tagAt := c.now }

/-! ### Capacity (R508 … R513) -/

/-- The result codes of Table 11.7 for a pair that yields no measurement; none when it yields one. -/
def pairFault (a b : HeldAnchor) : Option Nat :=
  let cool (x : HeldAnchor) : Bool := decide (1000 ≤ x.tPack) && decide (x.tPack ≤ 4000)
  if absRat (a.z - b.z) * 100 < 40 then some 0x02
  else if !(cool a && cool b) then some 0x03
  else if a.at_ + sec (7 * 86400) < b.at_ ∨ b.at_ + sec (7 * 86400) < a.at_ then some 0x04
  else if a.span ≠ b.span then some 0x05
  else if a.gaps ≠ b.gaps then some 0x06
  else none

/-- Counter units to mAh. -/
def unitsMah (n : Int) : Rat := (n : Rat) / 1048576 / 1000

/-- Q_m and σ_m² of a pair (R511), with σ_m / Q_m squared. -/
def measureCap (old new : HeldAnchor) : Rat × Rat :=
  let dz := new.z - old.z
  (unitsMah (new.n - old.n) / dz, (old.sigma * old.sigma + new.sigma * new.sigma) / (dz * dz) + 1 / 1000000)

/-- Tries to pair a new anchor with the held anchor of the other side (R509 … R513); a measurement discards the older. -/
def pairAnchors (old new : HeldAnchor) (c : Chip) : Chip × Bool :=
  match pairFault old new with
  | some code => ({ c with learn.capResult := code }, false)
  | none =>
    let (qm, rel2) := measureCap old new
    let design := ((cfg c).pack.designCap : Rat)
    let c := { c with learn := { c.learn with lastCap := satR 32 qm, capSigma := satR 16 (sqrtRat rel2 * 10000) } }
    if qm * 2 < design ∨ design * 6 / 5 < qm then (setFault F.capRejected { c with learn.capResult := 0x07 }, true)
    else
      let varM := rel2 * qm * qm
      let k := c.learn.varF / (c.learn.varF + varM)
      let lim := c.learn.qFcc / 10
      let q := c.learn.qFcc + clampRat (-lim) lim (k * (qm - c.learn.qFcc))
      (tagEvent 0x05 { c with learn := { c.learn with
          qFcc := q, varF := (1 - k) * c.learn.varF, learned := true, srcFcc := 3, capResult := 0x01
          capUpdates := satInc 65535 c.learn.capUpdates } }, true)

/-- Learning receives an anchor (R508, R509). With LEARN[0] clear it is not held and the result tells it. -/
def learnAnchor (a : HeldAnchor) (c : Chip) : Chip :=
  if !(cfg c).gauge.learnCap then { c with learn.capResult := 0x08 }
  else if a.z * 2 < 1 then
    let (c, used) := c.learn.high.elim (c, false) fun h => pairAnchors h a c
    { c with learn := { c.learn with low := some a, high := if used then none else c.learn.high } }
  else
    let (c, used) := c.learn.low.elim (c, false) fun l => pairAnchors l a c
    { c with learn := { c.learn with high := some a, low := if used then none else c.learn.low } }

/-- An anchor taken now, with the sample time `t` of its readings. -/
def anchorNow (z sigma : Rat) (full : Bool) (t : Time) (c : Chip) : HeldAnchor :=
  { z := z, sigma := sigma, n := c.gauge.cnt.n, tPack := c.tmp.pack, at_ := t, full := full
    span := c.gauge.cnt.span, gaps := c.gauge.cnt.gaps }

/-! ### Impedance (R514 … R519) -/

/-- The present interpolated value takes the accepted measurement of quantity j at z (R518, R519). -/
def learnQty (j : Nat) (xm z : Rat) (c : Chip) : Chip :=
  let x := impAt c j z
  if xm * 4 < x ∨ 4 * x < xm then
    let n := c.learn.impRej.getD j 0 + 1
    setFaultIf (decide (n = 3)) F.impRejected { c with learn.impRej := updAt c.learn.impRej j fun _ => if n = 3 then 0 else n }
  else
    let xm := clampRat (x / 2) (2 * x) xm
    let k := segmentOf z
    let zk := zPoints.getD k 0
    let zk1 := zPoints.getD (k + 1) 1
    let wk := (zk1 - z) / (zk1 - zk)
    let row (c : Chip) (i : Nat) : List Rat := (List.range 5).map fun q => impPoint c i q
    let put (i : Nat) (w : Rat) (c : Chip) : Chip :=
      let r := updAt (row c i) j fun v => v + w / 8 * (xm - v)
      { c with learn := { c.learn with
          imp := updAt c.learn.imp i fun _ => r, impBits := c.learn.impBits ||| (1#16 <<< i) } }
    let c := put (k + 1) (1 - wk) (put k wk c)
    { c with learn := { c.learn with
        impRej := updAt c.learn.impRej j fun _ => 0, impUpdates := satInc 65535 c.learn.impUpdates } }

/-- Abandons the phase in progress (R517). -/
def impAbandon (c : Chip) : Chip := { c with learn.impRun := none }

/-- The conditions of R514 that hold before the step. -/
def impReady (c : Chip) : Bool :=
  (cfg c).gauge.learnImp && c.gauge.formed && !inLimp c && c.gauge.gov.st == .full && c.tmp.packFormed
    && decide (1000 ≤ c.tmp.pack) && decide (c.tmp.pack ≤ 4000)
    && decide (2 ≤ c.gauge.z * 100) && decide (c.gauge.z * 100 ≤ 98)

/-- The oldest VALID fast word of the last 1 ms from which the newest differs by the step of R514. -/
def stepFrom (c : Chip) (w : Sample) : Option Sample :=
  let lim := c.learn.qFcc / 5
  (c.meas.iP.fastHist.filter fun o => o.status == .valid && decide (o.at_ < w.at_) && decide (w.at_ ≤ o.at_ + ms 1)
    && decide (lim ≤ absRat (packMa c w - packMa c o))).getLast?

/-- A step begins: its reference values come from the 16 precise words before it (R514, R541). -/
def impStep (w : Sample) (c : Chip) : Chip :=
  let fresh := c.learn.impRun.elim true fun r => decide (r.at_ + ms 1 < c.now)
  match stepFrom c w with
  | none => c
  | some o =>
    if !fresh then c
    else
      let c := impAbandon c
      let ws := (wordsIn c.meas.iP 0 o.at_).take 16
      let vs := (wordsIn c.meas.vPack 0 o.at_).take 16
      if impReady c && ws.length == 16 && vs.length == 16 && ws.all (·.status == .valid) && vs.all (·.status == .valid) then
        let i0 := meanPackMa c ws
        let dev := ws.foldl (fun m x => ratMax m (absRat (packMa c x - i0))) 0
        { c with learn.impRun := some {
            at_ := c.now, i0 := i0, dev := dev, v0 := meanCellV c vs, z := c.gauge.z, n := c.gauge.cnt.n, words := []
            i1 := none, serM := none, polFM := none, tauFM := none, phase := 0, last4 := [], track := [] } }
      else c

/-- −Δv / (ΔI × f_T) of the latest four words, µΩ (R515). -/
def impRatio (c : Chip) (r : ImpRun) (i1 : Rat) : Rat :=
  let dq := -unitsMah (c.gauge.cnt.n - r.n)
  let dv := meanRat (r.last4.map (·.2)) - r.v0 + slopeOf c r.z * dq / c.learn.qFcc
  dv / ((r.i0 - i1) / 1000 * fTOf c) * 1000000

/-- A pair of precise words of I_P and V_PACK reaches the measurement in progress (R514 … R517). From word 5 on
the current stays within 2 % of |ΔI| of I_1. -/
def impWord (w : Sample) (c : Chip) : Chip :=
  match c.learn.impRun with
  | none => c
  | some r =>
    if w.status != .valid || c.meas.vPack.prec.status != .valid then impAbandon c
    else
      let i := packMa c w
      let v := packMv c / 1000 / ((cfg c).pack.cells : Rat)
      let ws := if r.words.length < 8 then r.words ++ [i] else r.words
      let r := { r with words := ws, last4 := ((i, v) :: r.last4).take 4 }
      let i1 := if ws.length = 8 then some (meanRat (ws.drop 4)) else none
      match i1 with
      | none => { c with learn.impRun := some r }
      | some i1 =>
        let di := absRat (i1 - r.i0)
        if di < r.dev * 50 ∨ (i :: ws.drop 4).any (fun x => decide (di < absRat (x - i1) * 50)) ∨ di = 0 then impAbandon c
        else
          { c with learn.impRun := some { r with i1 := some i1, track := (c.now - r.at_, impRatio c r i1) :: r.track } }

/-- The first time of the track, oldest first, at which `f` of it reaches `lim`. -/
def firstReach (track : List (Nat × Rat)) (f : Nat → Rat → Rat) (lim : Rat) : Option Nat :=
  ((track.reverse).find? fun p => decide (lim ≤ f p.1 p.2)).map (·.1)

/-- Nanoseconds as seconds. -/
def nsSec (t : Nat) : Rat := (t : Rat) / 1000000000

/-- IMP_LAST after a phase. -/
def noteImp (phase : Nat) (r : ImpRun) (i1 : Rat) (c : Chip) : Chip :=
  { c with learn.impLast := (phase, segmentOf r.z, satR 16 (absRat (i1 - r.i0) / 100)) }

/-- The end of the present phase (Table 11.1). -/
def impPhaseEnd (c : Chip) : Chip :=
  match c.learn.impRun with
  | none => c
  | some r =>
    match r.i1 with
    | none => c
    | some i1 =>
      let t := c.now - r.at_
      let x := impRatio c r i1
      match r.phase, r.serM, r.polFM with
      | 0, _, _ =>
        let ser := (r.track.getLast?).elim x (·.2)
        noteImp 1 r i1 (learnQty 0 ser r.z { c with learn.impRun := some { r with phase := 1, serM := some ser } })
      | 1, some ser, _ =>
        if nsSec t < 5 * tauFAt c r.z then c
        else
          let slow (d : Nat) : Rat := polSAt c r.z * (1 - expNeg (nsSec d / tauSAt c r.z))
          let polF := x - ser - slow t
          let tau := (firstReach r.track (fun d y => y - ser - slow d) (polF * 632 / 1000)).map fun d => nsSec d * 1000
          let c := learnQty 1 polF r.z { c with learn.impRun := some { r with phase := 2, polFM := some polF, tauFM := tau } }
          noteImp 2 r i1 (tau.elim c fun v => learnQty 2 v r.z c)
      | 2, some ser, some polF =>
        if nsSec t < 3 * tauSAt c r.z then c
        else
          let tauF := (r.tauFM.getD (tauFAt c r.z * 1000)) / 1000
          let polS := (x - ser - polF) * 10000 / 9502
          let fast (d : Nat) : Rat := if tauF = 0 then polF else polF * (1 - expNeg (nsSec d / tauF))
          let tau := (firstReach r.track (fun d y => y - ser - fast d) (polS * 632 / 1000)).map fun d => nsSec d * 10
          let c := learnQty 3 polS r.z (impAbandon c)
          noteImp 3 r i1 (tau.elim c fun v => learnQty 4 v r.z c)
      | _, _, _ => c

/-! ### Cycles (R520) -/

/-- Charge counted out of the pack, mAh, reaches the discharge accumulator; before the first estimate of the pack it is kept
for the sum that the estimate chooses. -/
def countCycle (mah : Rat) (c : Chip) : Chip :=
  if mah ≤ 0 then c
  else
    let c := if c.gauge.formed || c.seq.mode == .limp then c else { c with learn.dsgNew := c.learn.dsgNew + mah }
    let d := c.learn.dsg + mah
    let lim := c.learn.qFcc * 9 / 10
    if lim ≤ d ∧ 0 < lim then { c with learn := { c.learn with dsg := d - lim, cycles := satInc 65535 c.learn.cycles } }
    else { c with learn.dsg := d }

/-! ### The learned payload (R521) -/

/-- The 200 bytes of a learned payload. -/
def learnedPayload (cause seq : Nat) (c : Chip) : List Byte :=
  let l := c.learn
  let sigma := sqrtRat c.gauge.p.zz
  let fccSigma := if l.qFcc = 0 then 0 else sqrtRat l.varF / l.qFcc * 10000
  let point (k : Nat) : List Byte := (List.range 5).flatMap fun j => u16B (satR 16 (impPoint c k j))
  u8B 1 ++ u8B cause ++ u16B (bitAt 0 l.learned + bitAt 1 (l.impBits != 0)) ++ u32B seq ++ u32B (writeTime c)
    ++ u32B (satR 32 (c.gauge.z * 100000)) ++ u16B (satR 16 (sigma * 100000)) ++ u16B (satR 16 fccSigma)
    ++ u32B (satR 32 l.qFcc) ++ u16B l.cycles ++ u16B l.impBits.toNat ++ u32B (satR 32 l.dsg)
    ++ u16B l.capUpdates ++ u16B l.impUpdates ++ u32B 0 ++ (List.range 16).flatMap point

/-- A payload that may be adopted: FORMAT, CAUSE and the reserved bytes (R521, Table 11.3; log entry 24). -/
def payloadOk (p : List Byte) : Bool :=
  u8At p 0 == 1 && decide (1 ≤ u8At p 1) && decide (u8At p 1 ≤ 8) && allZero (slice p 36 4)

end Sys2Proof.Machine
end

