-- ==== Sys2Proof/Machine/Estimate.lean ====
section
/-! DEFINITION. The blended estimator and the anchors (chapter 10): prediction, voltage updates, outliers, the noise
adapter, rest, and the first estimate of a pack with the choice between stored copies (R458 … R476, R527, R528). -/

namespace Sys2Proof.Machine

/-! ### Fixed point (R466, Table 10.5) -/

/-- A positive power of two or its inverse. -/
def twoPow (k : Int) : Rat := if 0 ≤ k then ((2 ^ k.toNat : Nat) : Rat) else 1 / ((2 ^ (-k).toNat : Nat) : Rat)

/-- ⌊log₂ |x|⌋ of a value other than zero. -/
def floorLog2 (x : Rat) : Int :=
  let e : Int := (Nat.log2 x.num.natAbs : Int) - (Nat.log2 x.den : Int)
  if absRat x < twoPow e then e - 1 else e

/-- Rounds to a mantissa of 24 bits. -/
def mant24 (x : Rat) : Rat :=
  if x = 0 then 0
  else
    let k := 23 - floorLog2 x
    (roundRat (x * twoPow k) : Rat) / twoPow k

/-- A product of covariance, noise or gain (Table 10.5). -/
def mulP (a b : Rat) : Rat := mant24 (a * b)

/-- A difference of z to 2^−30. -/
def stepZ (x : Rat) : Rat := roundTo (2 ^ 30) x

/-- z to 2^−30, held to 0 … 1. -/
def roundZ (x : Rat) : Rat := stepZ (clampRat 0 1 x)

/-- A voltage to 2^−24 V. -/
def roundU (x : Rat) : Rat := roundTo (2 ^ 24) x

def roundCov (p : Cov) : Cov :=
  { zz := mant24 p.zz, zf := mant24 p.zf, zs := mant24 p.zs, ff := mant24 p.ff, fs := mant24 p.fs, ss := mant24 p.ss }

/-- e^(−Δt/τ) to 2^−24; 0 for a time constant of 0. -/
def decay (dt tau : Rat) : Rat := if tau = 0 then 0 else roundTo (2 ^ 24) (expNeg (dt / tau))

/-- The variance of u_F and u_S at a first estimate and a re-seed, V². -/
def uVar : Rat := 4 / 10000

/-! ### Prediction (R459, R448) -/

/-- Charge counted out of the pack since the last update, mAh. -/
def dqOut (c : Chip) : Rat := -unitsMah (c.gauge.cnt.n - c.gauge.updN)

/-- z moved by counted charge (the first line of R459). -/
def countZ (z dq fcc : Rat) : Rat := roundZ (z - stepZ (qdiv dq fcc))

/-- Offset current of the process noise, A (R459). -/
def iOff (c : Chip) : Rat :=
  1 / (2 * ((cfg c).pack.rsns : Rat))
    + (if c.gauge.gov.st = .full then 0 else ((cfg c).gauge.quiet : Rat) / 1000)

/-- The prediction over the interval since the last update. -/
def predict (c : Chip) : Chip :=
  let dt := nsSec (c.now - c.gauge.updAt)
  let q := dqOut c
  let fcc := c.learn.qFcc
  let i := if dt = 0 then 0 else q * 3600 / 1000 / dt
  let z := countZ c.gauge.z q fcc
  let g := { c.gauge with fT := formFT c }
  let c := { c with gauge := g }
  let aF := decay dt (tauFAt c z)
  let aS := decay dt (tauSAt c z)
  let f := fTOf c / 1000000
  let share (amp : Rat) : Rat := mant24 (amp * 1000 * dt / 3600 / fcc)
  let relax (a u pol : Rat) : Rat := roundU (a * u) + roundU ((1 - a) * roundU (i * (pol * f)))
  let qz := share (absRat i / 1000 + iOff c)
  let gap := if c.gauge.cnt.gap then
      share ((absRat (maOf (cfg c).pack.rsns c.meas.iP.precHeld) + ((cfg c).gauge.quiet : Rat)) / 1000) else 0
  let p := g.p
  { c with gauge := { g with
      z := z, uF := relax aF g.uF (polFAt c z), uS := relax aS g.uS (polSAt c z), voltUsed := false
      p := roundCov {
        zz := p.zz + mulP g.alpha (mulP qz qz) + mulP gap gap, zf := mulP p.zf aF, zs := mulP p.zs aS
        ff := mulP (mulP p.ff aF) aF + mant24 (dt / 4000000), fs := mulP (mulP p.fs aF) aS
        ss := mulP (mulP p.ss aS) aS + mant24 (dt / 25000000) } } }

/-! ### Measurement updates (R460 … R465) -/

/-- P Hᵀ for H = [s, −1, −1]. -/
def covH (p : Cov) (s : Rat) : Rat × Rat × Rat :=
  (mulP p.zz s - p.zf - p.zs, mulP p.zf s - p.ff - p.fs, mulP p.zs s - p.fs - p.ss)

/-- H P Hᵀ. -/
def hph (p : Cov) (s : Rat) : Rat := let h := covH p s; mulP h.1 s - h.2.1 - h.2.2

/-- ν of a voltage `y`, V per cell, at a current of `i` mA. -/
def innovation (c : Chip) (y i : Rat) : Rat :=
  roundU y - (roundU (ocvOf c c.gauge.z) - roundU (i / 1000 * serOhm c c.gauge.z) - c.gauge.uF - c.gauge.uS)

/-- Applies an innovation with measurement noise `rn` (R461); a cross term is the mean of the two that the product yields. -/
def kalman (nu rn : Rat) (c : Chip) : Chip :=
  let p := c.gauge.p
  let s := slopeOf c c.gauge.z
  let h := covH p s
  let sv := hph p s + rn
  let kz := mant24 (h.1 / sv)
  let kf := mant24 (h.2.1 / sv)
  let ks := mant24 (h.2.2 / sv)
  { c with gauge := { c.gauge with
      z := roundZ (c.gauge.z + stepZ (kz * nu)), uF := c.gauge.uF + roundU (kf * nu), uS := c.gauge.uS + roundU (ks * nu)
      nu := nu, skipped := false, voltUsed := true
      p := roundCov {
        zz := p.zz - mulP kz h.1, ff := p.ff - mulP kf h.2.1, ss := p.ss - mulP ks h.2.2
        zf := p.zf - (mulP kz h.2.1 + mulP kf h.1) / 2, zs := p.zs - (mulP kz h.2.2 + mulP ks h.1) / 2
        fs := p.fs - (mulP kf h.2.2 + mulP ks h.2.1) / 2 } } }

/-- R_0, R_MIN and R_MAX (R464), V². -/
def rStart : Rat := 25 / 1000000
def rMin : Rat := 1 / 1000000
def rMax : Rat := 2500 / 1000000

/-- The noise adapter after an applied voltage update (R464): `hp` is H P⁻ Hᵀ and `s` the innovation variance. -/
def adaptNoise (nu hp s : Rat) (c : Chip) : Chip :=
  let g := c.gauge
  let r := mant24 (clampRat rMin rMax (g.r + (mulP nu nu - hp - g.r) / 32))
  let sum := g.appliedSum + mant24 (mulP nu nu / s)
  if 16 ≤ g.applied + 1 then
    let m := sum / 16
    let alpha := if 4 < m then ratMin (2 * g.alpha) 16 else if m < 1 / 2 then ratMax (g.alpha / 2) 1 else g.alpha
    { c with gauge := { g with r := r, alpha := alpha, applied := 0, appliedSum := 0 } }
  else { c with gauge := { g with r := r, applied := g.applied + 1, appliedSum := sum } }

/-- The re-seed after 8 consecutive outliers (R463). -/
def reseed (c : Chip) : Chip :=
  setFault F.diverged { c with gauge := { c.gauge with
    p := { zz := ratMax c.gauge.p.zz (1 / 100), ff := uVar, ss := uVar }, r := rStart, alpha := 1, outliers := 0
    applied := 0, appliedSum := 0, exempt := true, counts := bump 255 2 c.gauge.counts } }

/-- The sixteen latest pairs of VALID words of the interval (R460). -/
def lastPairs (c : Chip) : List (Sample × Sample) := (validPairs c c.gauge.updAt c.now).take 16

/-- The conditions of R460 on z, the temperature, the words and the current. -/
def voltageReady (c : Chip) (ps : List (Sample × Sample)) : Bool :=
  inWindow c c.gauge.z && c.tmp.packFormed && decide (-1000 ≤ c.tmp.pack) && ps.length == 16
    && decide (absRat (meanPackMa c (ps.map (·.2))) * 2 ≤ c.learn.qFcc)

/-- The ordinary voltage update with its outlier test (R460 … R464). -/
def voltageUpdate (c : Chip) : Chip :=
  let ps := lastPairs c
  if !voltageReady c ps then c
  else
    let nu := innovation c (meanCellV c (ps.map (·.1))) (meanPackMa c (ps.map (·.2)))
    let hp := hph c.gauge.p (slopeOf c c.gauge.z)
    let s := hp + c.gauge.r
    if !c.gauge.exempt && decide (25 * s < mulP nu nu) then
      let n := c.gauge.outliers + 1
      let c := { c with gauge := { c.gauge with
        nu := nu, skipped := true, outliers := n, counts := bump 255 1 c.gauge.counts } }
      if 8 ≤ n then reseed c else c
    else adaptNoise nu hp s (kalman nu c.gauge.r { c with gauge := { c.gauge with exempt := false, outliers := 0 } })

/-- √R_A at a pack voltage of `v` V per cell (R465). -/
def anchorSigma (c : Chip) (v : Rat) : Rat := v / 2000 + 2 / 1000 / ((cfg c).pack.cells : Rat)

/-- Applies the anchor that waits and hands it to learning (R457, R465, R508). -/
def applyAnchor (c : Chip) : Chip :=
  match c.gauge.anchor with
  | none => c
  | some a =>
    let z0 := c.gauge.z
    let sg := anchorSigma c a.v
    let c := kalman (innovation c a.v a.i) (mulP sg sg) c
    let c := { c with gauge := { c.gauge with anchor := none, anchorUsed := true } }
    let c := setFaultIf (decide (1 / 10 < absRat (c.gauge.z - z0))) F.anchorJump c
    learnAnchor a.held c

/-- z as the declaration of end of charge sets it (R468). -/
def fullZ (c : Chip) : Chip :=
  { c with gauge := { c.gauge with z := 1, p := { c.gauge.p with zz := 25 / 1000000, zf := 0, zs := 0 } } }

/-- An anchor in the update of which end of charge was declared: the declaration comes second, so z ends at 1 and the full
anchor stands on the high side (R484, R536). -/
def applyAnchorBeside (c : Chip) : Chip :=
  let d := fullZ (applyAnchor c)
  if c.learn.high.elim false (·.full) then { d with learn.high := c.learn.high } else d

/-- One pass of R459 … R464. An anchor takes the place of the ordinary voltage update. -/
def estimatorPass (c : Chip) : Chip :=
  let c := predict c
  let c := if c.gauge.anchor.isNone then voltageUpdate c else if c.gauge.eocNow then applyAnchorBeside c else applyAnchor c
  { c with gauge.eocNow := false }

/-! ### Rest and anchors (R453 … R456) -/

/-- t_rest, s (R453). -/
def restTime (c : Chip) : Rat :=
  1200 * (c.gauge.prof.restScale : Rat) / 16 * clampRat (1 / 2) 8 (pow2 ((25 - modelTemp c) / 10))

/-- The 1 s mean |I_P| of R453, mA; none without a VALID word in FULL. -/
def secondMean (c : Chip) : Option Rat :=
  if c.gauge.gov.st = .full then
    match validOf (wordsIn c.meas.iP (c.now - sec 1) c.now) with
    | [] => none
    | ws => some (absRat (meanPackMa c ws))
  else some (absRat c.gauge.gov.iSec)

/-- A second of the rest test (R453, R454) (DEDUCED, log entry 74). -/
def restSecond (c : Chip) : Chip :=
  if c.now < c.gauge.restAt + sec 1 then c
  else
    let c := { c with gauge.restAt := c.now }
    let c := if c.gauge.gAt.elim true fun t => decide (t + minutes 1 ≤ c.now) then
        { c with gauge := { c.gauge with gAt := some c.now, tRest := restTime c } } else c
    match secondMean c with
    | none => c
    | some i =>
      if i < ((cfg c).gauge.rest : Rat) then
        let s := satInc (65535 * 60) c.gauge.qualS
        let c := { c with gauge.qualS := s }
        if c.gauge.tRest ≤ (s : Rat) ∧ c.gauge.rest = false then
          { c with gauge := { c.gauge with rest := true, restFrom := c.now, anchorAt := c.now } }
        else c
      else { c with gauge := { c.gauge with rest := false, qualS := 0 } }

/-- The bounds of the anchor window: the latest 1 s, or the latest on-window (R455). -/
def anchorSpan (c : Chip) : Time × Time :=
  if c.gauge.gov.st = .full then (c.now - sec 1, c.now) else (c.gauge.gov.winStart, c.gauge.gov.winEnd)

/-- Words of one window, newest first, hold a restart of the precise path (R487): in FULL a SETTLE word, in an on-window one
that comes after the SETTLE words with which it begins. -/
def restartInside (full : Bool) (ws : List Sample) : Bool :=
  let settle (w : Sample) : Bool := w.status == .settle
  if full then ws.any settle else (ws.reverse.dropWhile settle).any settle

/-- The words of the window when it qualifies: 16 VALID words each, every VALID I_P word below REST, and no restart of
the precise path inside it (R455, R487). -/
def anchorWords (c : Chip) : Option (List Sample × List Sample) :=
  let (a, b) := anchorSpan c
  let vs := wordsIn c.meas.vPack a b
  let is := wordsIn c.meas.iP a b
  let full := c.gauge.gov.st == .full
  let settle := restartInside full vs || restartInside full is
  let v := validOf vs
  let i := validOf is
  if decide (16 ≤ v.length) && decide (16 ≤ i.length) && !settle
      && i.all (fun w => decide (absRat (packMa c w) < ((cfg c).gauge.rest : Rat))) then some (v, i) else none

/-- An anchor falls due (R455, R456, R490). -/
def anchorDue (c : Chip) : Chip :=
  if !(c.gauge.rest && c.gauge.formed && c.prs.present && !inLimp c && decide (c.gauge.anchorAt ≤ c.now)) then c
  else match anchorWords c with
    | none => c
    | some (vs, is) =>
      let c := { c with gauge := { c.gauge with anchorAt := c.now + minutes 30, fT := formFT c } }
      let v := meanCellV c vs
      let i := meanPackMa c is
      let zA := ocvInv c (v + i / 1000 * serOhm c c.gauge.z + c.gauge.uF + c.gauge.uS)
      let ok := c.tmp.packFormed && c.tmp.packSrc != 5 && decide (0 ≤ c.tmp.pack) && decide (c.tmp.pack ≤ 5000)
        && inWindow c zA
      if ok then
        { c with gauge := { c.gauge with
            zA := zA, anchorUsed := false, anchorTime := sampleUs c / 1000000 % 2 ^ 32
            anchor := some {
              v := v, i := i, held := anchorNow zA (anchorSigma c v / slopeOf c zA) false (anchorSpan c).2 c }
            counts := bump 65535 0 c.gauge.counts } }
      else c

/-! ### The first estimate (R441, R472 … R476, R528, R848) -/

/-- The fields of a profile body keep the ranges of Table 3.14 and the rising-OCV rule of Table 3.20. -/
def profileOk (body : List Byte) : Bool :=
  (rangeFault { tag := 0x0320, off := 0, body := body }).isNone
    && strictlyRising ((decodeProfile body).points.map (·.ocv))

/-- The pack is authenticated. -/
def authentic (c : Chip) : Bool := c.tag.verdict == .authenticated

/-- The active profile is chosen (R441). -/
def chooseProfile (c : Chip) : Chip :=
  let own : Chip := match (cfg c).profile with
    | some p => { c with gauge := { c.gauge with prof := p, profSrc := .image, chem := (cfg c).pack.chem } }
    | none =>
      let p := (cfg c).pack
      { c with gauge := { c.gauge with prof := romProfile p.chem p.designCap, profSrc := .rom, chem := p.chem } }
  let fromTag (p : Profile) : Chip :=
    { c with gauge := { c.gauge with prof := p, profSrc := .tag, chem := u8At c.tag.header 5 } }
  if !authentic c then own
  else if c.tag.profSkip then (cfg c).profile.elim own fromTag
  else match c.tag.profile with
    | some b => if profileOk b then fromTag (decodeProfile b) else setFault F.profileBad own
    | none => setFaultIf c.tag.profBad F.profileBad own

/-- A record candidate (R474). -/
structure Candidate where
  fromTag : Bool
  z       : Rat
  sigma   : Rat
  time    : Nat
  ageS    : Nat
  soc     : Rat

/-- The age of a record in seconds: 30 days when it cannot be known (R474) (DEDUCED, log entry 75). -/
def recordAge (c : Chip) (time : Nat) : Nat :=
  if c.ret.cvSet && time != 0 && decide (time ≤ caravanSec c) then caravanSec c - time else 30 * 86400

/-- The learned payload of the adopted tag record (R521, R569). -/
def tagPayload (c : Chip) : Option (List Byte) := c.tag.record.map fun r => slice r.2 0 200

/-- The gauge block of the present estimate; in LIMP that of R477 (R522). -/
def stateBlock (c : Chip) : List Byte :=
  let fcc := if inLimp c then c.gauge.limpFcc else c.learn.qFcc
  let sigma := qdiv (sqrtRat c.learn.varF) fcc * 1000
  (if authentic c then slice c.tag.header 8 8 else List.replicate 8 0)
    ++ u32B (satR 32 (c.gauge.z * 100000)) ++ u16B (satR 16 (sqrtRat c.gauge.p.zz * 100000))
    ++ u16B (satR 16 (c.learn.soc * 10000)) ++ u32B (satR 32 fcc) ++ u8B (satR 8 sigma)
    ++ u8B (if inLimp c then c.seq.limpCells else (cfg c).pack.cells) ++ u16B c.learn.cycles
    ++ u32B (satR 32 c.learn.dsg) ++ u32B (writeTime c)

/-- A record older than 180 days is not eligible (R474). -/
def youngEnough (ageS : Nat) : Bool := decide (ageS ≤ 180 * 86400)

/-- The journal's gauge block, when it is eligible for this pack (R474). -/
def journalBlock (nvm : Nvm) (c : Chip) : Option GaugeBlock :=
  (latestBlock nvm c).bind fun b =>
    if !youngEnough (recordAge c b.time) then none
    else if authentic c then (if b.packId = slice c.tag.header 8 8 then some b else none)
    else if c.ret.packKept then some b else none

/-- The eligible candidates, the newer first, the journal record first of equals (R474). -/
def candidates (nvm : Nvm) (c : Chip) : List Candidate :=
  let j := (journalBlock nvm c).toList.map fun b =>
    ({ fromTag := false, z := (b.z : Rat) / 100000, sigma := (b.zSigma : Rat) / 100000, time := b.time
       ageS := recordAge c b.time, soc := (b.soc : Rat) / 10000 } : Candidate)
  let t := (if authentic c && c.tag.trusted then (tagPayload c).toList else []).map fun p =>
    ({ fromTag := true, z := (u32At p 12 : Rat) / 100000, sigma := (u16At p 16 : Rat) / 100000, time := u32At p 8
       ageS := recordAge c (u32At p 8), soc := 0 } : Candidate)
  match (j ++ t).filter (fun x => youngEnough x.ageS) with
  | [a, b] => if b.ageS < a.ageS ∨ (b.ageS = a.ageS ∧ a.time < b.time) then [b, a] else [a, b]
  | xs => xs

/-- A candidate aged and tested (R475, R476): z0 and P0, none when it is rejected. -/
def tryCandidate (c : Chip) (v0 zV : Rat) (sV : Option Rat) (x : Candidate) : Option (Rat × Rat) :=
  let days := (x.ageS : Rat) / 86400
  let zr := x.z - 2 / 1000 * ((x.ageS : Rat) / 3600) / c.learn.qFcc
  let sj2 := x.sigma * x.sigma + (days / 1000) * (days / 1000)
  if 60 / 1000 < absRat (v0 - ocvOf c zr) then none
  else match sV with
    | none => some (zr, sj2)
    | some s =>
      let d := zV - zr
      if 9 * (sj2 + s * s) < d * d then none
      else
        let k := sj2 / (sj2 + s * s)
        some (zr + k * d, (1 - k) * sj2)

/-- The first candidate that passes, with each rejection noted (R474). -/
def chooseCandidate (c : Chip) (v0 zV : Rat) (sV : Option Rat) : List Candidate → Chip → Option (Candidate × Rat × Rat) × Chip
  | [], d => (none, d)
  | x :: xs, d =>
    match tryCandidate c v0 zV sV x with
    | some (z0, p0) => (some (x, z0, p0), d)
    | none => chooseCandidate c v0 zV sV xs (setFault F.recordRejected d)

/-- Q_FCC with σ_F, its source (Table 11.4) and WRITE_TIME, from the newer source that passes the plausibility test. -/
def chooseFcc (nvm : Nvm) (c : Chip) : Chip :=
  let design := ((cfg c).pack.designCap : Rat)
  let t := (if authentic c && c.tag.trusted then (tagPayload c).toList else []).map fun p =>
    (1, u32At p 8, (u32At p 20 : Rat), (u16At p 18 : Rat) / 10000, (BitVec.ofNat 16 (u16At p 2)).getLsbD 0)
  let j := (journalBlock nvm c).toList.map fun b =>
    (2, b.time, (b.fcc : Rat), (b.fccSigma : Rat) / 1000,
      decide ((b.fccSigma : Rat) / 1000 * (b.fcc : Rat) < design / 10))
  let ordered := match t, j with
    | [a], [b] => if a.2.1 < b.2.1 then [b, a] else [a, b]
    | xs, ys => xs ++ ys
  match ordered.find? fun x => decide (design ≤ x.2.2.1 * 2) && decide (x.2.2.1 * 5 ≤ design * 6) with
  | some (src, time, q, rel, learned) =>
    { c with learn := { c.learn with
        qFcc := q, varF := (rel * q) * (rel * q), srcFcc := src, recordTime := time, learned := learned } }
  | none =>
    { c with learn := { c.learn with
        qFcc := design, varF := design * design / 100, srcFcc := 0, recordTime := 0, learned := false } }

/-- Point k of a payload's impedance table. -/
def payloadPoint (p : List Byte) (k : Nat) : List Nat := (List.range 5).map fun j => u16At p (40 + 10 * k + 2 * j)

/-- The impedance points that are adopted (Table 11.4). -/
def chooseImp (c : Chip) : Chip :=
  let p := (if authentic c && c.tag.trusted then tagPayload c else none)
  let ok (b : List Byte) (k : Nat) : Bool :=
    let r := payloadPoint b k
    (u16At b 26).testBit k && decide (1 ≤ r.getD 0 0) && decide (1 ≤ r.getD 2 0) && decide (1 ≤ r.getD 4 0)
  let ks := p.elim [] fun b => (List.range 16).filter (ok b)
  { c with learn := { c.learn with
      imp := (List.range 16).map fun k =>
        if ks.contains k then (payloadPoint (p.getD []) k).map (fun (v : Nat) => ((v : Nat) : Rat)) else [0, 0, 0, 0, 0]
      impBits := ks.foldl (fun m k => m ||| (1#16 <<< k)) 0
      srcBits := (if ks.isEmpty then 0 else 1) ||| (if c.tag.record.isSome && c.tag.trusted then 2 else 0)
        ||| (if c.tag.record.isSome && !c.tag.trusted then 4 else 0) } }

/-- CYCLES and DSG_ACC (Table 11.4), with the charge counted before the estimate (R520). -/
def chooseCycles (nvm : Nvm) (c : Chip) : Chip :=
  let t := ((if authentic c then tagPayload c else none).toList).map fun p => (1, u16At p 24, u32At p 28)
  let j := (journalBlock nvm c).toList.map fun b => (2, b.cycles, b.dsg)
  let best := (t ++ j).foldl (fun (a : Nat × Nat × Nat) b =>
    if a.2.1 < b.2.1 ∨ (a.2.1 = b.2.1 ∧ a.2.2 < b.2.2) ∨ a.1 = 0 then b else a) (0, 0, 0)
  let d := countCycle c.learn.dsgNew { c with learn := { c.learn with
    cycles := best.2.1, dsg := (best.2.2 : Rat), srcCyc := best.1 } }
  { d with learn.dsgNew := 0 }

/-- The first estimate is due: the verdict (and adoption) is in and 64 VALID words of V_PACK have arrived (R472, R473). -/
def firstReady (c : Chip) : Bool :=
  c.gauge.wanted && !c.gauge.formed && c.prs.present && decide (64 ≤ c.gauge.v0n) && !inLimp c

/-- σ_V of R476, none outside the anchor window. -/
def sigmaV (c : Chip) (v zV : Rat) : Option Rat :=
  if inWindow c zV then some (ratMax (2 / 100) ((anchorSigma c v + 10 / 1000) / slopeOf c zV)) else none

/-- The estimator starts from z0 and P0 (R476). -/
def startEstimator (z0 p0 : Rat) (c : Chip) : Chip :=
  { c with
    ret.packKept := true
    gauge := { c.gauge with
      formed := true, wanted := false, z := roundZ (z0 + qdiv (unitsMah c.gauge.cnt.n) c.learn.qFcc), uF := 0, uS := 0
      p := roundCov { zz := p0, ff := uVar, ss := uVar }, r := rStart, alpha := 1, outliers := 0, exempt := false
      applied := 0, appliedSum := 0, nu := 0, skipped := false, voltUsed := false, updAt := c.now, updN := c.gauge.cnt.n
      z0 := satR 17 (clampRat 0 1 z0 * 100000), anchor := none } }

/-- The first estimate without its reported figures: the source code, and the SOC_R that R498 takes from a record. -/
def firstEstimateCore (nvm : Nvm) (c : Chip) : Chip × Option Rat :=
  let c := chooseCycles nvm (chooseImp (chooseFcc nvm (chooseProfile c)))
  let c := { c with gauge.fT := formFT c }
  let n := (c.gauge.v0n : Rat)
  let v := c.gauge.v0V / n / 1000 / ((cfg c).pack.cells : Rat)
  let i := c.gauge.v0I / n / 1000
  let v0 := v + i * serOhm c (ocvInv c v)
  let zV := ocvInv c v0
  let sV := sigmaV c v zV
  let (got, c) := chooseCandidate c v0 zV sV (candidates nvm c) c
  match got with
  | some (x, z0, p0) =>
    let src := if sV.isSome then (if x.fromTag then 5 else 4) else (if x.fromTag then 2 else 1)
    let c := startEstimator z0 p0 { c with gauge := { c.gauge with source := src, ageDays := min 255 (x.ageS / 86400) } }
    (c, if !x.fromTag && decide (x.ageS ≤ 3600) then some x.soc else none)
  | none =>
    let s := sV.getD (1 / 4)
    (startEstimator zV (s * s) { c with gauge := { c.gauge with source := 3, ageDays := 0 } }, none)

end Sys2Proof.Machine
end

