-- ==== Sys2Proof/Machine/Report.lean ====
section
/-! DEFINITION. The reported figures (R493 … R507): the empty point, the reported state of charge, capacities and
energies, time-to-empty and time-to-full, and what an update hands over. -/

namespace Sys2Proof.Machine

/-- No time-to-empty or time-to-full (R506, R507). -/
def noTime : Nat := 0xFFFFFFFF

/-- Whole seconds, saturating (R507). -/
def holdTime (x : Rat) : Nat := min 0xFFFFFFFE (roundRat x).toNat

/-! ### Empty point and state of charge (R493 … R499) -/

/-- The planned pack current, A (R493) (DEDUCED, log entry 102). -/
def planCurrent (c : Chip) : Rat := qdiv (c.learn.pBase + c.learn.pPlan) (packMv c)

/-- z_E (R493). -/
def emptyPoint (c : Chip) : Rat :=
  let vs : Rat := ((cfg c).pack.vShut : Rat) / 1000
  let z0 := ocvInv c vs
  ocvInv c (vs + planCurrent c * (polFAt c z0 + polSAt c z0) * fTOf c / 1000000)

/-- S (R494). -/
def targetSoc (c : Chip) : Rat := clampRat 0 1 (qdiv (c.gauge.z - c.learn.zE) (1 - c.learn.zE))

/-- z_E and S at this update. -/
def formTarget (c : Chip) : Chip :=
  let c := { c with learn.zE := emptyPoint c }
  { c with learn.target := targetSoc c }

/-- The floor and the ceiling (R496). -/
def socFloor (c : Chip) : Rat := if c.gauge.eod || c.learn.floorFree then 0 else 1 / 100
def socCeil (c : Chip) : Rat := if c.learn.ceilFree then 1 else 99 / 100

/-- The reported SOC_R: the internal value to 0.01 % (R499). -/
def socReported (x : Rat) : Rat := roundTo 10000 x

/-- SOC_R takes a value; reported at 95 % or below it ends what an end of charge holds back (R354, R499). -/
def setSoc (x : Rat) (c : Chip) : Chip :=
  { c with learn.soc := x, chg.eoc := c.chg.eoc && decide (95 / 100 < socReported x) }

/-- The move of SOC_R by `q` mAh counted in over `dt` ns (R495 … R497). -/
def moveSoc (q : Rat) (dt : Nat) (c : Chip) : Chip :=
  if c.gauge.eod then setSoc 0 { c with learn := { c.learn with spread := false, held := true } }
  else
    let old := c.learn.soc
    let count := old + qdiv q (c.learn.qFcc * (1 - c.learn.zE))
    let lim := ((cfg c).gauge.conv : Rat) / 1000 * nsSec dt / 60
    let want := c.learn.target - count
    let s := count + clampRat (-lim) lim want
    let s := if q < 0 then ratMin s old else if 0 < q then ratMax s old else s
    let r := roundTo (2 ^ 24) (clampRat (socFloor c) (socCeil c) s)
    setSoc r { c with learn := { c.learn with
        spread := decide (lim < absRat want)
        held := decide (s < socFloor c) || decide (socCeil c < s)
        ceilFree := c.learn.ceilFree && decide (99 / 100 < r), floorFree := c.learn.floorFree && decide (r < 1 / 100) } }

/-! ### Capacity and energy (R500 … R502) -/

/-- FCC_R, RM, E_REM, E_AVAIL and SOH. -/
def formFigures (c : Chip) : Chip :=
  let l := c.learn
  let z := c.gauge.z
  let fcc := l.qFcc * (1 - l.zE)
  let zL := ratMax l.zE (z - 2 * sqrtRat c.gauge.p.zz)
  { c with learn := { l with
      fccR := fcc, rm := l.soc * fcc, eRem := packEnergy c l.zE z, eAvail := packEnergy c l.zE zL
      soh := satR 16 (l.qFcc * 10000 / ((cfg c).pack.designCap : Rat)) } }

/-! ### Time-to-empty (R503 … R505) -/

/-- P_BASE, mW, and whether it comes from the fallback (R503). -/
def basePower (c : Chip) : Rat × Bool :=
  if 3600 ≤ c.learn.parkedE.length then (meanRat c.learn.parkedE, false)
  else (packMv c * 82 / 1000000 + meanRat c.learn.idleE, true)

/-- The sum of P_c over some classes. -/
def classPower (c : Chip) (ks : List Nat) : Rat := sumRat (ks.map fun k => c.inn.pClass.getD k 0)

/-- E_c. -/
def classEnergy (c : Chip) (k : Nat) : Rat := ((c.inn.eClass.getD k 0 : Nat) : Rat)

/-- The loop of R504: the time of the first pass and the whole time; `fuel` exceeds the number of thresholds. -/
def tteLoop (c : Chip) : Nat → Rat → Rat → List Nat → Option Rat → Option Rat × Rat
  | 0, _, t, _, first => (first, t)
  | fuel + 1, e, t, served, first =>
    if e ≤ 0 then (first, t)
    else
      let next := ((served.map (classEnergy c)).filter fun x => decide (x < e)).foldl ratMax 0
      let t := t + qdiv (e - next) (c.learn.pBase + classPower c served)
      tteLoop c fuel next t (served.filter fun k => decide (classEnergy c k < next)) (some (first.getD t))

/-- TTE, TTE_SHED, P_PLAN and TTE_FLAGS (R504 … R507, R540). -/
def formTte (c : Chip) : Chip :=
  let (pb, fallback) := basePower c
  let c := { c with learn.pBase := pb }
  let parked := c.seq.mode == .coupled || c.seq.mode == .depot
  let plan := c.inn.handed && !inLimp c
  let served := if plan then (classes c).filter (classServed c) else []
  let mask := (served.map fun k => bitAt k true).foldl (· + ·) 0
  let flags := bitAt 0 parked + bitAt 1 fallback + bitAt 2 (!plan) + 8 * mask
  let start := (classes c).filter fun k => decide (classEnergy c k < c.learn.eAvail)
  let (first, total) := tteLoop c 10 c.learn.eAvail 0 start none
  let (tte, shed) :=
    if c.gauge.eod then (0, 0) else if !plan then (noTime, noTime) else (holdTime total, holdTime (first.getD 0))
  { c with learn := { c.learn with tte := tte, tteShed := shed, pPlan := classPower c served, tteFlags := flags } }

/-- TTF (R506). -/
def formTtf (c : Chip) : Chip :=
  let i := meanRat c.learn.chgI
  let n : Rat := ((180 - c.gauge.eocN : Nat) : Rat)
  { c with learn.ttf :=
      if c.pack.st = .charge ∧ 50 ≤ i then holdTime (c.learn.qFcc * (1 - c.gauge.z) / i * 3600 + n) else noTime }

/-! ### The share weight (R362) -/

def shareWeight (c : Chip) : Rat :=
  let p := (cfg c).pair
  clampRat (1 / 4) 2 (1 + (p.wSoc : Rat) / 128 * (socReported c.learn.soc * 2 - 1)
    - (p.wTemp : Rat) / 128 * (ratMax 0 ((c.tmp.packHi : Rat) / 100 - 35) / 20))

/-! ### An update -/

/-- Everything an update forms and hands over once SOC_R has moved. -/
def handOver (nvm : Nvm) (c : Chip) : Chip :=
  let c := innHandOver nvm (formFigures c)
  let c := formTtf (formTte c)
  sendSummary { c with share.w := shareWeight c }

/-- The update's figures after the estimator's pass; `q` mAh were counted in over `dt` ns. -/
def report (nvm : Nvm) (q : Rat) (dt : Nat) (c : Chip) : Chip := handOver nvm (moveSoc q dt (formTarget c))

/-- The reported figures of a first estimate (R498). -/
def firstReport (nvm : Nvm) (kept : Option Rat) (c : Chip) : Chip :=
  let c := formTarget c
  handOver nvm (setSoc (roundTo (2 ^ 24) (kept.getD c.learn.target)) c)

/-- The figures of LIMP that follow z (R531). -/
def limpFigures (c : Chip) : Chip :=
  let z := c.gauge.z
  { c with learn := { c.learn with soc := z, fccR := c.gauge.limpFcc, rm := z * c.gauge.limpFcc } }

/-- In LIMP charge counted out of the pack, mAh, moves z at once (R477, the first line of R459). -/
def limpCount (mah : Rat) (c : Chip) : Chip :=
  if c.seq.mode = .limp then limpFigures { c with gauge.z := clampRat 0 1 (c.gauge.z - qdiv mah c.gauge.limpFcc) } else c

/-- The figures of LIMP at its update (R477, R531). -/
def limpReport (c : Chip) : Chip :=
  let c := limpFigures { c with gauge := { c.gauge with updAt := c.now, updN := c.gauge.cnt.n } }
  { c with learn := { c.learn with tte := noTime, tteShed := noTime, ttf := noTime, tteFlags := 4 } }

end Sys2Proof.Machine
end

