-- ==== Sys2Proof/Machine/Temp.lean ====
section
/-! DEFINITION. Temperature (chapter 6): the conversion of samples, slew check and recovery, presence through the
thermistors, substitution, the effective temperatures, the indications, the rate governor and the isothermal check.
Temperatures are in hundredths of a degree. -/

namespace Sys2Proof.Machine

/-! ### Sensors -/

def tsSensor (c : Chip) : TsId → Sensor
  | .ts1 => c.tmp.ts1
  | .ts2 => c.tmp.ts2
  | .ts3 => c.tmp.ts3

def setTs (k : TsId) (x : Sensor) (c : Chip) : Chip :=
  match k with
  | .ts1 => { c with tmp.ts1 := x }
  | .ts2 => { c with tmp.ts2 := x }
  | .ts3 => { c with tmp.ts3 := x }

/-- Auxiliary channel of a TS pin (Table 5.4). -/
def tsChan : TsId → Nat
  | .ts1 => 16 | .ts2 => 17 | .ts3 => 18

/-- k of the fault bits. -/
def tsNumber : TsId → Nat
  | .ts1 => 1 | .ts2 => 2 | .ts3 => 3

/-- TS1 is always fitted (R67); C.BOARD declares TS2 and TS3 (R66). -/
def tsFitted (c : Chip) : TsId → Bool
  | .ts1 => true
  | .ts2 => fitted c 3
  | .ts3 => fitted c 4

/-- An auxiliary channel. -/
def auxCh (c : Chip) (i : Nat) : AuxCh := c.aux.ch.getD i {}
def updAux (i : Nat) (f : AuxCh → AuxCh) (c : Chip) : Chip := { c with aux.ch := updAt c.aux.ch i f }

/-- The temperature of a thermistor from the VALID ratio `r` (R233). -/
def ntcTemp (r : Rat) : Int :=
  if r ≤ 0 then Config.ntcAtZero
  else
    let inv : Rat := 20 / 5963 + ofFx (fxLn (r / (1 - r))) / 3435
    roundRat ((1 / inv - 5463 / 20) * 100)

/-- The ratio of a TS code in FULL or LOW range. -/
def tsRatio (low : Bool) (code : Nat) : Rat := (code : Rat) / (if low then 262144 else 65536)

/-- The temperature of a die code with DIE_OFFSET subtracted (R184). -/
def dieTemp (c : Chip) (code : Nat) : Int := (code : Int) - 27315 - (cfg c).cal.dieOffset * 10

/-! ### Slew check and recovery (R243, R244, R270) -/

/-- The step allowed to a thermistor over `dt` ns, hundredths (R243). -/
def tsStep (dt : Nat) : Rat := 300 + 200 * (dt : Rat) / 1000000000

/-- The step allowed to the die diode over `dt` ns, hundredths (R243). -/
def dieStep (dt : Nat) : Rat := 1000 + 2000 * (dt : Rat) / 1000000000

/-- The two readings differ by no more than `lim`. -/
def near (a b : Int) (lim : Rat) : Bool := decide (absRat ((a - b : Int) : Rat) ≤ lim)

/-- Counts an implausible sample; the third within 10 s fails the sensor (R244). -/
def oddSample (now : Time) (s : Sensor) : Sensor :=
  let odd := pushTime (sec 10) now s.odd
  { s with odd := odd, failedSlew := s.failedSlew || decide (3 ≤ odd.length) }

/-- Takes a reading. -/
def takeReading (now : Time) (t : Int) (s : Sensor) : Sensor := { s with temp := t, at_ := now, formed := true }

/-- A VALID thermistor sample: the recovery run while the sensor is failed for OPEN, SHORT or slew, otherwise the slew
check against the previous reading. -/
def tsValid (now : Time) (t : Int) (s0 : Sensor) : Sensor :=
  let s := { s0 with run := s0.run + 1, shorts := 0 }
  if s.failedWire || s.failedSlew then
    if s.recov = 0 || near t s.recovTemp (tsStep (now - s.recovAt)) then
      if 10 ≤ s.recov + 1 then
        takeReading now t { s with failedWire := false, failedSlew := false, recov := 0, odd := [] }
      else { s with recov := s.recov + 1, recovTemp := t, recovAt := now }
    else { oddSample now s with recov := 0 }
  else if s.formed && !near t s.temp (tsStep (now - s.at_)) then oddSample now s
  else takeReading now t s

/-- A sample that is not VALID breaks every run (R234). -/
def tsBroken (s : Sensor) : Sensor := { s with run := 0, recov := 0, shorts := 0 }

/-! ### Presence (R237 … R242) -/

/-- PK_ID is active (Table 2.3, R578, R592). -/
def tagActive (c : Chip) : Bool := running c && !inLimp c && c.tag.pinOff.isNone

/-- What the tag has said since TS1's first OPEN. While PK_ID is inactive no tag can answer, so it counts as silent
(DESIGN CHOICE, log entry 124). -/
def tagVoice (c : Chip) : Option Bool := if c.prs.tagSaid.isNone && !tagActive c then some false else c.prs.tagSaid

/-- The pack becomes present. -/
def declarePresent (c : Chip) : Chip :=
  { c with
    prs := { c.prs with present := true, removed := false }
    tmp := { c.tmp with packFormed := false } }

/-- The pack is declared removed: pack temperatures are held (R268). -/
def declareRemoved (c : Chip) : Chip :=
  { c with
    prs := { c.prs with present := false, byTherm := false, removed := true, verdict := none, ts2Opens := 0
                        removals := satInc 65535 c.prs.removals }
    tmp := { c.tmp with packFormed := false, packSrc := 5 } }

/-- TS1 (or another thermistor) is failed for OPEN with its bit. -/
def failOpen (k : TsId) (c : Chip) : Chip :=
  setFault (F.tsOpen (tsNumber k)) (setTs k { tsSensor c k with failedWire := true, wireShort := false, recov := 0 } c)

def failShort (k : TsId) (c : Chip) : Chip :=
  setFault (F.tsShort (tsNumber k)) (setTs k { tsSensor c k with failedWire := true, wireShort := true, recov := 0 } c)

/-- What a verdict of Table 6.3 comes to: pending, the pack stays, or it is removed. -/
inductive PresenceOutcome | pending | stays | removed
  deriving DecidableEq, Repr

/-- The verdict of Table 6.3 once its inputs are there. -/
def judgePresence (c : Chip) : PresenceOutcome × Chip :=
  match c.prs.verdict with
  | none => (.pending, c)
  | some v =>
    if v.ts2Left ≠ 0 then (.pending, c)
    else if v.ts2.getLast? = some .valid then (.stays, failOpen .ts1 { c with prs.verdict := none })
    else match tagVoice c with
      | none => (.pending, c)
      | some false => (.removed, declareRemoved { c with prs.verdict := none })
      | some true =>
        let c := failOpen .ts1 { c with prs.verdict := none }
        let c := if v.ts2 = [.opn, .opn] then failOpen .ts2 c else c
        (.stays, if v.ts2 = [.short, .short] then failShort .ts2 c else c)

/-- Presence by thermistor from the VALID runs (R237). -/
def presentByTherm (c : Chip) : Bool :=
  decide (2 ≤ c.tmp.ts1.run) || (sensorFailed c.tmp.ts1 && tsFitted c .ts2 && decide (2 ≤ c.tmp.ts2.run))

/-- A verdict of Table 6.3 begins; TS2's next two conversions decide its row (R240). -/
def startVerdict (c : Chip) : Chip :=
  { c with prs.verdict := some { ts2Left := if tsFitted c .ts2 then 2 else 0, ts2 := [] } }

/-- What an OPEN on TS1 brings about: the first closes the charge window and starts the tag probe (R239), the second starts
the verdict on a present pack (R240); an absent one is declared present under R237 alone (R242). -/
def ts1Open (opens : Nat) (c : Chip) : Chip :=
  if opens = 1 then
    { c with
      tmp.openHold := true, tag.ts1Probe := tagActive c
      prs := { c.prs with singleOpen := true, tagSaid := if c.prs.verdict.isSome then c.prs.tagSaid else none } }
  else
    let c := { c with prs.singleOpen := false }
    if opens = 2 && c.prs.present && c.prs.verdict.isNone then startVerdict c else c

/-- A VALID sample on TS1 restores the window unless a verdict is pending, and counts a single OPEN before it (R241). -/
def ts1Valid (c : Chip) : Chip :=
  let c := if c.prs.verdict.isNone then { c with tmp.openHold := false } else c
  if c.prs.singleOpen then { c with prs := { c.prs with singleOpen := false, singles := satInc 255 c.prs.singles } } else c

/-- A conversion of TS2 counts towards a pending verdict (R240). -/
def ts2Counts (st : Status) (c : Chip) : Chip :=
  match c.prs.verdict with
  | some v => if v.ts2Left = 0 then c
    else { c with prs.verdict := some { v with ts2Left := v.ts2Left - 1, ts2 := v.ts2 ++ [st] } }
  | none => c

/-- The consecutive OPENs of TS2 and TS3 that R846 counts, with this sample. -/
def countOpens (k : TsId) (st : Status) (pendingBefore : Bool) (c : Chip) : Chip :=
  match k with
  | .ts1 => c
  | .ts2 => { c with prs.ts2Opens := if st == .opn && c.prs.present && !pendingBefore then c.prs.ts2Opens + 1 else 0 }
  | .ts3 => { c with prs.ts3Opens := if st == .opn then c.prs.ts3Opens + 1 else 0 }

/-- A SHORT is the second in a row, or one more of a sensor that no judgement has failed for it yet, as when its second fell
within a verdict that set no bit (Tables 6.3, 6.8). -/
def shortFails (s : Sensor) : Bool := s.shorts == 2 || (decide (2 < s.shorts) && !(s.failedWire && s.wireShort))

/-- OPEN and SHORT judgements of TS2 and TS3, and SHORT of TS1 (R846, Table 6.8). -/
def judgeWire (k : TsId) (st : Status) (pendingBefore : Bool) (c : Chip) : Chip :=
  let c := countOpens k st pendingBefore c
  match st with
  | .opn =>
    match k with
    | .ts1 => c
    | .ts2 => if c.prs.ts2Opens = 2 then failOpen .ts2 c else c
    | .ts3 => if c.prs.ts3Opens = 2 then failOpen .ts3 c else c
  | .short => if shortFails (tsSensor c k) && !(k == .ts2 && pendingBefore) then failShort k c else c
  | _ => c

/-- A TS sample of this status reaches the temperature block; `ratio` is that of a VALID one. `opens` counts the
consecutive OPENs with this one. -/
def tsSample (k : TsId) (st : Status) (ratio : Rat) (opens : Nat) (c : Chip) : Chip :=
  let pendingBefore := c.prs.verdict.isSome
  let slewBefore := (tsSensor c k).failedSlew
  let c :=
    match st with
    | .valid => setTs k (tsValid (auxCh c (tsChan k)).stamp (ntcTemp ratio) (tsSensor c k)) c
    | .short => let s := tsSensor c k; setTs k { tsBroken s with shorts := s.shorts + 1 } c
    | .settle => c
    | _ => setTs k (tsBroken (tsSensor c k)) c
  let c := setFaultIf (!slewBefore && (tsSensor c k).failedSlew) F.tempSlew c
  let c := if k = .ts2 && pendingBefore then ts2Counts st c else c
  let c := judgeWire k st pendingBefore c
  let c := if k = .ts1 then (match st with
    | .opn => ts1Open opens c
    | .valid => ts1Valid c
    | _ => c) else c
  { c with prs.byTherm := presentByTherm c }

/-! ### Die diode (R228 … R232, R243, R244) -/

/-- Index of the nearest die limit and the proximity, hundredths (R228). -/
def dieProximity (c : Chip) : Nat × Nat :=
  let d (lim : Int) : Nat := (c.tmp.die.temp - lim * 100).natAbs
  let a := d (cfg c).temp.spurDerate
  let b := d (cfg c).temp.dieHigh
  let e := d 150
  if a ≤ b ∧ a ≤ e then (0, a) else if b ≤ e then (1, b) else (2, e)

/-- The rate of Table 6.2 for a proximity. -/
def rateFor (prox : Nat) : Nat := if 1000 < prox then 0 else if 300 < prox then 1 else if 100 < prox then 2 else 3

/-- The upper edge of the band of a rate, hundredths. -/
def bandTop : Nat → Nat
  | 1 => 1000
  | 2 => 300
  | _ => 100

/-- The governor after a die conversion (R230). -/
def dieRate (c : Chip) : Chip :=
  let prox := (dieProximity c).2
  let want := rateFor prox
  if c.tmp.rate < want then { c with tmp := { c.tmp with rate := want, rateLow := 0 } }
  else if 0 < c.tmp.rate && decide (bandTop c.tmp.rate + 100 < prox) then
    if 3 ≤ c.tmp.rateLow then { c with tmp := { c.tmp with rate := c.tmp.rate - 1, rateLow := 0 } }
    else { c with tmp.rateLow := c.tmp.rateLow + 1 }
  else { c with tmp.rateLow := 0 }

/-- The interval between die conversions (R229, R232). -/
def dieInterval (c : Chip) : Time :=
  if sensorFailed c.tmp.die then sec 1
  else match c.tmp.rate with
    | 0 => sec 1
    | 1 => ms 100
    | 2 => ms 10
    | _ => ms 1

/-- A die sample: VALID with its code, or OVER, which is implausible (R243). -/
def dieSample (st : Status) (code : Nat) (c : Chip) : Chip :=
  let c := { c with tmp.dieAt := some c.now }
  let s := c.tmp.die
  let t := dieTemp c code
  let at_ := (auxCh c 19).stamp
  match st with
  | .valid =>
    if sensorFailed s then { c with tmp.die := takeReading at_ t s }
    else if t < -6000 || 18000 < t || (s.formed && !near t s.temp (dieStep (at_ - s.at_))) then
      let s' := oddSample at_ s
      let c := { c with tmp.die := s' }
      if s'.failedSlew then setFault F.dieSensor (setFault F.tempSlew c) else c
    else dieRate { c with tmp.die := takeReading at_ t s }
  | .overRange =>
    if sensorFailed s then c
    else
      let s' := oddSample at_ s
      let c := { c with tmp.die := s' }
      if s'.failedSlew then setFault F.dieSensor (setFault F.tempSlew c) else c
  | _ => c

/-! ### Substitution and effective temperatures (R226, R250, R251) -/

/-- A thermistor serves with its own readings. -/
def tsServes (c : Chip) (k : TsId) : Bool := tsFitted c k && !sensorFailed (tsSensor c k) && (tsSensor c k).formed

/-- The latest sample of an auxiliary channel is VALID. -/
def lastValid (c : Chip) (k : Nat) : Bool := (auxCh c k).validAt == (auxCh c k).at_

/-- It is available as a substitute: its latest sample is VALID besides. -/
def tsSub (c : Chip) (k : TsId) : Bool := tsServes c k && lastValid c (tsChan k)

def dieServes (c : Chip) : Bool := !sensorFailed c.tmp.die && c.tmp.die.formed
def dieSub (c : Chip) : Bool := dieServes c && lastValid c 19

/-- The partner's die reading is no older than 2 s; none in LIMP (R246, R259). -/
def partnerFresh (c : Chip) : Bool := !inLimp c && c.tmp.partnerAt.elim false fun t => decide (c.now ≤ t + sec 2)

/-- What stands for the pack thermistor `k`, with its source: its own reading once it has one, and while it is failed the
first available substitute of Table 6.4, the other pack thermistor first. -/
def packStand (c : Chip) (k other : TsId) : Option (Int × Nat) :=
  let s := tsSensor c k
  if !sensorFailed s then (if s.formed then some (s.temp, tsNumber k) else none)
  else if tsSub c other then some ((tsSensor c other).temp, tsNumber other)
  else if tsSub c .ts3 then some (c.tmp.ts3.temp, 3)
  else if dieSub c then some (c.tmp.die.temp, 4)
  else none

/-- The pack readings: hi, lo, mean and source, none when they are held (R226, R250, R251). Of two different sources the
substitute's is reported. -/
def packReadings (c : Chip) : Option (Int × Int × Int × Nat) :=
  let one (x : Int × Nat) : Int × Int × Int × Nat := (x.1, x.1, x.1, x.2)
  if !c.prs.present then none
  else if !tsFitted c .ts2 then (packStand c .ts1 .ts2).map fun x => one (x.1, if x.2 = 1 then 0 else x.2)
  else match packStand c .ts1 .ts2, packStand c .ts2 .ts1 with
    | some (a, i), some (b, j) =>
      some (max a b, min a b, roundRat (((a + b : Int) : Rat) / 2), if i = 1 ∧ j = 2 then 0 else max i j)
    | some x, none => if sensorFailed c.tmp.ts2 then none else some (one x)
    | none, some x => if sensorFailed c.tmp.ts1 then none else some (one x)
    | none, none => none

/-- Forms the pack temperatures. -/
def formPack (c : Chip) : Chip :=
  match packReadings c with
  | some (hi, lo, mean, src) =>
    { c with tmp := { c.tmp with packHi := hi, packLo := lo, pack := mean, packSrc := src, packFormed := true } }
  | none => { c with tmp.packSrc := 5 }

/-- The auxiliary channel behind a source 1 … 4 of the pack temperatures. -/
def sourceChan (src : Nat) : Nat := if src = 4 then 19 else 15 + src

/-- T_PACK_HI is available as a substitute: it is formed, and the sensor behind it is VALID now (R250). -/
def packHiSub (c : Chip) : Bool :=
  let stands := packStand c .ts1 .ts2 :: (if tsFitted c .ts2 then [packStand c .ts2 .ts1] else [])
  c.prs.present && c.tmp.packFormed && c.tmp.packSrc != 5
    && stands.any fun o => o.elim false fun x => x.1 == c.tmp.packHi && lastValid c (sourceChan x.2)

/-- Forms T_DIE (Table 6.4). -/
def formDie (c : Chip) : Chip :=
  let set (t : Int) (src : Nat) : Chip := { c with tmp := { c.tmp with dieEff := t, dieSrc := src } }
  if !sensorFailed c.tmp.die then (if c.tmp.die.formed then set c.tmp.die.temp 0 else c)
  else if tsSub c .ts3 then set (c.tmp.ts3.temp + 1500) 3
  else if partnerFresh c && !c.tmp.partnerX then set (c.tmp.partner + 1500) 6
  else if packHiSub c then set (c.tmp.packHi + 2500) 7
  else { c with tmp.dieSrc := 15 }

/-- Forms T_BOARD (Table 6.4). While T_PACK_HI is not available, T_DIE alone stands for it (DESIGN CHOICE, log entry 123). -/
def formBoard (c : Chip) : Chip :=
  if tsServes c .ts3 then { c with tmp := { c.tmp with board := c.tmp.ts3.temp, boardSrc := 0 } }
  else if tsFitted c .ts3 && !sensorFailed c.tmp.ts3 then c
  else { c with tmp := { c.tmp with
    board := if packHiSub c then max c.tmp.packHi c.tmp.dieEff else c.tmp.dieEff, boardSrc := 4 } }

/-! ### Indications (R252 … R255) -/

/-- An upper limit with hysteresis: set above `lim` (or at it), cleared at `lim − hyst` or below. -/
def aboveLimit (old : Bool) (incl : Bool) (t lim hyst : Int) : Bool :=
  if old then decide (lim - hyst < t) else decide (lim < t) || (incl && decide (t = lim))

/-- A lower limit with hysteresis. -/
def belowLimit (old : Bool) (t lim hyst : Int) : Bool := if old then decide (t < lim + hyst) else decide (t < lim)

/-- A factor quantised to 1/256, rounded down (R255). -/
def quantise (x : Rat) : Nat := (x * 256).floor.toNat

/-- d_F in 1/256 (R253). -/
def fuseDerate (t lim : Int) : Nat :=
  if t ≤ lim - 3000 then 256
  else if lim ≤ t then 128
  else quantise (1 - 1 / 2 * ((t - lim + 3000 : Int) : Rat) / 3000)

/-- d_S in 1/256 (R254). -/
def spurDerate (t lo hi : Int) : Nat :=
  if t ≤ lo then 256
  else if hi ≤ t then 64
  else quantise (1 - 3 / 4 * ((t - lo : Int) : Rat) / ((hi - lo : Int) : Rat))

/-- Charging is inhibited by a sensor or by R248 (INDICATIONS[6]). -/
def sensorInhibit (c : Chip) : Bool :=
  sensorFailed c.tmp.ts1 || c.tmp.xInhibit
    || (c.prs.present && c.tmp.packSrc == 5 && tsFitted c .ts2 && sensorFailed c.tmp.ts2)

/-- Whether the charge window is closed (Table 6.5). -/
def windowClosed (c : Chip) : Bool :=
  c.tmp.chgLow || c.tmp.chgHigh || c.tmp.openHold || sensorInhibit c || !c.prs.present || !c.tmp.packFormed
    || c.tmp.boardHot || c.tmp.dieHot || c.tmp.dieCrit

/-- The pack indications. -/
def indicatePack (c : Chip) : Chip :=
  let k := (cfg c).temp
  let g := (cfg c).charger
  if !c.tmp.packFormed then c
  else
    let cold := belowLimit c.tmp.cold c.tmp.packLo (k.dsgLow * 100) 500
    let hot := aboveLimit c.tmp.hot false c.tmp.packHi (k.dsgHigh * 100) 500
    let c := setFaultIf (cold && !c.tmp.cold) F.packCold c
    let c := setFaultIf (hot && !c.tmp.hot) F.packHot c
    { c with tmp := { c.tmp with
        cold := cold, hot := hot
        chgLow := belowLimit c.tmp.chgLow c.tmp.packLo (g.tLow * 100) 200
        chgHigh := aboveLimit c.tmp.chgHigh false c.tmp.packHi (g.tHigh * 100) 200 } }

/-- The board and die indications with the derating factors. -/
def indicateBoard (c : Chip) : Chip :=
  let k := (cfg c).temp
  let boardHot := aboveLimit c.tmp.boardHot true c.tmp.board (k.boardHigh * 100) 500
  let dieHot := aboveLimit c.tmp.dieHot true c.tmp.dieEff (k.dieHigh * 100) 500
  let crit := if c.tmp.dieCrit then decide (k.dieHigh * 100 ≤ c.tmp.dieEff) else decide (15000 ≤ c.tmp.dieEff)
  let c := setFaultIf (boardHot && !c.tmp.boardHot) F.boardHot c
  let c := setFaultIf (dieHot && !c.tmp.dieHot) F.dieHot c
  let c := setFaultIf (crit && !c.tmp.dieCrit) F.dieCritical c
  { c with tmp := { c.tmp with
      boardHot := boardHot, dieHot := dieHot, dieCrit := crit
      dF := fuseDerate c.tmp.board (k.boardHigh * 100)
      dS := if c.tmp.dieSrc = 15 then 64
            else spurDerate c.tmp.dieEff (k.spurDerate * 100) (k.dieHigh * 100) } }

/-- Every effective temperature and indication anew (R227). -/
def recomputeTemp (c : Chip) : Chip :=
  let c := indicateBoard (indicatePack (formBoard (formDie (formPack c))))
  if inLimp c then c else { c with tmp.chgClosed := windowClosed c }

/-! ### Isothermal check (R246 … R249) -/

/-- Inserts a reading in ascending order. -/
def insertInt (x : Int) : List Int → List Int
  | [] => [x]
  | y :: ys => if x ≤ y then x :: y :: ys else y :: insertInt x ys

/-- The median; of an even number the mean of the two middle readings. -/
def median (xs : List Int) : Rat :=
  let s := xs.foldl (fun a x => insertInt x a) []
  let n := s.length
  ((s.getD ((n - 1) / 2) 0 + s.getD (n / 2) 0 : Int) : Rat) / 2

/-- The partner's die is at hand for a check: no older than 2 s, and taken under its own isothermal condition (R246). -/
def partnerAtRest (c : Chip) : Bool := partnerFresh c && c.tmp.partnerIso

/-- The participants: die, TS1, TS2, TS3, partner, by their numbers in T.TEMP.XCHECK. A sensor that is not failed takes part
with the temperature it holds (DESIGN CHOICE, log entry 119), and the partner's die is treated as a sensor (log entry 120). -/
def isoParticipants (c : Chip) : List (Nat × Int) :=
  (if dieServes c then [(0, c.tmp.die.temp)] else [])
    ++ (if tsServes c .ts1 then [(1, c.tmp.ts1.temp)] else [])
    ++ (if tsServes c .ts2 then [(2, c.tmp.ts2.temp)] else [])
    ++ (if tsServes c .ts3 then [(3, c.tmp.ts3.temp)] else [])
    ++ (if partnerAtRest c && !c.tmp.partnerX then [(4, c.tmp.partner)] else [])

def bits5 (ns : List Nat) : BitVec 5 := ns.foldl (fun m n => m ||| (1#5 <<< n)) 0

/-- The sensors failed by cross-check alone, with their present readings (R249). -/
def crossFailed (c : Chip) : List (Nat × Int) :=
  let on (n : Nat) (s : Sensor) : List (Nat × Int) :=
    if s.failedX && !s.failedWire && !s.failedSlew then [(n, s.temp)] else []
  on 0 c.tmp.die ++ on 1 c.tmp.ts1 ++ on 2 c.tmp.ts2 ++ on 3 c.tmp.ts3
    ++ (if c.tmp.partnerX && partnerAtRest c then [(4, c.tmp.partner)] else [])

/-- Marks the sensors of `ns` as failed by cross-check, or as serving again. -/
def markX (failed : Bool) (ns : List Nat) (c : Chip) : Chip :=
  let m (n : Nat) (s : Sensor) : Sensor := if ns.contains n then { s with failedX := failed } else s
  { c with tmp := { c.tmp with
      die := m 0 c.tmp.die, ts1 := m 1 c.tmp.ts1, ts2 := m 2 c.tmp.ts2, ts3 := m 3 c.tmp.ts3
      partnerX := if ns.contains 4 then failed else c.tmp.partnerX } }

/-- When the isothermal condition last began to hold: 60 min of rest, in PARKED. -/
def isoSince (c : Chip) : Time := max (c.gauge.restFrom + minutes 60) c.seq.modeAt

/-- The check is due (R246). -/
def isoDue (c : Chip) : Bool :=
  isothermal c && c.prs.xAt.elim true fun t => decide (t < isoSince c) || decide (t + minutes 60 ≤ c.now)

/-- Runs the check. Every sensor failed by cross-check that lies within XCHECK of the median serves again (R249); with fewer
than two participants nothing is compared, and the inhibit of R248 stays (DESIGN CHOICE, log entry 119). Of two that differ,
neither is found beyond XCHECK: XCHECK[12:8] is 0 beside XCHECK[13] (DESIGN CHOICE, log entry 138). -/
def isoCheck (c : Chip) : Chip :=
  let ps := isoParticipants c
  let lim : Rat := (((cfg c).temp.xcheck * 100 : Nat) : Rat)
  let med := median (ps.map (·.2))
  let far (t : Int) : Bool := decide (lim < absRat ((t : Rat) - med))
  let c := { c with prs := { c.prs with xAt := some c.now, xPart := bits5 (ps.map (·.1)), xOut := 0, xTwo := false } }
  let c := if ps.isEmpty then c else markX false (((crossFailed c).filter fun p => !far p.2).map (·.1)) c
  match ps with
  | [] | [_] => c
  | [a, b] =>
    if lim < absRat (((a.2 - b.2 : Int)) : Rat) then
      setFault F.tempXcheck { c with tmp.xInhibit := true, prs.xTwo := true }
    else { c with tmp.xInhibit := false }
  | _ =>
    let out := ps.filter fun p => far p.2
    let c := { c with prs.xOut := bits5 (out.map (·.1)) }
    if out.isEmpty then { c with tmp.xInhibit := false }
    else setFault F.tempXcheck (markX true (out.map (·.1)) c)

end Sys2Proof.Machine
end

