-- ==== Sys2Proof/Machine/Scan.lean ====
section
/-! DEFINITION. The scan of the auxiliary ADC (Table 5.5): its channels, which conversion comes next or is under way, and the
levels that the supplies and VHOLD are held to. -/

namespace Sys2Proof.Machine

/-! ### Channels (Table 5.4) -/

/-- Channels 16 … 18 are the TS pins. -/
def isTs (k : Nat) : Bool := decide (16 ≤ k) && decide (k ≤ 18)

/-- The voltage and current channels of the scan. -/
def isScanned (k : Nat) : Bool := decide (k ≤ 15) || (decide (20 ≤ k) && decide (k ≤ 23))

/-- The channel is fitted; LIMP has all eight spurs (R66). -/
def auxFitted (c : Chip) (k : Nat) : Bool :=
  if k ≤ 7 then inLimp c || (cfg c).board.spurs.getLsbD k
  else if k ≤ 15 then inLimp c || (cfg c).board.spurs.getLsbD (k - 8)
  else match k with
    | 17 => fitted c 3
    | 18 => fitted c 4
    | 20 => fitted c 0
    | 21 => fitted c 1
    | _ => decide (k ≤ 23)

/-- Invalid conversions of a change to a channel (R190). -/
def auxCost (k : Nat) : Nat := if isTs k then 2 else 1

/-! ### The scan (Table 5.5) -/

/-- The TS interval of a channel (R193). At step 5 of the way into LIMP TS1 and TS2 are converted twice each without waiting
for it (R147). -/
def tsInterval (c : Chip) (k : Nat) : Time :=
  if (k = 16 ∧ c.seq.ts1Left ≠ 0) ∨ (k = 17 ∧ c.seq.ts2Left ≠ 0) then 0 else if c.seq.mode = .parked then sec 1 else ms 100

/-- Age of a channel. -/
def auxAge (c : Chip) (k : Nat) : Nat := c.now - (auxCh c k).at_

/-- A die conversion is due: its interval counts from the end of the last one (DESIGN CHOICE, log entry 137). -/
def dieDue (c : Chip) : Bool := c.tmp.dieAt.elim true fun t => decide (t + dieInterval c ≤ c.now)

/-- The age beyond which priority 3 takes a channel: in PARKED once per second (R195). -/
def auxLimit (c : Chip) (k : Nat) : Time :=
  if isTs k then 2 * tsInterval c k else if c.seq.mode = .parked then sec 1 else ms 8

/-- The channel of greatest age among a list, the lower number of equals. -/
def oldest (c : Chip) (ks : List Nat) : Option Nat :=
  ks.foldl (fun b k => match b with
    | some j => if auxAge c j < auxAge c k then some k else some j
    | none => some k) none

/-- The first channel from the round-robin position on. -/
def roundRobin (c : Chip) : Option Nat :=
  let ring := (List.range 24).filter fun k => isScanned k && auxFitted c k
  match ring.find? fun k => decide (c.aux.next ≤ k) with
  | some k => some k
  | none => ring.head?

/-- The next channel by Table 5.5; none when nothing is due in PARKED. -/
def nextAux (c : Chip) : Option Nat :=
  let ts := [16, 17, 18].filter (auxFitted c)
  let aged := (List.range 24).filter fun k => (isScanned k || isTs k) && auxFitted c k && decide (auxLimit c k < auxAge c k)
  match ts.find? fun k => (auxCh c k).status == .opn && (auxCh c k).opens == 1 with
  | some k => some k
  | none =>
    if dieDue c then some 19
    else match oldest c aged with
      | some k => some k
      | none =>
        match c.aux.edges.head? with
        | some e => some e.spur.val
        | none =>
          match ts.find? fun k => decide (tsInterval c k ≤ auxAge c k) with
          | some k => some k
          | none => if c.seq.mode = .parked then none else roundRobin c

/-- The conversion under way, with the invalid conversions left before its valid one: that of the multiplexer's channel, or
the one that has fallen due since the ADC stood idle (R195), which settles anew though the channel be the one converted last
(DESIGN CHOICE, log entry 133). -/
def auxNow (c : Chip) : Option (Nat × Nat) :=
  match c.aux.cur with
  | some k => some (k, c.aux.skip)
  | none => (nextAux c).map fun k => (k, auxCost k)

/-- The centre of the conversion that ends now: half of its 125 µs before its end (R202). -/
def conversionCentre (c : Chip) : Time := c.now - 62500

/-! ### Supplies -/

/-- The latest FA_IN or FB_IN conversion, mV. -/
def feedInMv (c : Chip) (f : FeedId) : Int :=
  2 * signed 16 (auxCh c (match f with | .a => 20 | .b => 21)).held

/-- V_TOP: the highest of the feeds, the pack and VSUP, which the rail feeds (R41), mV. Until CONFIGURE has ended and every
word has been measured anew, it is the V_TOP last known (DEDUCED, log entry 143). -/
def vTopMv (c : Chip) : Rat :=
  if c.seq.cfgEnd.isNone then c.vTop
  else ratMax (ratMax (feedInMv c .a : Rat) (feedInMv c .b : Rat)) (ratMax (packMv c) c.meas.vBus.precHeld)

/-- The charge level of R39, mV. -/
def chargeLevel (c : Chip) : Rat := ratMin (vTopMv c - 500) 18000

end Sys2Proof.Machine
end

