-- ==== Sys2Proof/Machine/Pins.lean ====
section
/-! DEFINITION. The output pins (Table 2.3): what each takes in the present mode from the state behind it. -/

namespace Sys2Proof.Machine

/-! ### Gates -/

/-- What a drop regulator makes of its gates while `drop` lies across its FETs, fully enhanced ones dropping `full` (mV):
it sinks them below its target, holds them at full drive when even full enhancement drops more, and regulates between the
two (R293, R333). -/
inductive Regulated | sinks | regulates | fullDrive
  deriving DecidableEq, Repr

def dropLaw (target drop full : Rat) : Regulated :=
  if drop < target then .sinks else if target < full then .fullDrive else .regulates

/-- The gates of the channel are driven by its state (Table 7.1). -/
def feedDriven (x : Feed) : Bool := x.st == .inrush || x.st == .on || (x.st == .blocking && x.inr.isSome)

/-- The pins stand in their Reset column: power-on, RST_N low, or an internal reset that CONFIGURE has not yet followed. -/
def pinsReset (c : Chip) : Bool := c.atReset || c.seq.mode == .unpowered || c.seq.mode == .reset

/-- A gate that nothing drives: held in SHIP, sunk otherwise (Table 2.3). -/
def gateOff (c : Chip) : Gate := if c.seq.mode == .ship then .held else .sunk

/-- FA_GB and FA_GP together: the limit of an inrush or re-enable (R285), the drop regulator in ON (R293); a pending trip
holds them sunk (R301). -/
def feedGate (c : Chip) (rsns : Nat) (x : Feed) : Gate :=
  if pinsReset c || !running c || x.trip.due.isSome then gateOff c
  else match x.st, x.inr with
    | .inrush, some i | .blocking, some i => .limit (i.iL * (rsns : Rat) / 1000)
    | .on, _ => .drop (x.vT : Rat)
    | _, _ => .sunk

/-- No trip and no low charge pump holds PK_GD and PK_GC sunk (R351, R388). -/
def packMay (c : Chip) : Bool := running c && !pinsReset c && c.pack.trip.due.isNone && !c.pack.cpLow

/-- PK_GD is under the drop regulator (Table 8.1). -/
def gateDOn (s : PackSt) : Bool :=
  match s with
  | .standby | .diode | .charge => true
  | _ => false

/-- PK_GPC is on during pre-charge alone, and never in PARKED (Tables 2.3, 8.1). -/
def preGateOn (c : Chip) : Bool :=
  running c && !pinsReset c && c.pack.st == .precharge && !c.pack.cpLow && c.seq.mode != .parked

/-- CHG_EN: high in CHARGE until step 6 of a shut-down sequence (Tables 8.1, 8.4). -/
def charging (c : Chip) : Bool := c.pack.st == .charge && decide (c.seq.shutStep < 6)

/-- The switch of a spur conducts or ramps (Table 9.1). -/
def spurDrives (s : SpurSt) : Bool :=
  match s with
  | .rampUp | .on | .rampDown => true
  | _ => false

/-- SHARE is driven (R361, R365, Table 2.3). -/
def shareDriven (c : Chip) : Bool :=
  inPairStrap c && !inLimp c && (match c.seq.mode with
    | .parked | .coupled | .depot => true
    | _ => false)

/-! ### The pins of Table 2.3 -/

/-- COUPLED or DEPOT. -/
def coupledOrDepot (m : Mode) : Bool := m == .coupled || m == .depot

/-- FAULT_N: low in reset and in LIMP, high impedance in SHIP, otherwise low while a sticky bit drives it (R787). -/
def faultPin (c : Chip) : Drive :=
  if pinsReset c then .low
  else match c.seq.mode with
  | .unpowered | .reset | .limp => .low
  | .ship => .hiZ
  | .configure | .parked | .coupled | .depot => if c.ret.sticky &&& faultMask = 0 then .hiZ else .low

/-- An open-drain line that the gauge pulls low while `p` holds and it runs. -/
def openDrain (c : Chip) (p : Bool) : Drive := if running c && !pinsReset c && p then .low else .hiZ

/-- CAN_STB (DEDUCED, log entry 96): with the crystal failed (Table 5.10) or CAN_RX found stuck (Table 14.13) it is high. -/
def stbPin (c : Chip) : Drive :=
  if pinsReset c then .high
  else match c.seq.mode with
  | .unpowered | .reset => .high
  | .ship => .hiZ
  | .configure | .parked => if c.can.stb then .high else .low
  | .coupled | .depot | .limp => if c.clk.xtalOk && c.can.rxStuck.isNone then .low else .high

/-- The thermistor supply: off in reset and SHIP, pulsed for each conversion in PARKED, on otherwise. -/
def tsbPin (c : Chip) : Bool :=
  running c && !pinsReset c && (c.seq.mode != .parked || (auxNow c).elim false fun p => isTs p.1)

/-- The channel has asked for the charge pump and waits or ramps (R283). -/
def onTheWay (x : Feed) : Bool := x.st == .delay || x.st == .held || x.st == .inrush

/-- The charge pump: in PARKED a feed on its way keeps it running, and between refresh bursts, whose schedule the spec leaves
open, it stands (DESIGN CHOICE, log entry 40); a stopped GATE domain runs it no more (log entry 140). -/
def pumpPin (c : Chip) : PumpDrive :=
  if !running c || pinsReset c || !gateRuns c then .off
  else if c.seq.mode != .parked || onTheWay c.feedA || onTheWay c.feedB then .on
  else .bursts

/-- CMD_IMAGE_CHECK has written MAGIC and has not passed yet. -/
def checkPending (c : Chip) : Bool := c.host.pend.elim false fun p => p.op == 0x2A && p.done.isNone

/-- A transaction runs on the NVM interface: a commit, a fill of a guest room, or the reading of the target copy under
CMD_IMAGE_CHECK. -/
def nvmBusy (c : Chip) : Bool := c.jrn.run.isSome || !c.inn.fills.isEmpty || checkPending c

/-- NV_CS_N, NV_CK and NV_DO. -/
def nvPins (c : Chip) : NvBus :=
  if c.seq.mode == .ship then .unpowered else if running c && !pinsReset c && nvmBusy c && nvmRuns c then .active else .idle

/-- VHOLD: charged towards its level while V_TOP is present outside SHIP (R39), in reset and without power too. -/
def vHoldPin (c : Chip) : Option Rat :=
  if c.seq.mode == .ship || decide (chargeLevel c ≤ 0) then none else some (chargeLevel c)

/-- The spur into which the tie test of CONFIGURE step 3 sources its 2 mA now: each fitted spur in its turn, none while the die
is critical (R409, R269). -/
def tieTestPin (c : Chip) : Option Nat :=
  let n := Config.tieTurn c.now
  if c.seq.mode == .configure && c.seq.step == 3 && !c.atReset && !c.tmp.dieCrit && decide (n < 8) && (cfg c).board.spurs.getLsbD n
  then some n else none

/-- The output pins of the present state (R45, R46). -/
def pinsOf (c : Chip) : Pins :=
  let m := c.seq.mode
  let on := running c && !pinsReset c
  let inPair := inPairStrap c && on && m != .limp
  { gateA := feedGate c (cfg c).feedA.rsns c.feedA, gateB := feedGate c (cfg c).feedB.rsns c.feedB
    gateD := if packMay c && gateDOn c.pack.st then .drop c.pack.vTp else gateOff c
    gateC := if packMay c && c.pack.st == .diode then .on else gateOff c
    gatePc := if preGateOn c then .on else gateOff c
    vHold := vHoldPin c, nvBus := nvPins c
    chgEn := on && coupledOrDepot m && charging c
    chgSet := if on && coupledOrDepot m && charging c then c.chg.set else 0
    share := if shareDriven c && on then some (c.pair.drive.getD c.share.vD) else none
    spurs := (List.finRange 8).foldl (fun b n => if on && spurDrives c.spurs[n].st then b ||| (1#8 <<< n.val) else b) 0
    tieTest := tieTestPin c
    faultN := faultPin c
    alertN := openDrain c (c.alert.causes != 0)
    wakeN := openDrain c c.alert.pulse.isSome
    canStb := stbPin c
    canTx := on && c.can.on
    tsb := tsbPin c
    pkId := on && m != .limp && c.tag.pinOff.isNone
    nvWp := on && c.jrn.run.isSome
    link := inPair
    pump := pumpPin c
    rails := m != .ship
    smb := on && !c.smb.stuck
    xtal := on && (m != .parked || c.can.on) }

end Sys2Proof.Machine
end

