-- ==== Sys2Proof/Machine/Run.lean ====
section
/-! DEFINITION. The frame of every meaning: time passes to the time of the step, the block's function acts, the NVM takes
the writes that the function put on its interface, and the output pins take their states (R45). -/

namespace Sys2Proof.Machine

/-- What a meaning answers. -/
abbrev Outcome := Host.Outcome State Fault Refusal

/-- The pins follow the state, and the NVM interface is idle again. -/
def settle (c : Chip) : Chip := { c with pins := pinsOf c, spi := [] }

/-- The state after a step at time `t` whose effect on the gauge is `f`. -/
def runState (t : Time) (f : Nvm → Chip → Chip) (s : State) : State :=
  let c := f s.nvm (tick t s.chip)
  { chip := settle c, nvm := s.nvm.apply c.spi, pending := s.pending }

/-- A step at time `t` whose effect on the gauge is `f` (DESIGN CHOICE, log entry 8). -/
def run (t : Time) (f : Nvm → Chip → Chip) (s : State) : Outcome := .next (runState t f s)

end Sys2Proof.Machine
end

