-- ==== Sys2Proof/Machine/Spur.lean ====
section
/-! DEFINITION. Spurs (chapter 9): commands and transitions, soft start, failures and cuts, backfeed and mirage, ties,
open-load diagnosis, the ratings and metering. -/

namespace Sys2Proof.Machine

def spur (c : Chip) (n : Fin 8) : Spur := c.spurs[n]
def setSpur (c : Chip) (n : Fin 8) (x : Spur) : Chip := { c with spurs := c.spurs.set n x }
def updSpur (n : Fin 8) (f : Spur → Spur) (c : Chip) : Chip := setSpur c n (f (spur c n))

/-- The settings of a spur in force; LIMP takes the defaults (R422). -/
def spurCfg (c : Chip) (n : Fin 8) : SpurCfg := (cfg c).spurs[n]

/-- At least one guest is admitted on the spur (R392, R401). -/
def hasGuests (c : Chip) (n : Fin 8) : Bool := !(spurGuests c (leadSpur c n)).isEmpty

/-! ### Commands (R392) -/

/-- Source 1 of R392: die critical, or step 6 of a shut-down sequence. -/
def spursForcedOff (c : Chip) : Bool := c.tmp.dieCrit || decide (6 ≤ c.seq.shutStep)

/-- The command of spur n from the first source of R392 that applies. -/
def spurCommand (c : Chip) (n : Fin 8) : Bool :=
  if spursForcedOff c || !c.seq.spursOn then false
  else match c.seq.mode with
    | .limp => true
    | .parked | .coupled | .depot =>
      let l := leadSpur c n
      if (spurGuests c l).isEmpty then (spurCfg c l).defaultOn else c.spurs[l].granted
    | _ => false

/-- The switch conducts or ramps. -/
def conducting (s : SpurSt) : Bool :=
  match s with
  | .rampUp | .on | .rampDown => true
  | _ => false

/-- Energy counted towards a slot whose ramp is withdrawn becomes idle energy, and so does what follows it up to the end
read (R421, R640). -/
def dropSlotEnergy (s : Spur) : Spur :=
  { s with counting := false, dropped := true, idle := s.idle + s.slotE, slotE := 0 }

/-- A spur that is in ON leaves it. -/
def leaveOn (now : Time) (s : Spur) : Spur := if s.st = .on then { s with leftOn := now } else s

/-- The switch opens without a ramp-down; a probe ends in FAULTED rather than OFF (R403). -/
def openSwitch (now : Time) (cause : Nat) (s0 : Spur) : Spur :=
  let s := leaveOn now s0
  { s with st := if s.probing.isSome then .faulted else .off, offCause := cause, ramp := none, est := none
           limiting := false, probing := none }

/-- A soft start begins (R394) (DEDUCED, log entry 65). -/
def startRamp (now : Time) (s : Spur) : Spur :=
  { s with st := .rampUp, ramp := some { start := now, from_ := now, resumed := false, limited := false }, rampQ := 0
           est := none, onAt := 0, onQ := (0, 0), testDue := false }

/-- The spur takes its command (R392, R393, R399, R403, R404, R428, R431). -/
def takeCommand (n : Fin 8) (c : Chip) : Chip :=
  let cmd := spurCommand c n
  let s := spur c n
  let s := if s.cmd == cmd then s else { s with cmd := cmd, cmdAt := c.now }
  let forced := spursForcedOff c
  let cause := if c.tmp.dieCrit then 0x0A else if forced then 0x0D else 0x01
  let s :=
    match s.st, cmd with
    | .off, true => if s.hot then s else startRamp c.now s
    | .faulted, true =>
      if s.probeHeld && !s.hot then
        startRamp c.now { s with probeHeld := false, probeAt := c.now, probing := some c.now }
      else s
    | .rampDown, true =>
      { s with st := .rampUp, ramp := some {
          start := (s.ramp.elim c.now (·.start)), from_ := c.now, resumed := true
          limited := s.ramp.elim false (·.limited) } }
    | .on, false => openSwitch c.now cause s
    | .rampUp, false =>
      if forced then openSwitch c.now cause (dropSlotEnergy s)
      else { dropSlotEnergy s with st := .rampDown, offCause := 0x0E, limiting := false }
    | .rampDown, false => if forced then openSwitch c.now cause s else s
    | _, _ => s
  setSpur c n s

/-- Every spur takes its command. -/
def takeCommands (c : Chip) : Chip := (List.finRange 8).foldl (fun c n => takeCommand n c) c

/-- Every spur that follows spur n takes its command, spur n among them (R392, R411). -/
def takeGroup (n : Fin 8) (c : Chip) : Chip := (tieGroup c n).foldl (fun c m => takeCommand m c) c

/-- The die critical indication cuts a spur: its switch opens without a ramp-down and the spur enters CUT, a probe apart
(R433, R643). -/
def dieCut (now : Time) (s : Spur) : Spur :=
  let s := openSwitch now 0x0A (if s.st = .rampUp then dropSlotEnergy s else s)
  if s.st = .off then { s with st := .cut, counts := bump 255 3 s.counts } else s

/-- Slots that run on a conducting spur are stopped by the die critical indication: the spurs they run on are cut, and they are
refunded (Table 13.6, R643, R644). -/
def dieCriticalSlots (nvm : Nvm) (c : Chip) : Chip :=
  (List.finRange 8).foldl (fun c n =>
    let grp := (tieGroup c n).filter fun m => conducting (spur c m).st
    if (runningSlot c n).isSome && !grp.isEmpty then
      holdSpur nvm n (refundRunning n (grp.foldl (fun c m => updSpur m (dieCut c.now) c) c))
    else recheckSpur nvm n c) c

/-! ### Failures and cuts (R400, R401, R417, R418) -/

/-- Records a failure or cut: the switch is off, its slot refunded, LAST_FAIL and the off cause set (DEDUCED, log entry 69). -/
def noteFail (n : Fin 8) (cause : Nat) (c : Chip) : Chip :=
  let t := sampleMs24 c
  refundRunning (leadSpur c n) (updSpur n (fun s => { leaveOn c.now s with
    offCause := cause, lastFail := (cause, t), ramp := none, est := none, limiting := false, onAt := 0 }) c)

/-- The spur enters CUT and the innkeeper holds it (R401, R417, R644). -/
def cutSpur (nvm : Nvm) (n : Fin 8) (cause : Nat) (c : Chip) : Chip :=
  let c := noteFail n cause c
  let c := updSpur n (fun s => { s with st := .cut, counts := bump 255 3 s.counts, probing := none }) c
  holdSpur nvm (leadSpur c n) c

/-- Which of the counters of Table 9.5 a failure of this cause increments. -/
def failCounter : Nat → Option Nat
  | 0x02 | 0x03 => some 0
  | 0x04 => some 1
  | 0x06 => some 2
  | _ => none

/-- Counts a failure of this cause. -/
def countFail (cause : Nat) (s : Spur) : Spur :=
  { s with counts := (failCounter cause).elim s.counts fun i => bump 255 i s.counts }

/-- A failure of R400 with its bits: RETRY_WAIT, CUT or FAULTED under R401. -/
def spurFail (nvm : Nvm) (n : Fin 8) (cause : Nat) (bits : List Nat) (c : Chip) : Chip :=
  let c := bits.foldl (fun c b => setFault b c) c
  let c := updSpur n (countFail cause) c
  let s := spur c n
  if s.probing.isSome then updSpur n (fun s => { s with st := .faulted, probing := none }) (noteFail n cause c)
  else if s.retries < (spurCfg c n).retries then
    let c := updSpur n (fun s => { s with st := .retryWait, retries := s.retries + 1, waitAt := c.now }) (noteFail n cause c)
    recheckSpur nvm (leadSpur c n) c
  else if hasGuests c n then cutSpur nvm n cause c
  else
    setFault (F.spurFaulted n)
      (updSpur n (fun s => { s with st := .faulted, probeAt := c.now, probeHeld := false }) (noteFail n cause c))

/-- Backfeed: the spur enters BLOCKED (R406, R407). -/
def blockSpur (nvm : Nvm) (n : Fin 8) (c : Chip) : Chip :=
  let c := setFault (F.spurBackfeed n) c
  let c := noteFail n 0x07 c
  let c := updSpur n (fun s => { s with st := .blocked, blockedAt := c.now, probing := none }) c
  recheckSpur nvm (leadSpur c n) c

/-! ### Ties (R409 … R412, R438) -/

/-- The spurs that `ns` reaches through known ties of merged spurs. -/
def tieClosure (c : Chip) (ns : List (Fin 8)) : List (Fin 8) :=
  (List.finRange 8).filter fun m => ns.any fun n => m == n || ((spur c n).merged && (spur c n).tied.getLsbD m)

def spurMask (ns : List (Fin 8)) : BitVec 8 := ns.foldl (fun m n => m ||| (1#8 <<< n.val)) 0

/-- A tie found at run time: every spur of it, and of a merged tie it touches, enters TIED_OFF (R412, R438). -/
def tieRuntime (nvm : Nvm) (n m : Fin 8) (c : Chip) : Chip :=
  let grp := tieClosure c [n, m]
  let bits := spurMask grp
  grp.foldl (fun c k =>
    let c := noteFail k 0x0B (setFault (F.spurTied k) c)
    let c := updSpur k (fun s => { s with
      st := if s.st = .absent then .absent else .tiedOff
      tied := s.tied ||| (bits &&& ~~~ (1#8 <<< k.val)), tieRun := true, merged := false, probing := none }) c
    recheckSpur nvm k c) c

/-- The spurs that a CONFIGURE test finds tied to the spur under test (R409): above half its voltage. None when the test
is inconclusive (R410). -/
def tieFound (t : TieTest) : List (Fin 8) :=
  if 2000 < t.before ∨ t.after - t.before < 40 then []
  else (t.others.filter fun p => p.1 != t.spur && decide (t.after < 2 * p.2)).map (·.1)

/-- Grows a group by every test that shares a spur with it; `fuel` bounds the rounds. -/
def growGroup (pairs : List (List (Fin 8))) : Nat → List (Fin 8) → List (Fin 8)
  | 0, g => g
  | fuel + 1, g =>
    growGroup pairs fuel ((List.finRange 8).filter fun m =>
      g.contains m || pairs.any fun p => p.contains m && p.any (g.contains ·))

/-- CONFIGURE step 3: the outcome of the tie tests (R409 … R411). LIMP applies no TIE_ACTION (R422). -/
def applyTies (ts : List TieTest) (c : Chip) : Chip :=
  let tested (n : Fin 8) : Option TieTest := ts.find? fun t => t.spur == n
  let unsure (n : Fin 8) : Bool := (tested n).elim true fun t => 2000 < t.before ∨ t.after - t.before < 40
  let pairs := (ts.filter fun t => spurFitted c t.spur && !(tieFound t).isEmpty).map fun t =>
    t.spur :: (tieFound t).filter (spurFitted c ·)
  (List.finRange 8).foldl (fun c n =>
    if !spurFitted c n then c
    else
      let grp := growGroup pairs 8 [n]
      let c := updSpur n (fun s => { s with tieUnsure := unsure n }) c
      if grp.length < 2 then c
      else
        let low := grp.headD n
        let merge := (spurCfg c low).tieMerge
        let c := setFault (F.spurTied n) c
        updSpur n (fun s => { s with
          tied := spurMask grp &&& ~~~ (1#8 <<< n.val), tieCfg := true, merged := merge && !inLimp c
          mergeMask := if merge && !inLimp c then spurMask grp else 0
          st := if merge || inLimp c then s.st else .tiedOff
          offCause := if merge || inLimp c then s.offCause else 0x0B }) c) c

/-! ### Open load (R413 … R416) -/

/-- One diagnosis; two consecutive ones that find the spur open set the bit (R416). -/
def diagnose (n : Fin 8) (isOpen : Bool) (c : Chip) : Chip :=
  let s := spur c n
  if isOpen then
    let found := s.lastOpen
    let c := updSpur n (fun s => { s with lastOpen := true, findings := satInc 65535 s.findings, openLoad := found || s.openLoad }) c
    setFaultIf (found && !s.openLoad) (F.spurOpenLoad n) c
  else updSpur n (fun s => { s with lastOpen := false, openLoad := false }) c

/-- The mean current of an on-time; none when no conversion fell into it (DEDUCED, log entry 67). -/
def onMean (s : Spur) : Option Rat := if s.onQ.2 = 0 then none else some (s.onQ.1 / (s.onQ.2 : Rat))

/-- The diagnosis that ends with a slot: on-state from 200 µs of on-time, otherwise an off-state test may follow (R413,
R414). At a boundary without an off command the span goes on. -/
def slotDiagnosis (n : Fin 8) (c : Chip) : Chip :=
  let s := spur c n
  let span := if s.onAt = 0 then 0 else (if s.cmd then c.now else s.cmdAt) - s.onAt
  let long := decide (us 200 ≤ span)
  let c := updSpur n (fun s => { s with
    cover := (long :: s.cover).take 256, sinceTest := satInc 15 s.sinceTest
    testDue := !s.cmd && !long && decide (15 ≤ s.sinceTest) }) c
  if s.cmd || !long then c
  else match onMean s with
    | some i => diagnose n (decide (i < 2)) c
    | none => c

/-! ### Metering and the ratings (R396, R417, R418, R420, R421) -/

/-- Stamp of a precise word: the centre of its window, 327.68 µs before its end (R202). -/
def wordStamp (w : Sample) : Time := w.at_ - 327680

/-- V̄ of R420 over `(t0, t1]`, mV: the mean of the VALID precise V_BUS words stamped there, or the latest before. -/
def vBusMean (c : Chip) (t0 t1 : Time) : Rat :=
  let h := c.meas.vBus.precHist.filter fun w => w.status == .valid
  let inn := h.filter fun w => decide (t0 < wordStamp w) && decide (wordStamp w ≤ t1)
  if !inn.isEmpty then meanRat (inn.map (·.value))
  else match h.find? fun w => decide (wordStamp w ≤ t1) with
    | some w => w.value
    | none => c.meas.vBus.precHeld

/-- `x` rounded down, or up, to a multiple of 50. -/
def floor50 (x : Rat) : Nat := (x / 50).floor.toNat * 50
def ceil50 (x : Rat) : Nat := (x / 50).ceil.toNat * 50

/-- The soft-start adapter (R396): `q` mA·ns passed between the reads, `i1` the current after them, mA. -/
def softStartAdapt (n : Fin 8) (e : RampEst) (readAt : Time) (i1 : Rat) (c : Chip) : Chip :=
  let s := spur c n
  let sc := spurCfg c n
  let v := vBusMean c e.start readAt
  let span : Rat := ((readAt - e.start : Nat) : Rat)
  if v ≤ 0 then updSpur n (fun s => { s with est := none }) c
  else
    let cNf := (e.q - i1 * (span - (s.tR : Rat) * 1000 / 2)) / v
    let raw := ceil50 (cNf * v / (250 * (c.tmp.dS : Rat) / 256) / 1000)
    let tgt := max (sc.ssMin * 50) (min (sc.ssMax * 50) raw)
    let d := if tgt < s.tR then s.tR - tgt else tgt - s.tR
    let step := min d (max 50 (floor50 ((d : Rat) / 4)))
    updSpur n (fun s => { s with
      est := none, cEst := satR 16 (cNf / 100), tR := if tgt < s.tR then s.tR - step else s.tR + step }) c

/-- A current read reaches a completed ramp: it is the ramp-end read, or the one after it (R396, R397). -/
def rampReads (n : Fin 8) (i : Rat) (dt : Time) (c : Chip) : Chip :=
  match (spur c n).est with
  | none => c
  | some e =>
    match e.readAt with
    | none =>
      if c.now ≤ e.end_ + us 500 then
        updSpur n (fun s => { s with est := some { e with q := e.q + i * (dt : Rat), readAt := some c.now } }) c
      else updSpur n (fun s => { s with est := none }) c
    | some t => softStartAdapt n e t i c

/-- The part of `(t0, t1]` that lies within the present on-time of a spur. -/
def onOverlap (s : Spur) (t0 t1 : Time) : Time :=
  if s.onAt = 0 then 0 else (if s.cmd then t1 else min t1 s.cmdAt) - max t0 s.onAt

/-- The sum of R417: I_MAX of the guests whose slots run on the spur, plus HOUSE_ALLOW, mA. -/
def guestAllowance (c : Chip) (n : Fin 8) : Nat :=
  let l := leadSpur c n
  (((spurInn c l).plan.filter fun s => s.st == .running).map fun s => (guestAt c s.pos).elim 0 (·.cfg.iMax)).foldl (· + ·) 0
    + houseAllow c l

/-- The sum of the latest VALID spur currents over some spurs, mA. -/
def spurSum (c : Chip) (ns : List (Fin 8)) : Rat := sumRat (ns.map fun n => ((spur c n).iLast).getD 0)

/-- Follows the sums of R418. -/
def followTotals (c : Chip) : Chip :=
  { c with totals := {
      all := holdsSince c.now c.totals.all (decide (1600 < spurSum c (List.finRange 8)))
      low := holdsSince c.now c.totals.low (decide (1400 < spurSum c [0, 1, 2, 3]))
      high := holdsSince c.now c.totals.high (decide (1400 < spurSum c [4, 5, 6, 7])) } }

/-- Overdraw (R417): conversions in ON that overlap no ramp, two in a row above the sum. -/
def checkOverdraw (nvm : Nvm) (n : Fin 8) (i : Rat) (t0 : Time) (c : Chip) : Chip :=
  let s := spur c n
  if !hasGuests c n || s.st != .on || decide (t0 < s.onAt) then c
  else if i ≤ (guestAllowance c n : Rat) then updSpur n (fun s => { s with overs := 0 }) c
  else if s.overs = 0 then updSpur n (fun s => { s with overs := 1 }) c
  else cutSpur nvm n 0x08 (setFault (F.spurOverdraw n) (updSpur n (fun s => { s with overs := 0 }) c))

/-- The sliding 100 ms mean, mA; none without a conversion whose interval falls within it. -/
def slidingMean (s : Spur) : Option Rat :=
  let q := sumRat (s.iHist.map fun p => p.1 * (p.2.1 : Rat))
  let t : Nat := s.iHist.foldl (fun a p => a + p.2.1) 0
  if t = 0 then none else some (q / (t : Rat))

/-- The spurs of the tie of spur n that are in ON: spur n alone unless its tie is merged. -/
def onGroup (c : Chip) (n : Fin 8) : List (Fin 8) := (tieGroup c (leadSpur c n)).filter fun m => (spur c m).st == .on

/-- The continuous rating (R400). A merged tie keeps that of one spur (R411); its spurs, which carry one load, fail together
(DESIGN CHOICE, log entry 125). -/
def checkContinuous (nvm : Nvm) (n : Fin 8) (c : Chip) : Chip :=
  let ns := onGroup c n
  if !ns.contains n then c
  else if spurAllowance c < sumRat (ns.map fun m => (slidingMean (spur c m)).getD 0) then
    ns.foldl (fun c m => spurFail nvm m 0x05 [F.spurShort m] c) c
  else c

/-- Charge and time in ON, one more conversion taken in (DEDUCED, log entry 73). -/
def addOn (q : Rat × Nat) (i : Rat) (ov : Nat) : Rat × Nat := (q.1 + i * (ov : Rat), q.2 + ov)

/-- A read of this kind waits for spur n. -/
def readDue (c : Chip) (k : EdgeKind) (n : Fin 8) : Bool := c.aux.edges.any fun e => e.spur == n && e.kind == k

/-- The slot edge of spur n that has waited longest for its read. -/
def firstEdge (c : Chip) (n : Fin 8) : Option EdgeKind :=
  (c.aux.edges.find? fun e => e.spur == n && e.kind != .governor).map (·.kind)

/-- The reads of this kind for spur n have been made. -/
def readMade (k : EdgeKind) (n : Fin 8) (c : Chip) : Chip :=
  { c with aux.edges := c.aux.edges.filter fun e => !(e.spur == n && e.kind == k) }

/-- A VALID current conversion of a spur: `i` mA is the mean since the previous one (R420, R421). In a duty state its
charge counts outside bursts, a burst being split at the reads that its start and its end request (R452). -/
def spurCurrentValid (nvm : Nvm) (n : Fin 8) (i : Rat) (c : Chip) : Chip :=
  let s := spur c n
  let t0 := s.readAt
  let dt := c.now - t0
  let q := i * (dt : Rat)
  let e := vBusMean c t0 c.now * q / 1000000000000
  let ov := onOverlap s t0 c.now
  let s' := { s with
    energy := s.energy + e
    idle := if s.counting then s.idle else s.idle + e
    slotE := if s.counting then s.slotE + e else s.slotE
    rampQ := if s.ramp.isSome then s.rampQ + q else s.rampQ
    readAt := c.now, iLast := some i
    onQ := addOn s.onQ i ov
    iHist := (i, dt, c.now) :: s.iHist.filter fun p => decide (c.now ≤ p.2.2 - p.2.1 + ms 100) }
  let s' := if ms 100 < dt then { s' with iHist := s'.iHist.drop 1 } else s'
  let c := setSpur c n s'
  let c := if s.counting then c else { c with learn.idleNow := c.learn.idleNow + e }
  let pend := readDue c .governor n
  let c := if c.gauge.gov.st != .full && c.gauge.gov.burst.isSome == pend then
      { c with gauge.gov.spurQ := c.gauge.gov.spurQ + q } else c
  let c := rampReads n i dt c
  let c := checkOverdraw nvm n i t0 c
  let c := checkContinuous nvm n c
  followTotals c

/-- A current conversion that is not VALID ends an interval that is not metered; it spoils a pending estimate (R397). -/
def spurCurrentLost (n : Fin 8) (c : Chip) : Chip := updSpur n (fun s => { s with readAt := c.now, est := none }) c

/-- A conversion of the current of a spur: VALID when `i` is given. -/
def spurMetered (nvm : Nvm) (n : Fin 8) (i : Option Rat) (c : Chip) : Chip :=
  readMade .governor n (i.elim (spurCurrentLost n c) fun i => spurCurrentValid nvm n i c)

/-- The end read of a slot (R421, R429, R606): its energy is handed over, and the account of the next slot opens at once
when one runs that asked for no start read of its own. -/
def slotEnd (nvm : Nvm) (n : Fin 8) (c : Chip) : Chip :=
  match (spurInn c n).ended with
  | [] => readMade .stop n c
  | slot :: rest =>
    let e := (roundRat (spur c n).slotE).toNat
    let c := { c with aux.edges := c.aux.edges.eraseP fun x => x.spur == n && x.kind == .stop }
    let goes := (runningSlot c n).isSome && !readDue c .start n
    let c := updSpur n (fun s => { s with counting := goes, slotE := 0, dropped := false }) c
    let c := updSpurInn n (fun x => { x with ended := rest }) c
    slotDiagnosis n (chargeSlot nvm n slot e c)

/-- The start read of a slot opens its account (R421), unless its ramp was withdrawn meanwhile (R640). -/
def slotStart (n : Fin 8) (c : Chip) : Chip :=
  let c := { c with aux.edges := c.aux.edges.eraseP fun x => x.spur == n && x.kind == .start }
  let opens := (runningSlot c n).isSome || !(spurInn c n).ended.isEmpty
  updSpur n (fun s => { s with counting := opens && !s.dropped, slotE := 0 }) c

/-- A current conversion of spur n serves the oldest slot edge that waits for it (R192, R421). -/
def spurRead (nvm : Nvm) (n : Fin 8) (i : Option Rat) (c : Chip) : Chip :=
  let c := spurMetered nvm n i c
  match firstEdge c n with
  | some .stop => slotEnd nvm n c
  | some .start => slotStart n c
  | _ => c

/-! ### Voltage (R407) -/

/-- A voltage on spur n is attributed to another spur (R407). -/
def attributed (c : Chip) (n : Fin 8) (v : Rat) : Bool :=
  (List.finRange 8).any fun m =>
    m != n && (((spur c n).tied.getLsbD m && conducting (spur c m).st)
      || (spur c m).vOn.elim false fun w => decide (absRat (v - w) * 100 ≤ 3 * absRat v))

/-- A voltage is present at `at_` on a spur that is commanded off (R407). -/
def voltagePresent (c : Chip) (n : Fin 8) (v : Rat) (at_ : Time) (earlier : List (Rat × Time)) : Bool :=
  let s := spur c n
  !s.cmd && decide (s.cmdAt + ms 100 ≤ at_) && decide (2000 < v)
    && earlier.any (fun p => decide (p.2 + ms 100 ≤ at_) && decide (s.cmdAt + ms 100 ≤ p.2) && decide (2000 < p.1)
      && decide (p.1 * 9 ≤ v * 10))
    && !attributed c n v

/-- A VALID voltage conversion of a spur, mV (R393, R407). -/
def spurVoltageValid (nvm : Nvm) (n : Fin 8) (v : Rat) (c : Chip) : Chip :=
  let s := spur c n
  let at_ := conversionCentre c
  let present := voltagePresent c n v at_ s.vHist
  let c := updSpur n (fun s => { s with
    vHist := (v, at_) :: s.vHist.filter fun p => decide (c.now ≤ p.2 + ms 1200)
    vOn := if s.st = .on ∧ s.onAt + us 125 ≤ c.now then some v else none }) c
  let watched := match s.st with
    | .off | .blocked | .retryWait => true
    | _ => false
  if !(watched && present) then c
  else if 2 ≤ s.iLast.getD 0 then
    let c := noteFail n 0x0C (setFault (F.spurMirage n) c)
    recheckSpur nvm (leadSpur c n) (updSpur n (fun s => { s with st := .faultHold, probing := none }) c)
  else if s.st = .blocked then c
  else blockSpur nvm n c

/-! ### CONFIGURE -/

/-- The spurs as CONFIGURE prepares them once the image or the LIMP defaults are in force (R396, R402, R436). -/
def configureSpurs (c : Chip) : Chip :=
  (List.finRange 8).foldl (fun c n => updSpur n (fun s => { s with
    st := if spurFitted c n then .off else .absent, tR := (spurCfg c n).ssMax * 50, retries := 0 }) c) c

/-! ### Meanings of the spur commands -/

/-- The spurs that follow spur n at the end of its ramp (R412): fitted, in OFF, below 1.0 V at the last conversion before, and now
above 2.0 V and within 3 % of the voltage of spur n. `others` holds the voltages read, that of spur n itself among them. -/
def tieCandidates (c : Chip) (n : Fin 8) (others : List (Fin 8 × Int)) : BitVec 8 :=
  let vn : Rat := match others.find? fun p => p.1 == n with
    | some p => (p.2 : Rat)
    | none => c.meas.vBus.precHeld
  let follows (p : Fin 8 × Int) : Bool :=
    p.1 != n && spurFitted c p.1 && (spur c p.1).st == .off
      && ((spur c p.1).vHist.head?).elim false (fun h => decide (h.1 < 1000))
      && decide (2000 < p.2) && decide (absRat ((p.2 : Rat) - vn) * 100 ≤ 3 * absRat vn)
  spurMask ((others.filter follows).map (·.1))

/-- Those of them that followed spur n at the end of its ramp before this one too (R412). -/
def tieConfirmed (c : Chip) (n : Fin 8) (others : List (Fin 8 × Int)) : List (Fin 8) :=
  (List.finRange 8).filter fun m => (tieCandidates c n others).getLsbD m && (spur c n).tieCand.getLsbD m

/-- SPUR_RAMP_COMPLETE (R394, R412, R438). -/
def rampComplete (nvm : Nvm) (n : Fin 8) (others : List (Fin 8 × Int)) (c : Chip) : Chip :=
  let s := spur c n
  match s.st, s.ramp with
  | .rampUp, some r =>
    let est : Option RampEst :=
      if r.resumed || r.limited then none else some { start := r.start, end_ := c.now, q := s.rampQ, readAt := none }
    (tieConfirmed c n others).foldl (fun c m => tieRuntime nvm n m c) (updSpur n (fun s => { s with
      st := .on, onAt := c.now, ramp := none, tieCand := tieCandidates c n others, est := est, overs := 0, diagAt := c.now
      tR := if r.limited then min ((spurCfg c n).ssMax * 50) (2 * s.tR) else s.tR }) c)
  | _, _ => c

def execSpurRampComplete (t : Time) (n : Fin 8) (others : List (Fin 8 × Int)) (s : State) : Outcome :=
  run t (fun nvm c => rampComplete nvm n others c) s

/-- The output of a ramp-down has fallen below 0.5 V (R393, R403, R430). -/
def rampdownComplete (n : Fin 8) (mv : Int) (c : Chip) : Chip :=
  if (spur c n).st = .rampDown ∧ mv < 500 then
    takeCommand n (updSpur n (fun s => openSwitch c.now s.offCause s) c)
  else c

def execSpurRampdownComplete (t : Time) (n : Fin 8) (mv : Int) (s : State) : Outcome :=
  run t (fun _ c => rampdownComplete n mv c) s

/-- The analog current limit of a conducting switch is entered or left (R395, R398). -/
def currentLimit (n : Fin 8) (inLimit : Bool) (c : Chip) : Chip :=
  if conducting (spur c n).st then
    updSpur n (fun s => { s with
      limiting := inLimit, limAt := if inLimit && !s.limiting then c.now else s.limAt
      ramp := s.ramp.map fun r => { r with limited := r.limited || (inLimit && s.st == .rampUp) } }) c
  else c

def execSpurCurrentLimit (t : Time) (n : Fin 8) (inLimit : Bool) (s : State) : Outcome :=
  run t (fun _ c => currentLimit n inLimit c) s

/-- A failure by the current limit. -/
def limitFail (nvm : Nvm) (n : Fin 8) (cause : Nat) (c : Chip) : Chip :=
  spurFail nvm n cause [F.spurShort n] (updSpur n (fun s => { s with limFailAt := some c.now }) c)

/-- The current limit has been held for more than 1 ms (R400). -/
def limitHeld (nvm : Nvm) (n : Fin 8) (durNs : Nat) (c : Chip) : Chip :=
  let s := spur c n
  if !(s.limiting && decide (ms 1 < durNs)) then c
  else match s.st with
    | .rampUp => limitFail nvm n 0x02 c
    | .on => limitFail nvm n 0x04 c
    | _ => c

def execSpurLimitHeld (t : Time) (n : Fin 8) (durNs : Nat) (s : State) : Outcome :=
  run t (fun nvm c => limitHeld nvm n durNs c) s

/-- The output has not reached 90 % of V_BUS at its deadline (R400, R428). -/
def rampDeadline (nvm : Nvm) (n : Fin 8) (mv : Int) (c : Chip) : Chip :=
  let s := spur c n
  match s.st, s.ramp with
  | .rampUp, some r =>
    if decide (r.from_ + us s.tR + ms 2 ≤ c.now) && decide ((mv : Rat) * 10 < 9 * c.meas.vBus.precHeld) then
      spurFail nvm n 0x03 [F.spurShort n] c
    else c
  | _, _ => c

def execSpurRampDeadline (t : Time) (n : Fin 8) (mv : Int) (s : State) : Outcome :=
  run t (fun nvm c => rampDeadline nvm n mv c) s

/-- The failure of the current limit that falls due now, by its cause. -/
def limitDue (c : Chip) (s : Spur) : Option Nat :=
  if s.limiting && decide (s.limAt + ms 1 < c.now) then
    match s.st with
    | .rampUp => some 0x02
    | .on => some 0x04
    | _ => none
  else none

/-- The junction of a conducting switch reaches 175 °C (R400, R404). With a failure by the current limit at the same instant,
in either order, both bits are set and one retry is counted (R437). -/
def thermalShutdown (nvm : Nvm) (n : Fin 8) (tj : Int) (c : Chip) : Chip :=
  let s := spur c n
  if tj < 175 then c
  else if conducting s.st then
    let both := limitDue c s
    let c := updSpur n (fun s => both.elim { s with hot := true } fun k => countFail k { s with hot := true }) c
    spurFail nvm n 0x06 (F.spurThermal n :: if both.isSome then [F.spurShort n] else []) c
  else if s.limFailAt = some c.now ∧ s.hot = false then
    setFault (F.spurThermal n) (updSpur n (fun s => countFail 0x06 { s with hot := true }) c)
  else c

def execSpurThermalShutdown (t : Time) (n : Fin 8) (tjDeg : Int) (s : State) : Outcome :=
  run t (fun nvm c => thermalShutdown nvm n tjDeg c) s

/-- The interval of RETRY_WAIT has passed (R393, R404, R431). -/
def retryExpiry (n : Fin 8) (c : Chip) : Chip :=
  let s := spur c n
  if s.st = .retryWait ∧ s.waitAt + ms 100 ≤ c.now then
    if !s.cmd then updSpur n (fun s => { s with st := .off }) c
    else if s.hot then c
    else updSpur n (startRamp c.now) c
  else c

/-- The junction has cooled below 155 °C (R404): a start that waited for it happens. -/
def thermalCooled (n : Fin 8) (tj : Int) (c : Chip) : Chip :=
  if (spur c n).hot ∧ tj < 155 then
    takeCommand n (retryExpiry n (updSpur n (fun s => { s with hot := false }) c))
  else c

def execSpurThermalCooled (t : Time) (n : Fin 8) (tjDeg : Int) (s : State) : Outcome :=
  run t (fun _ c => thermalCooled n tjDeg c) s

def execSpurRetryWaitExpiry (t : Time) (n : Fin 8) (s : State) : Outcome := run t (fun _ c => retryExpiry n c) s

/-- Backfeed in RAMP_UP or ON (R406, R434). -/
def backfeedOn (nvm : Nvm) (n : Fin 8) (overMv : Int) (c : Chip) : Chip :=
  let s := spur c n
  if (s.st = .rampUp ∨ s.st = .on) ∧ 300 ≤ overMv then blockSpur nvm n c else c

def execSpurBackfeedOn (t : Time) (n : Fin 8) (overMv : Int) (s : State) : Outcome :=
  run t (fun nvm c => backfeedOn nvm n overMv c) s

/-- BLOCKED ends when every VALID voltage conversion over 1 s reads below 2.0 V (R393). -/
def blockedRelease (n : Fin 8) (c : Chip) : Chip :=
  let s := spur c n
  let recent := s.vHist.filter fun p => decide (c.now ≤ p.2 + sec 1)
  if s.st = .blocked ∧ s.blockedAt + sec 1 ≤ c.now ∧ recent ≠ [] ∧ recent.all (fun p => decide (p.1 < 2000)) then
    takeCommand n (updSpur n (fun s => { s with st := .off }) c)
  else c

def execSpurBlockedRelease (t : Time) (n : Fin 8) (s : State) : Outcome := run t (fun _ c => blockedRelease n c) s

/-- A spur under its default policy or in LIMP has stayed in ON for 60 s (R402). -/
def retryReset (n : Fin 8) (c : Chip) : Chip :=
  let s := spur c n
  if s.st = .on ∧ s.onAt + sec 60 ≤ c.now ∧ (inLimp c ∨ hasGuests c n = false) then
    updSpur n (fun s => { s with retries := 0 }) c
  else c

def execSpurRetryCountReset (t : Time) (n : Fin 8) (s : State) : Outcome := run t (fun _ c => retryReset n c) s

/-- A probe of a FAULTED spur falls due (R403). -/
def faultedProbe (n : Fin 8) (c : Chip) : Chip :=
  let s := spur c n
  if s.st = .faulted ∧ s.probeHeld = false ∧ s.probeAt + minutes 10 ≤ c.now then
    takeCommand n (updSpur n (fun s => { s with probeHeld := true }) c)
  else c

def execSpurFaultedProbe (t : Time) (n : Fin 8) (s : State) : Outcome := run t (fun _ c => faultedProbe n c) s

/-- A probe has succeeded: ON without a failure until 1 s after it began (R403). -/
def probeSuccess (n : Fin 8) (c : Chip) : Chip :=
  let s := spur c n
  match s.probing with
  | some p =>
    if s.st = .on ∧ p + sec 1 ≤ c.now then updSpur n (fun s => { s with probing := none, retries := 0 }) c else c
  | none => c

def execSpurProbeSuccess (t : Time) (n : Fin 8) (s : State) : Outcome := run t (fun _ c => probeSuccess n c) s

/-- The off-state test that follows an undiagnosed slot ends (R414, R432). -/
def offStateTest (n : Fin 8) (mv : Int) (c : Chip) : Chip :=
  let s := spur c n
  if s.testDue && s.st == .off && !s.cmd && (s.vHist.head?).elim false (fun p => decide (p.1 < 200)) then
    let c := updSpur n (fun s => { s with testDue := false, sinceTest := 0, cover := updAt s.cover 0 fun _ => true }) c
    diagnose n (decide (1000 < mv)) c
  else c

def execSpurOffStateTestEnd (t : Time) (n : Fin 8) (mv : Int) (s : State) : Outcome :=
  run t (fun _ c => offStateTest n mv c) s

/-- The diagnosis once a second of a spur without slots (R415). -/
def continuousDiagnosis (n : Fin 8) (mv : Int) (c : Chip) : Chip :=
  let s := spur c n
  if (inLimp c || !hasGuests c n) && decide (s.diagAt + sec 1 ≤ c.now) then
    match s.st with
    | .on =>
      let c := updSpur n (fun s => { s with diagAt := c.now, onQ := (0, 0) }) c
      (onMean s).elim c fun i => diagnose n (decide (i < 2)) c
    | .off =>
      if s.cmd then c else diagnose n (decide (1000 < mv)) (updSpur n (fun s => { s with diagAt := c.now }) c)
    | _ => c
  else c

def execSpurContinuousDiagnosis (t : Time) (n : Fin 8) (mv : Int) (s : State) : Outcome :=
  run t (fun _ c => continuousDiagnosis n mv c) s

/-- The greatest excess over its own allowance among the spurs that are on; of equals the higher-numbered (R418). -/
def greatestExcess (c : Chip) : Option (Fin 8) :=
  let excess (n : Fin 8) : Rat :=
    ((spur c n).iLast).getD 0 - (if hasGuests c n then (guestAllowance c n : Rat) else spurAllowance c)
  ((List.finRange 8).filter fun n => (spur c n).st == .on).foldl (fun b n =>
    match b with
    | none => some n
    | some m => if excess m ≤ excess n then some n else some m) none

/-- A total has exceeded its limit for 100 ms (R418). -/
def totalOverload (nvm : Nvm) (c : Chip) : Chip :=
  let old (o : Option Time) : Bool := o.elim false fun t => decide (t + ms 100 ≤ c.now)
  if !(old c.totals.all || old c.totals.low || old c.totals.high) then c
  else
    let c := { setFault F.spurTotal c with totals := {} }
    match greatestExcess c with
    | none => c
    | some n => if hasGuests c n then cutSpur nvm n 0x09 c else spurFail nvm n 0x09 [] c

def execSpurTotalOverload (t : Time) (s : State) : Outcome := run t (fun nvm c => totalOverload nvm c) s

end Sys2Proof.Machine
end

