-- ==== Sys2Proof/Machine/Count.lean ====
section
/-! DEFINITION. Coulomb counting, metering of the pack and the sampling-rate governor (R446 … R452, R372, R503, R520). -/

namespace Sys2Proof.Machine

/-! ### Modulators running and stopped (R173, R220, R450) -/

/-- A channel whose paths restart (R171, R172). -/
def restartCh (x : ModCh) : ModCh :=
  { x with running := true, fastSettle := 2, precSettle := 3, chop := none, paired := false, subFast := [], subPrec := [] }

def mapChans (f : ModCh → ModCh) (c : Chip) : Chip :=
  { c with meas := { c.meas with
      iA := f c.meas.iA, iB := f c.meas.iB, iP := f c.meas.iP, vBus := f c.meas.vBus, vPack := f c.meas.vPack } }

/-- Starts the channels that stand still. -/
def startMods (c : Chip) : Chip := mapChans (fun x => if x.running then x else restartCh x) c

/-- Stops the channels; a slow-chop block pair in progress is discarded (R220). -/
def stopMods (c : Chip) : Chip := mapChans (fun x => { x with running := false, chop := none }) c

/-- The modulators run: in FULL, in an on-window or in a burst. -/
def modsWanted (c : Chip) : Bool := c.gauge.gov.st == .full || c.gauge.gov.win.isSome || c.gauge.gov.burst.isSome

def updGov (f : Gov → Gov) (c : Chip) : Chip := { c with gauge.gov := f c.gauge.gov }

/-- Starts or stops the modulators as the governor wants them, and keeps the time for which they ran (R449). -/
def followMods (c : Chip) : Chip :=
  match c.gauge.gov.runAt, modsWanted c with
  | none, true => updGov (fun g => { g with runAt := some c.now }) (startMods c)
  | some t, false =>
    updGov (fun g => { g with runAt := none, runNs := g.runNs + (c.now - t) }) (stopMods c)
  | _, true => startMods c
  | none, false => c

/-! ### Charge (R446, R372, R520) -/

/-- The measured word period T_w, ns (R175). -/
def wordNs (c : Chip) : Rat := 163840 / (1 + (c.meas.modError : Rat) / 10000000)

/-- Charge in mA·ns as counter units of 2^−20 µAh. -/
def unitsOf (q : Rat) : Rat := q * 1048576 / 3600000000

/-- Charge in mA·ns as mAh. -/
def mahOf (q : Rat) : Rat := q / 3600000000000

/-- End of discharge clears once 2 % of Q_FCC have been counted in (R471). -/
def clearEod (c : Chip) : Chip :=
  if c.gauge.eod && decide (c.learn.qFcc * 2 / 100 ≤ unitsMah (c.gauge.cnt.n - c.gauge.eodN0)) then
    { c with gauge.eod := false, gauge.eodN := 0, learn.floorFree := true }
  else c

/-- Charge out of the pack, mA·ns, leaves the counter, and what is no whole unit waits for the next (R446) (DEDUCED, log
entry 147). -/
def countUnits (q : Rat) (c : Chip) : Chip :=
  let x := unitsOf q + c.gauge.cnt.rest
  let n := roundRat x
  { c with gauge.cnt.n := c.gauge.cnt.n - n, gauge.cnt.rest := x - (n : Rat) }

/-- Counts charge that leaves the pack through RSNS_P or to the gauge; without a pack the counter stands (R446, R485). -/
def countOut (q : Rat) (c : Chip) : Chip :=
  if c.prs.present then limpCount (mahOf q) (clearEod (countCycle (mahOf q) (countUnits q c))) else c

/-- Charge through RSNS_P, mA·ns, at `v` mV enters the energy sums (R372). -/
def meterPack (q v : Rat) (c : Chip) : Chip :=
  let e := q * v / 1000000000000
  let c := { c with learn.packE := c.learn.packE + e }
  if 0 < e then { c with pack.eOut := c.pack.eOut + e }
  else { c with pack.eIn := c.pack.eIn - e }

/-- The V_PACK value that a word enters with (R447): its full scale when OVER, otherwise the last VALID value. -/
def packVoltNow (c : Chip) : Rat := if c.meas.vPack.prec.status = .overRange then c.meas.vPack.prec.value else packMv c

/-- A pair of precise words of I_P and V_PACK with one stamp enters the energy sums in FULL (R372). -/
def meterPackPair (c : Chip) : Chip :=
  let i := c.meas.iP.prec
  let v := c.meas.vPack.prec
  if i.at_ ≠ v.at_ ∨ c.gauge.gov.st ≠ .full then c
  else
    let (ps, ws) := meterPairs c.pack.wait i v (wordNs c)
    ps.foldl (fun c p => meterPack (maOf (cfg c).pack.rsns p.i * p.dt) p.v c) { c with pack.wait := ws }

/-- The charge of a VALID, OVER or OPEN word over `dt` ns: counted at once in FULL, gathered in a burst (R446, R452). In CHARGE
it enters the session of the charger. -/
def takeCharge (w : Sample) (dt : Rat) (c : Chip) : Chip :=
  let q := packMa c w * dt
  let c := if c.pack.st = .charge then { c with chg.session := c.chg.session - mahOf q } else c
  let c := updGov (fun g => { g with wordQ := g.wordQ + q }) c
  if c.gauge.gov.st = .full then countOut q c else c

/-- Follows a run of OPEN and OVER words (R448). -/
def followGap (st : Status) (c : Chip) : Chip :=
  match st with
  | .opn | .overRange => { c with gauge.cnt.gapAt := some (c.gauge.cnt.gapAt.getD c.now) }
  | _ => { c with gauge.cnt.gapAt := none, gauge.cnt.gap := false }

/-- The time since a burst began, but for its last `d` ns, waits for the next VALID word (R447). -/
def spanToWait (d : Nat) (c : Chip) : Chip :=
  match c.gauge.cnt.from_ with
  | some f => { c with gauge.cnt.from_ := none, gauge.cnt.wait := c.gauge.cnt.wait + ((c.now - f) - d) }
  | none => c

/-- The words of I_P are counted one by one: in FULL and in a burst (R446, R452). -/
def wordsCount (c : Chip) : Bool := c.gauge.gov.st == .full || c.gauge.gov.burst.isSome

/-- A precise I_P word is counted (R446, R447). In a duty state outside a burst it gives only the time that waits its value
(R452). With MOD out of its band in LIMP, counting is held (R225). -/
def countCharge (w : Sample) (c : Chip) : Chip :=
  let word := (roundRat (wordNs c)).toNat
  if c.seq.mode == .limp && c.meas.modBad then c
  else match w.status with
    | .settle =>
      if c.gauge.cnt.from_.isSome || !wordsCount c then c else { c with gauge.cnt.wait := c.gauge.cnt.wait + word }
    | .valid =>
      let own : Rat := match c.gauge.cnt.from_ with
        | some f => ((c.now - f : Nat) : Rat)
        | none => if wordsCount c then wordNs c else 0
      takeCharge w (own + (c.gauge.cnt.wait : Rat)) { c with gauge.cnt.wait := 0, gauge.cnt.from_ := none }
    | _ => if wordsCount c then takeCharge w (wordNs c) (spanToWait word c) else c

/-- A precise I_P word forms P (R372) and is counted. -/
def countWord (w : Sample) (c : Chip) : Chip :=
  countCharge w (followGap w.status { c with pack.power := packMa c w * packVoltNow c / 1000 })

/-- A VALID V_PACK word counts towards the first estimate, with the I_P word of its stamp (R473). -/
def countV0 (w : Sample) (c : Chip) : Chip :=
  if c.prs.present && w.status == .valid && decide (c.gauge.v0n < 64) && !c.gauge.formed then
    { c with gauge := { c.gauge with
        v0n := c.gauge.v0n + 1, v0V := c.gauge.v0V + w.value, v0I := c.gauge.v0I + packMa c c.meas.iP.prec } }
  else c

/-- The counter starts at zero when the pack becomes present (R446), and so does the hour of R503. -/
def startCounter (c : Chip) : Chip :=
  { c with
    gauge := { c.gauge with
      cnt := { c.gauge.cnt with n := 0, rest := 0, wait := 0, gapAt := none, gap := false }
      updN := 0, v0n := 0, v0V := 0, v0I := 0 }
    learn.parkedE := [], learn.dsgNew := 0 }

/-! ### Governor (R450 … R452, Table 10.4) -/

/-- Length of the on-window. -/
def onWindow (g : GovSt) : Time := if g = .duty05 then ms 5 else ms 20

/-- The time covered by bursts in this second up to now. -/
def burstTime (c : Chip) : Nat :=
  c.gauge.gov.burstNs + c.gauge.gov.burst.elim 0 fun b => c.now - max b c.gauge.gov.secAt

/-- Mean V_PACK of the latest on-window, mV (R372). -/
def windowVolt (c : Chip) : Rat :=
  match validOf (wordsIn c.meas.vPack c.gauge.gov.winStart c.gauge.gov.winEnd) with
  | [] => packMv c
  | ws => meanRat (ws.map (·.value))

/-- Q_out of R452 for the part of the governor second up to now. -/
def dutyCharge (c : Chip) : Rat :=
  let g := c.gauge.gov
  g.iBase * (((c.now - g.secAt) - burstTime c : Nat) : Rat) + g.spurQ + g.wordQ

/-- Counts the second, or its part up to now, under R452. -/
def countDuty (c : Chip) : Chip :=
  let q := dutyCharge c
  let c := meterPack q (windowVolt c) (countOut q c)
  updGov (fun g => { g with wordQ := q, spurQ := 0 }) c

/-- The governor leaves a duty state for FULL (R450, R486). A span that no VALID word has followed yet goes on waiting for
one (R447). -/
def leaveDuty (c : Chip) : Chip :=
  if c.gauge.gov.st = .full then c
  else
    let c := countDuty c
    followMods (updGov (fun g => { g with st := .full, qual := 0, win := none, burst := none, burstNs := 0 }) c)

/-- Slot-edge reads of the spurs that are on, for the start or end of a burst (R452). -/
def burstReads (c : Chip) : Chip :=
  let ns := (List.finRange 8).filter fun n => (spur c n).st == .on
  { c with aux.edges := c.aux.edges ++ ns.map fun n => { spur := n, kind := .governor } }

/-- A burst begins (R451, R174). -/
def startBurst (c : Chip) : Chip :=
  if c.gauge.gov.st = .full ∨ c.gauge.gov.burst.isSome then c
  else
    let c := updGov (fun g => { g with
      burst := some c.now, quietAt := none, bursts := satInc 65535 g.bursts, winBurst := g.winBurst || g.win.isSome }) (burstReads c)
    followMods { c with gauge.cnt.from_ := some c.now }

/-- The wake comparator's threshold, µV (R451). -/
def wakeUv (c : Chip) : Rat := 2 * ((cfg c).gauge.quiet : Rat) * ((cfg c).pack.rsns : Rat) / 1000

def wakeCrossing (uv : Int) (c : Chip) : Chip := if wakeUv c ≤ absRat (uv : Rat) then startBurst c else c

/-- A fast I_P word of a burst is looked at for its end (R451). -/
def followQuiet (w : Sample) (c : Chip) : Chip :=
  let quiet := decide (absRat (packMa c w) < ((cfg c).gauge.quiet : Rat))
  updGov (fun g => { g with quietAt := holdsSince c.now g.quietAt (g.burst.isSome && quiet) }) c

/-- The end of a burst: |I_P| on the fast path has stayed below QUIET for 10 ms (R451). -/
def burstEnd (c : Chip) : Chip :=
  match c.gauge.gov.burst with
  | none => c
  | some _ =>
    if heldFor c (ms 10) c.gauge.gov.quietAt then
      let n := burstTime c
      followMods (updGov (fun g => { g with burst := none, burstNs := n }) (spanToWait 0 (burstReads c)))
    else c

/-- The spurs that have been on at some time since `w`. -/
def onSince (c : Chip) (w : Time) : List (Fin 8) :=
  (List.finRange 8).filter fun n => (spur c n).st == .on || decide (w < (spur c n).leftOn)

/-- I_base from the on-window that ends (R452). -/
def windowBase (w : Time) (c : Chip) : Rat :=
  let ws := validOf (wordsIn c.meas.iP w c.now)
  if c.gauge.gov.winBurst || ws.isEmpty then c.gauge.gov.iBase
  else meanPackMa c ws - spurSum c (onSince c w)

/-- The start or the end of an on-window (R450). -/
def governorWindow (start : Bool) (c : Chip) : Chip :=
  let g := c.gauge.gov
  if g.st = .full then c
  else match start, g.win with
    | true, none =>
      if g.secAt ≤ g.winStart ∧ 0 < g.winStart then c
      else followMods (updGov (fun g => { g with win := some c.now, winBurst := g.burst.isSome }) c)
    | false, some w =>
      if c.now < w + onWindow g.st then c
      else
        let base := windowBase w c
        followMods (updGov (fun g => { g with win := none, winStart := w, winEnd := c.now, iBase := base }) c)
    | _, _ => c

/-- The governor's next state after a second of mean current `i` mA (Table 10.4). -/
def govNext (c : Chip) (i : Rat) : GovSt × Nat :=
  let q : Rat := ((cfg c).gauge.quiet : Rat)
  let g := c.gauge.gov
  let n := satInc 65535 g.qual
  match g.st with
  | .full =>
    if c.seq.mode = .parked ∧ i < q then (if 60 ≤ n then (.duty2, 0) else (.full, n)) else (.full, 0)
  | .duty2 =>
    if q ≤ i then (.full, 0) else if i * 4 < q then (if 3600 ≤ n then (.duty05, 0) else (.duty2, n)) else (.duty2, 0)
  | .duty05 => if q ≤ i then (.full, 0) else if q ≤ i * 4 then (.duty2, 0) else (.duty05, 0)

/-- The draw of the gauge itself, mA, in PARKED (R449) (DEDUCED, log entry 72). -/
def selfMa (d : Rat) : Rat := 32 / 1000 + 5 / 2 * d

/-- The modulators' share of the governor second (R449). -/
def modDuty (c : Chip) : Rat :=
  let g := c.gauge.gov
  let ran := g.runNs + g.runAt.elim 0 fun t => c.now - max t g.secAt
  clampRat 0 1 (qdiv (ran : Rat) ((c.now - g.secAt : Nat) : Rat))

/-- The part of this governor second that is spent in PARKED up to now, ns. -/
def parkedNs (c : Chip) : Nat := if c.seq.mode = .parked then c.now - max c.gauge.gov.secAt c.seq.modeAt else 0

/-- I_SELF is subtracted for the part of this second that is spent in PARKED (R449, R486) (DEDUCED, log entry 72). -/
def countSelf (c : Chip) : Chip :=
  let q := selfMa (modDuty c) * (parkedNs c : Rat)
  updGov (fun g => { g with selfQ := g.selfQ + q }) (countOut q c)

/-- The powers of the second for P_BASE and TTF (R503, R506). -/
def notePowers (qs self : Rat) (c : Chip) : Chip :=
  let l := c.learn
  let base := l.packE - l.slotE + packMv c * self / 1000
  { c with learn := { l with
      parkedE := if c.seq.mode = .parked && c.prs.present then (base :: l.parkedE).take 3600 else l.parkedE
      idleE := (l.idleNow :: l.idleE).take 3600
      chgI := if c.pack.st = .charge then (-(qs / 1000000000) :: l.chgI).take 60 else l.chgI
      packE := 0, slotE := 0, idleNow := 0 } }

/-- A governor second ends (R449 … R452). -/
def governorSecond (c : Chip) : Chip :=
  if c.now < c.gauge.gov.secAt + sec 1 then c
  else
    let d := modDuty c
    let c := countSelf (if c.gauge.gov.st = .full then c else countDuty c)
    let q := c.gauge.gov.wordQ
    let self := c.gauge.gov.selfQ / 1000000000
    let i := q / 1000000000 + self
    let (st, qual) := govNext c (absRat i)
    let c := notePowers q self c
    followMods (updGov (fun g => { g with
      st := st, qual := qual, secAt := c.now, wordQ := 0, spurQ := 0, selfQ := 0, burstNs := 0, runNs := 0
      runAt := g.runAt.map fun t => max t c.now, iSec := i
      iSelf := self * 1000, duty := satR 16 (d * 10000)
      burst := if st = .full then none else g.burst, win := if st = .full then none else g.win }) c)

/-- The gap test of R448. -/
def countGap (c : Chip) : Chip :=
  match c.gauge.cnt.gapAt with
  | some t =>
    if !c.gauge.cnt.gap && decide (t + sec 1 < c.now) then
      setFault F.countGap { c with gauge.cnt.gap := true, gauge.cnt.gaps := c.gauge.cnt.gaps + 1 }
    else c
  | none => c

/-! ### Meanings -/

def execGovernorOnWindow (t : Time) (start : Bool) (s : State) : Outcome := run t (fun _ c => governorWindow start c) s

/-- GOVERNOR_SECOND (R452). -/
def execGovernorSecond (t : Time) (s : State) : Outcome := run t (fun _ c => governorSecond c) s

def execWakeComparatorCrossing (t : Time) (uv : Int) (s : State) : Outcome := run t (fun _ c => wakeCrossing uv c) s

def execBurstEnd (t : Time) (_maxMa _durNs : FromWords) (s : State) : Outcome :=
  run t (fun _ c => burstEnd c) s

def execCountGap (t : Time) (s : State) : Outcome := run t (fun _ c => countGap c) s

/-- REST_SECOND (R453). -/
def execRestSecond (t : Time) (s : State) : Outcome := run t (fun _ c => restSecond c) s

/-- ANCHOR_DUE (R456). -/
def execAnchorDue (t : Time) (s : State) : Outcome := run t (fun _ c => anchorDue c) s

/-- The estimator's update is due (R458). -/
def updateDue (c : Chip) : Bool :=
  match c.seq.mode with
  | .coupled | .depot => decide (c.gauge.updAt + ms 250 ≤ c.now)
  | .parked =>
    if c.gauge.gov.st = .full then decide (c.gauge.updAt < c.gauge.gov.secAt)
    else decide (c.gauge.updAt < c.gauge.gov.winEnd) && c.gauge.gov.win.isNone
  | .limp => decide (c.gauge.updAt + sec 1 ≤ c.now)
  | _ => false

/-- An update of the estimator with everything it hands over (R458, R477). -/
def estimatorUpdate (nvm : Nvm) (c : Chip) : Chip :=
  if !updateDue c then c
  else if inLimp c then limpReport c
  else if !(c.gauge.formed && c.prs.present) then c
  else
    let dt := c.now - c.gauge.updAt
    let q := -dqOut c
    let c := estimatorPass c
    let c := { c with gauge.updAt := c.now, gauge.updN := c.gauge.cnt.n }
    report nvm q dt c

/-- ESTIMATOR_UPDATE (R458). -/
def execEstimatorUpdate (t : Time) (s : State) : Outcome := run t (fun nvm c => estimatorUpdate nvm c) s

/-- The first estimate (R472, R473). -/
def firstEstimate (nvm : Nvm) (c : Chip) : Chip :=
  if firstReady c then
    let (c, kept) := firstEstimateCore nvm c
    firstReport nvm kept c
  else c

/-- FIRST_ESTIMATE (R472). -/
def execFirstEstimate (t : Time) (s : State) : Outcome := run t (fun nvm c => firstEstimate nvm c) s

/-- A phase of an impedance measurement ends (R516); the phases run while a pack with an estimate is present. -/
def execImpedancePhaseEnd (t : Time) (s : State) : Outcome := run t (fun _ c => impPhaseEnd c) s

end Sys2Proof.Machine
end

