-- ==== Sys2Proof/Machine/Pack.lean ====
section
/-! DEFINITION. The pack path (chapter 8): its states, pre-charge, the ideal diode, failures and retries, mirage and
reversal, the charging policy with its ends, and the share loop of a pair. -/

namespace Sys2Proof.Machine

/-! ### Voltages, currents and conditions -/

/-- The latest VALID V_BUS word, mV (DEDUCED, log entry 66). -/
def busMv (c : Chip) : Rat := c.meas.vBus.precHeld

/-- C.PACK.CELLS times a voltage per cell, mV. -/
def cellsTimes (c : Chip) (mv : Nat) : Rat := (((cfg c).pack.cells * mv : Nat) : Rat)

/-- The mean of the VALID precise words of a current channel over the latest `win` ns, mA; none without one. -/
def recentMean (c : Chip) (ch : ChId) (win : Time) : Option Rat :=
  match validOf (wordsIn (chan c ch) (c.now - win) c.now) with
  | [] => none
  | ws => some (maOf (rsnsOf c ch) (meanRat (ws.map (·.value))))

/-- A feed channel carries forward current (R317). -/
def feedCarrying (c : Chip) (f : FeedId) : Bool :=
  (feed c f).st == .on && (recentMean c (feedChan f) (ms 1)).elim false fun i => decide (10 ≤ i)

def anyCarrying (c : Chip) : Bool := feedCarrying c .a || feedCarrying c .b

/-- Follows since when a feed has carried forward current (R354). -/
def followCarrying (c : Chip) : Chip :=
  { c with pack.fedAt := if anyCarrying c then some (c.pack.fedAt.getD c.now) else none }

/-- I_MEAS: −I_P, the mean over the latest 100 ms, mA. -/
def iMeas (c : Chip) : Rat := -((recentMean c .iP (ms 100)).getD (maOf (cfg c).pack.rsns c.meas.iP.precHeld))

/-- The cell count of the authenticated profile equals C.PACK.CELLS (R354). -/
def cellsMatch (c : Chip) : Bool := u8At c.tag.header 6 == (cfg c).pack.cells

/-- V_PACK is below the deep-discharge limit. -/
def deepPack (c : Chip) : Bool := decide (packMv c < cellsTimes c 1500)

/-- The connection is authorised (R339). -/
def authorised (c : Chip) : Bool := authentic c || (cfg c).pack.unauth == 0

/-- A feed is in INRUSH, which holds the path in WAIT (R381). -/
def feedInrush (c : Chip) : Bool := c.feedA.st == .inrush || c.feedB.st == .inrush

/-- A feed is in INRUSH or runs a re-enable. -/
def inrushing (c : Chip) : Bool := c.feedA.inr.isSome || c.feedB.inr.isSome

/-- Pre-charge is permitted (R339). -/
def prechargePermitted (c : Chip) : Bool :=
  authorised c && !inrushing c && (match c.seq.mode with
    | .coupled | .depot | .limp => true
    | .configure => decide (5 ≤ c.seq.step) && decide (c.seq.step ≤ 8)
    | _ => false)

/-- The completion band is met (R340). -/
def bandMet (c : Chip) : Bool := decide (packMv c - busMv c ≤ 1000)

/-- The re-enable is inhibited (R346). -/
def reenableInhibited (c : Chip) : Bool :=
  (match c.seq.mode with
    | .parked | .coupled | .depot | .limp => false
    | _ => true)
    || c.pack.st == .charge || deepPack c || (anyFeed c && (c.tmp.cold || c.tmp.hot || c.gauge.eod))

/-- The pack's gates are all sunk in this state (Table 8.1). -/
def packSunkSt (s : PackSt) : Bool :=
  match s with
  | .precharge | .standby | .diode | .charge => false
  | _ => true

/-- The path is connected. -/
def packConnected (s : PackSt) : Bool :=
  match s with
  | .standby | .diode | .charge => true
  | _ => false

/-! ### Changes of state -/

/-- The tell-tale test of the pack's sense pair may run in this state (R369) (DEDUCED, log entry 85). -/
def kelvinPack (s : PackSt) : Bool :=
  match s with
  | .noPack | .retryWait | .latched | .isolated | .reversed | .faultHold => true
  | _ => false

/-- Enters a state: the marks that go with leaving and entering the connected and the sunk states. A tell-tale test ends
where it may not run. -/
def enterPack (st : PackSt) (c : Chip) : Chip :=
  let p := c.pack
  { c with pack := { p with
      st := st
      offAt := if packSunkSt st && !packSunkSt p.st then c.now else p.offAt
      goodAt := if packConnected st && !packConnected p.st then c.now else p.goodAt
      standbyAt := if st = .standby && p.st ≠ .standby then c.now else p.standbyAt
      peak := if st = .diode && p.st ≠ .diode then 0 else p.peak
      cpLow := p.cpLow && (packConnected st || st == .precharge)
      diodeRan := p.diodeRan || st == .diode
      kTest := if kelvinPack st then p.kTest else none
      mirage := p.mirage && st == .faultHold
      vTp := if st = .charge then 2000 else if p.st = .charge then 20 else p.vTp } }

/-- The same with an off cause. -/
def packOff (st : PackSt) (cause : Nat) (c : Chip) : Chip :=
  let c := enterPack st c
  { c with pack.offCause := cause }

/-- The end of charging is recorded, CHG_SET goes to 0, and TTF reads no time (R359, Table 8.4, R506). -/
def noteEnd (cause : Nat) (c : Chip) : Chip :=
  { c with
    gauge.eocN := 0, gauge.eocPend := false
    learn.ttf := noTime
    chg := { c.chg with
        set := 0, lastEnd := (cause, sampleMs24 c), spanPoint := false, kBadAt := none
        holdAt := if cause = 0x03 ∨ cause = 0x04 then some c.now else c.chg.holdAt
        counts := if cause = 0x02 then bump 255 1 c.chg.counts
                  else if cause = 0x03 then bump 255 2 c.chg.counts else c.chg.counts } }

/-- Charging ends (R359): CHG_EN low and CHG_SET 0 with the path in `next` (DEDUCED, log entry 68). -/
def endCharge (cause : Nat) (next : PackSt) (c : Chip) : Chip :=
  if charging c then noteEnd cause (enterPack next c) else c

/-- A failure of the path (R337, R338). -/
def packFail (cause : Nat) (c : Chip) : Chip :=
  let c := endCharge 0x05 .standby c
  let c := { c with pack.lastFail := (cause, sampleMs24 c), pack.goodAt := c.now }
  if c.pack.retries < 3 then
    let c := packOff .retryWait cause c
    { c with pack.retries := c.pack.retries + 1, pack.waitAt := c.now }
  else setFault F.packLatched (packOff .latched cause c)

/-- The path in WAIT is judged for ISOLATED (R343, R344, Table 8.2). -/
def waitChecks (c : Chip) : Chip :=
  if c.pack.st ≠ .wait then c
  else if cellsTimes c ((cfg c).charger.vChg + 200) < packMv c then setFault F.packOv (packOff .isolated 0x0B c)
  else if (cfg c).pack.unauth == 1 && (c.tag.verdict == .notAuthenticated || c.tag.verdict == .silent) then
    packOff .isolated 0x0C c
  else c

/-- The path enters WAIT. -/
def enterWait (c : Chip) : Chip := waitChecks (enterPack .wait c)

/-- CHARGE goes on only while these hold (R847). -/
def chargeKeeps (c : Chip) : Bool :=
  (c.seq.mode == .coupled || c.seq.mode == .depot) && fitted c 2 && authentic c && cellsMatch c && !c.tmp.chgClosed
    && !sensorInhibit c && !deepPack c && !(c.chg.latOv || c.chg.latCur || c.chg.latNo || c.chg.latOver)

/-- What a change elsewhere brings about on the pack path: the end of charging (R847) and the inhibit of the re-enable
(R346). The deep-discharge latch goes when V_PACK is high enough (Table 8.5). -/
def packPolicies (c : Chip) : Chip :=
  let c := if c.chg.latDeep && !deepPack c then { c with chg.latDeep := false } else c
  let c := if c.pack.st = .charge ∧ chargeKeeps c = false then endCharge 0x01 .standby c else c
  if c.pack.st = .diode ∧ reenableInhibited c = true then packOff .standby 0x0F c else c

/-- The path leaves CHARGE for DIODE as the pack takes the rail (R358); a stopped GATE domain turns PK_GC not on, and the path
stands in STANDBY (R208) (DEDUCED, log entry 140). -/
def handBack (c : Chip) : Chip := packPolicies (endCharge 0x03 (if gateRuns c then .diode else .standby) c)

/-- The path enters FAULT_HOLD by mirage (R366, R367). -/
def packMirage (c : Chip) : Chip :=
  if c.pack.st = .off ∨ (c.pack.st = .faultHold ∧ c.pack.mirage) then setFault F.packMirage c
  else
    let c := packOff .faultHold 0x08 (endCharge 0x01 .standby (setFault F.packMirage c))
    { c with pack.mirage := true }

/-! ### Pre-charge -/

/-- The path in WAIT passes to STANDBY, or to PRECHARGE (Table 8.2, R339); while an inrush runs it stays (R381). -/
def prechargeStart (c : Chip) : Chip :=
  let c := waitChecks c
  if c.pack.st ≠ .wait ∨ authorised c = false ∨ feedInrush c ∨ gateRuns c = false then c
  else if bandMet c then enterPack .standby c
  else if prechargePermitted c then
    let c := enterPack .precharge (leaveDuty c)
    { c with
      seq.preRan := true
      pack := { c.pack with preAt := c.now, preBus := busMv c, preWords := [], iPre0 := 0, hold.preDone := none } }
  else c

/-- A VALID precise I_P word in PRECHARGE (R341). -/
def prechargeWord (i : Rat) (c : Chip) : Chip :=
  if c.pack.st = .precharge ∧ c.pack.preWords.length < 6 then
    let ws := c.pack.preWords ++ [i]
    { c with pack.preWords := ws, pack.iPre0 := if ws.length = 6 then meanRat ws else c.pack.iPre0 }
  else c

/-- 0.1 ms units of a time, 16 bits. -/
def tenths (t : Nat) : Nat := satR 16 ((t : Rat) / 100000)

/-- Pre-charge completes (R341). -/
def prechargeComplete (c : Chip) : Chip :=
  if c.pack.st = .precharge ∧ c.pack.cpLow = false ∧ gateRuns c = true ∧ heldFor c (ms 8) c.pack.hold.preDone = true then
    let c := { c with pack.preLast := tenths (c.now - c.pack.preAt) }
    enterPack .standby c
  else c

/-- The pre-charge time has run out (R342). -/
def prechargeTimeout (c : Chip) : Chip :=
  if c.pack.st = .precharge ∧ c.pack.cpLow = false ∧ c.pack.preAt + ms (cfg c).pack.preTime ≤ c.now then
    let cause := if busMv c - c.pack.preBus < 1000 then 0x06 else 0x07
    let c := setFault F.packPrecharge { c with
      pack.preLast := tenths (c.now - c.pack.preAt), pack.trips := bump 255 3 c.pack.trips }
    packFail cause c
  else c

/-! ### Ideal diode -/

/-- The re-enable (R345). -/
def packReenable (c : Chip) : Chip :=
  if c.pack.st = .standby ∧ c.pack.cpLow = false ∧ c.pack.trip.due = none ∧ heldFor c (us 10) c.pack.hold.drop = true
      ∧ gateRuns c = true ∧ reenableInhibited c = false then enterPack .diode c
  else c

/-- The stand-down (R347). -/
def packStandDown (sunkNs : Nat) (c : Chip) : Chip :=
  if c.pack.st = .diode ∧ inLimp c = false ∧ anyCarrying c = true ∧ ms 1 ≤ sunkNs then enterPack .standby c else c

/-- The fast reverse turn-off of the pack (R348). -/
def packFastReverse (uv : Int) (c : Chip) : Chip :=
  if c.pack.st = .diode ∧ uv < -(((cfg c).pack.revThr * 1000 : Nat) : Int) then packOff .standby 0x02 c else c

/-! ### Charging -/

/-- The charge window is closed for a reason other than a failed or disputed sensor. -/
def windowShut (c : Chip) : Bool :=
  c.tmp.chgLow || c.tmp.chgHigh || c.tmp.openHold || !c.prs.present || !c.tmp.packFormed || c.tmp.boardHot
    || c.tmp.dieHot || c.tmp.dieCrit

/-- The path has been in STANDBY, with a feed carrying VBUS, for 1 s. -/
def standbyLong (c : Chip) : Bool :=
  c.pack.st == .standby && !c.pack.cpLow && decide (c.pack.standbyAt + sec 1 ≤ c.now)
    && c.pack.fedAt.elim false fun t => decide (t + sec 1 ≤ c.now)

/-- The reasons not to start charging with their codes (Table 8.10, R354). -/
def chargeReasons (c : Chip) : List (Nat × Bool) :=
  [(1, !fitted c 2), (2, !(c.seq.mode == .coupled || c.seq.mode == .depot)), (3, c.pack.fedAt.isNone),
   (4, !standbyLong c), (5, !authentic c), (6, !cellsMatch c), (7, windowShut c), (8, sensorInhibit c || c.tmp.chgClosed),
   (9, c.chg.eoc), (10, deepPack c), (11, c.chg.holdAt.elim false fun t => decide (c.now < t + sec 10)),
   (12, c.chg.latOv || c.chg.latCur || c.chg.latNo || c.chg.latOver)]

/-- The first reason that applies; 0 while charging. -/
def chargeReason (c : Chip) : Nat :=
  if c.pack.st = .charge then 0 else ((chargeReasons c).find? (·.2)).elim 0 (·.1)

/-- I_LOW (R356). -/
def iLow (c : Chip) : Rat :=
  if packMv c < cellsTimes c (cfg c).pack.vShut then ((cfg c).pack.designCap : Rat) / 20
  else ((cfg c).charger.iMax : Rat)

/-- I_CMD (R356, R389). -/
def iCmd (c : Chip) : Rat :=
  let m : Rat := ((cfg c).charger.iMax : Rat)
  if c.chg.spanPoint then m else ratMin m (ratMin (iLow c) (ratMin c.chg.iFeed c.chg.iCv))

/-- k as the charger uses it: 1.000 in a SPAN point (R389). -/
def trimNow (c : Chip) : Rat := if c.chg.spanPoint then 1 else c.chg.k

/-- The CHG_SET setting (R355) (DEDUCED, log entry 77). -/
def chgSetting (c : Chip) : Nat :=
  min 4095 (natOfRat (4096 * trimNow c * iCmd c / ((cfg c).charger.iAtFull : Rat)))

/-- k stands at a limit. -/
def trimAtLimit (c : Chip) : Bool := decide (trimNow c ≤ 3 / 4 ∨ 5 / 4 ≤ trimNow c)

/-- k stands at a limit with I_MEAS more than 10 % from I_CMD (Table 8.5). -/
def trimBad (c : Chip) : Bool :=
  trimAtLimit c && decide (iCmd c < 10 * absRat (iMeas c - iCmd c))

/-- CHG_SET takes its setting. -/
def driveSetpoint (c : Chip) : Chip :=
  { c with chg := { c.chg with
      set := chgSetting c, setAt := c.now, kBadAt := if trimBad c then some (c.chg.kBadAt.getD c.now) else none } }

/-- The path enters CHARGE. -/
def enterCharge (span : Bool) (c : Chip) : Chip :=
  let c := enterPack .charge c
  let m : Rat := ((cfg c).charger.iMax : Rat)
  driveSetpoint { c with
    gauge := { c.gauge with eoc := false, eocN := 0, eocPend := false, eocAt := c.now }
    chg := { c.chg with
      iFeed := m, iCv := m, feedDnAt := c.now, feedUpAt := c.now, cvAt := c.now, trimAt := c.now
      session := 0, counts := bump 65535 0 c.chg.counts, eoc := false, spanPoint := span, kBadAt := none } }

/-- Charging starts when every condition of R354 holds; a deep-discharged pack that alone prevents it sets its bit
(Table 8.5). A calibration point on I_P holds CHG_EN low (R186). -/
def chargeStart (c : Chip) : Chip :=
  match (chargeReasons c).filter (·.2) with
  | [] => if c.cal.run && c.cal.ch == 2 then c else enterCharge false c
  | [(10, _)] => if c.chg.latDeep then c else setFault F.packDeep { c with chg.latDeep := true }
  | _ => c

/-- The 10 ms update of CHG_SET (R355). -/
def setpointUpdate (c : Chip) : Chip :=
  if charging c && decide (c.chg.setAt + ms 10 ≤ c.now) then driveSetpoint c else c

/-- Feeds in ON. -/
def feedsOn (c : Chip) : List Feed := [c.feedA, c.feedB].filter fun f => f.st == .on

/-- A step of I_FEED or I_CV (R356) (DESIGN CHOICE, log entry 79). -/
def limitStep (term : LimitTerm) (c : Chip) : Chip :=
  let m : Rat := ((cfg c).charger.iMax : Rat)
  if !charging c || c.chg.spanPoint then c
  else match term with
    | .iFeed =>
      if (feedsOn c).any (fun f => decide (1 < 2 * f.heat)) then
        if c.chg.feedDnAt + sec 1 ≤ c.now then
          { c with chg := { c.chg with iFeed := ratMax 0 (c.chg.iFeed - m / 8), feedDnAt := c.now, feedUpAt := c.now } }
        else c
      else if (feedsOn c).all (fun f => decide (4 * f.heat < 1)) && decide (c.chg.feedUpAt + sec 10 ≤ c.now) then
        { c with chg := { c.chg with iFeed := ratMin m (c.chg.iFeed + m / 8), feedUpAt := c.now } }
      else c
    | .iCv =>
      if c.now < c.chg.cvAt + ms 100 then c
      else if cellsTimes c ((cfg c).charger.vChg + 25) < packMv c then
        { c with chg := { c.chg with iCv := ratMax 0 (c.chg.iCv - m / 16), cvAt := c.now } }
      else if packMv c < cellsTimes c (cfg c).charger.vChg then
        { c with chg := { c.chg with iCv := ratMin m (c.chg.iCv + m / 16), cvAt := c.now } }
      else { c with chg.cvAt := c.now }

/-- The 1 s trim (R357). -/
def chargeTrim (c : Chip) : Chip :=
  if !charging c || decide (c.now < c.chg.trimAt + sec 1) then c
  else
    let i := iMeas c
    let c := { c with chg.trimAt := c.now }
    if !c.chg.spanPoint && decide (200 < i) && decide (packMv c < cellsTimes c ((cfg c).charger.vChg - 50)) then
      let e := clampRat (-(1 / 32)) (1 / 32) (qdiv (iCmd c - i) (iCmd c))
      { c with chg.k := clampRat (3 / 4) (5 / 4) (c.chg.k * (1 + e)) }
    else c

/-- The hand-back (R358). -/
def chargeHandBack (drivenNs : Nat) (c : Chip) : Chip :=
  if charging c && decide (us 20 ≤ drivenNs) then handBack c else c

/-- The delivered charge is an overcharge (Table 8.5). -/
def overcharged (c : Chip) : Bool :=
  let cap := if c.learn.learned then c.learn.qFcc else ((cfg c).pack.designCap : Rat)
  decide (5 / 4 * cap < c.chg.session)

/-- A charger fault of Table 8.5 that takes time has held. -/
def chargerFaultHolds (kind : ChgKind) (c : Chip) : Bool :=
  match kind with
  | .overvolt => heldFor c (sec 1) c.pack.hold.chgHigh
  | .overCurrent => heldFor c (sec 1) c.pack.hold.chgOver
  | .trimLimit => heldFor c (sec 30) c.chg.kBadAt
  | .noCurrent => heldFor c (sec 10) c.pack.hold.chgNone
  | .overcharge => overcharged c

/-- The bit of a charger fault. -/
def chargerBit : ChgKind → Nat
  | .overvolt => F.chgOvervolt
  | .overCurrent | .trimLimit => F.chgCurrent
  | .noCurrent => F.chgNoCurrent
  | .overcharge => F.chgOvercharge

/-- A charger fault ends charging and latches (R360). -/
def chargerFault (kind : ChgKind) (c : Chip) : Chip :=
  if charging c && chargerFaultHolds kind c then
    let c := endCharge 0x04 .standby (setFault (chargerBit kind) c)
    match kind with
    | .overvolt => { c with chg.latOv := true }
    | .overCurrent | .trimLimit => { c with chg.latCur := true }
    | .noCurrent => { c with chg.latNo := true }
    | .overcharge => { c with chg.latOver := true }
  else c

/-! ### Sharing (R361 … R365) -/

/-- v_D by the law of R361, mV. -/
def shareDrive (c : Chip) : Rat :=
  let ws := validOf (c.meas.iP.fastHist.filter fun w => decide (c.now ≤ w.at_ + ms 1))
  let vS := meanRat (ws.map (·.value)) / 1000
  200 + 2000 * clampRat 0 1 (vS / (c.share.w * 40))

/-- The partner's heartbeats have not stopped (R386, R758), and the latest carries FLAGS[3]: its pack path is in DIODE (R744). -/
def partnerDiode (c : Chip) : Bool :=
  (c.pair.hbAt.elim false fun t => decide (c.now < t + us 2200)) && !c.pair.linkLost && c.pair.them.flags.getLsbD 3

/-- The share loop is active (R363). -/
def shareActive (c : Chip) : Bool :=
  shareDriven c && c.pack.st == .diode && partnerDiode c && !c.share.fault && c.pair.drive.isNone

/-- SHARE as its 10-bit sense of 2.5 V full scale gives it, mV (R361) (PRESUMED, log entry 116). -/
def shareMv (code : Nat) : Rat := (code : Rat) * 2500 / 1024

/-- SHARE lies within 0.1 … 2.3 V (Table 8.11). -/
def shareInRange (code : Nat) : Bool := decide (100 ≤ shareMv code) && decide (shareMv code ≤ 2300)

/-- The share loop's step, or its decay (R363, R364). A probe leaves the level that SHARE was held at (R760). -/
def shareUpdate (code : Nat) (c : Chip) : Chip :=
  if !shareDriven c then c
  else
    let inRange := shareInRange code
    let c := { c with share := { c.share with
      vB := shareMv code, vD := if c.pair.drive.isSome then c.share.vD else shareDrive c, fault := c.share.fault && !inRange } }
    let act := shareActive c
    let c := { c with share.active := act }
    if c.pack.st = .charge then c
    else if act then
      if c.now < c.share.at_ + ms 1 then c
      else
        let e := c.share.vD - c.share.vB
        let c := { c with share.at_ := c.now }
        if absRat e < 10 then c
        else { c with pack.vTp := clampRat 20 500 (c.pack.vTp + clampRat (-5) 5 (e / 20)) }
    else if c.share.at_ + ms 10 ≤ c.now then
      { c with share.at_ := c.now, pack.vTp := ratMax 20 (c.pack.vTp - 1) }
    else c

/-- SHARE outside 0.1 … 2.3 V while driven (Table 8.11) (DEDUCED, log entry 76). -/
def shareFault (code : Nat) (durNs : Nat) (c : Chip) : Chip :=
  if shareDriven c && decide (ms 10 ≤ durNs) && !shareInRange code then
    let c := if c.share.fault then c else setFault F.shareFault c
    { c with share := { c.share with fault := true, active := false, vB := shareMv code } }
  else c

/-! ### Mirage, reversal and retries -/

/-- The mean of the precise words of a channel over the latest 1 ms, mA; none without a word. -/
def msMean (c : Chip) (ch : ChId) : Option Rat :=
  match wordsIn (chan c ch) (c.now - ms 1) c.now with
  | [] => none
  | ws => some (maOf (rsnsOf c ch) (meanRat (ws.map (·.value))))

/-- The pack mirage check (R366): in STANDBY over words taken since CHG_EN went low. -/
def packMirageCheck (c : Chip) : Chip :=
  if charging c then c
  else match msMean c .iP with
    | none => c
    | some i =>
      let sunk := packSunkSt c.pack.st && decide (c.pack.offAt + ms 3 ≤ c.now) && decide (30 < absRat i)
      let stand := c.pack.st == .standby && decide (c.pack.standbyAt + ms 1 ≤ c.now)
        && decide (packMv c + 100 ≤ busMv c) && decide (i < -30)
      if sunk || stand then packMirage c else c

/-- The pack is reversed (Table 8.2, R370). -/
def packReversed (c : Chip) : Chip :=
  if running c && c.pack.st != .off && c.pack.st != .reversed && heldFor c (ms 10) c.pack.hold.reversed then
    setFault F.packReversed (packOff .reversed 0x09 (endCharge 0x01 .standby c))
  else c

/-- The reversal has gone (Table 8.2). -/
def packReversalClear (c : Chip) : Chip :=
  if c.pack.st = .reversed ∧ heldFor c (ms 100) c.pack.hold.forward = true ∧ c.prs.present = true then enterWait c else c

/-- The 10 s of RETRY_WAIT have passed (R337). -/
def packRetryExpiry (c : Chip) : Chip :=
  if c.pack.st = .retryWait ∧ c.pack.waitAt + sec 10 ≤ c.now then enterWait c else c

/-- 60 s connected without a failure (R338). -/
def packRetryReset (c : Chip) : Chip :=
  if packConnected c.pack.st = true ∧ c.pack.goodAt + sec 60 ≤ c.now then { c with pack.retries := 0 } else c

/-- The path after the pack is declared removed (R371, Table 8.2). -/
def packPathRemoved (c : Chip) : Chip :=
  if c.pack.st = .off ∨ (c.pack.st = .faultHold ∧ c.pack.mirage) then { c with pack.retries := 0, chg.latOver := false }
  else
    let was := packSunkSt c.pack.st
    let c := enterPack .noPack (endCharge 0x06 .standby c)
    { c with pack.retries := 0, pack.offCause := if was then c.pack.offCause else 0x01, chg.latOver := false }

/-- The path when the pack becomes present. -/
def packPathPresent (c : Chip) : Chip := if c.pack.st = .noPack then enterWait c else c

/-! ### Meanings -/

def execPrechargeTimeout (t : Time) (s : State) : Outcome := run t (fun _ c => prechargeTimeout c) s

def execPackStandDown (t : Time) (sunkNs : Nat) (s : State) : Outcome := run t (fun _ c => packStandDown sunkNs c) s

def execPackFastReverse (t : Time) (uv : Int) (s : State) : Outcome := run t (fun _ c => packFastReverse uv c) s

def execChargeStart (t : Time) (s : State) : Outcome := run t (fun _ c => chargeStart c) s

def execChargeSetpointUpdate (t : Time) (s : State) : Outcome := run t (fun _ c => setpointUpdate c) s

def execChargeLimitStep (t : Time) (term : LimitTerm) (s : State) : Outcome := run t (fun _ c => limitStep term c) s

def execChargeTrim (t : Time) (s : State) : Outcome := run t (fun _ c => chargeTrim c) s

def execChargeHandBack (t : Time) (drivenNs : Nat) (s : State) : Outcome := run t (fun _ c => chargeHandBack drivenNs c) s

def execChargerFault (t : Time) (kind : ChgKind) (_extreme _durNs : FromWords) (s : State) : Outcome :=
  run t (fun _ c => chargerFault kind c) s

def execShareLoopUpdate (t : Time) (code : Nat) (s : State) : Outcome := run t (fun _ c => shareUpdate code c) s

def execShareFault (t : Time) (code : Nat) (durNs : Nat) (s : State) : Outcome := run t (fun _ c => shareFault code durNs c) s

def execPackMirageCheck (t : Time) (s : State) : Outcome := run t (fun _ c => packMirageCheck c) s

def execPackReversed (t : Time) (_maxMv _durNs : FromWords) (s : State) : Outcome :=
  run t (fun _ c => packReversed c) s

def execPackReversalClear (t : Time) (_minMv _durNs : FromWords) (s : State) : Outcome :=
  run t (fun _ c => packReversalClear c) s

def execPackRetryWaitExpiry (t : Time) (s : State) : Outcome := run t (fun _ c => packRetryExpiry c) s

def execPackRetryCountReset (t : Time) (s : State) : Outcome := run t (fun _ c => packRetryReset c) s

/-! ### Conditions on the words (R341, R345, R360, R368, Tables 4.6, 8.2) -/

/-- The conditions that end a pre-charge hold now (R341). -/
def preDoneNow (c : Chip) : Bool :=
  c.pack.st == .precharge && decide (c.pack.preWords.length = 6) && bandMet c
    && decide (packMa c c.meas.iP.prec * 100 < c.pack.iPre0)

/-- A pack mirage overcharges beside an accepted feed (R368). -/
def mirageHighNow (c : Chip) : Bool :=
  c.pack.st == .faultHold && c.pack.mirage && anyFeed c && decide (cellsTimes c ((cfg c).charger.vChg + 100) < packMv c)

/-- V_PACK is below the LIMP floor (Table 4.6). -/
def floorNow (c : Chip) : Bool :=
  c.seq.mode == .limp && c.prs.present && decide (packMv c < ((2800 * c.seq.limpCells : Nat) : Rat))

/-- A precise word of I_P, V_PACK or V_BUS is looked at for everything that must hold for a time. -/
def followPack (c : Chip) : Chip :=
  let h := c.pack.hold
  let v := packMv c
  let k := cfg c
  let on := charging c
  { c with pack.hold := { h with
      preDone := holdsSince c.now h.preDone (preDoneNow c)
      reversed := holdsSince c.now h.reversed (decide (v < -1000))
      forward := holdsSince c.now h.forward (decide (1000 < v))
      mirageHigh := holdsSince c.now h.mirageHigh (mirageHighNow c)
      floor := holdsSince c.now h.floor (floorNow c)
      chgHigh := holdsSince c.now h.chgHigh (on && decide (cellsTimes c (k.charger.vChg + 100) < v))
      chgOver := holdsSince c.now h.chgOver (on && decide (5 / 4 * iCmd c + 100 < iMeas c))
      chgNone := holdsSince c.now h.chgNone (on && decide (200 ≤ iCmd c) && decide (v < cellsTimes c (k.charger.vChg - 50))
        && decide (iMeas c < 50)) } }

/-- A fast word of V_PACK or V_BUS is looked at for the re-enable (R345). -/
def followDrop (c : Chip) : Chip :=
  { c with pack.hold.drop :=
      holdsSince c.now c.pack.hold.drop (decide (150 ≤ c.meas.vPack.fastHeld - c.meas.vBus.fastHeld)) }

/-! ### End of charge (R467, R468) -/

/-- A second of CHARGE is judged: none without VALID words. -/
def eocSecond (c : Chip) : Option Bool :=
  let ps := validPairs c (c.now - sec 1) c.now
  if ps.isEmpty then none
  else
    let i := -(meanPackMa c (ps.map (·.2)))
    let v := meanRat (ps.map (·.1.value))
    some (decide (0 ≤ i) && decide (i * ((cfg c).gauge.taper : Rat) ≤ c.learn.qFcc)
      && decide (cellsTimes c ((cfg c).charger.vChg - 30) ≤ v))

/-- End of charge is declared (R468, R484, R497, R536); a capacity that it changes brings the figures with it (R538). -/
def declareEoc (c : Chip) : Chip :=
  let c := applyAnchor c
  let c := endCharge 0x02 .standby c
  let q := c.learn.qFcc
  let c := fullZ c
  let c := { c with
    gauge := { c.gauge with eoc := true, eocNow := true }
    chg.eoc := true
    learn := { c.learn with soc := 1, ceilFree := true } }
  let c := tagEvent 0x04 (learnAnchor (anchorNow 1 (5 / 1000) true c.now c) c)
  if c.learn.qFcc = q then c else formFigures c

/-- END_OF_CHARGE_DECLARED: the second that ends now is counted, and the 180th declares (R467). -/
def eocCheck (c : Chip) : Chip :=
  if charging c = false ∨ c.chg.spanPoint ∨ inLimp c ∨ c.now < c.gauge.eocAt + sec 1 then c
  else
    let c := { c with gauge.eocAt := c.now }
    match eocSecond c with
    | none => c
    | some false => { c with gauge.eocN := 0, gauge.eocPend := false }
    | some true =>
      let n := satInc 255 c.gauge.eocN
      let c := { c with gauge.eocN := n, gauge.eocPend := true }
      if 180 ≤ n then declareEoc c else c

def execEndOfChargeDeclared (t : Time) (s : State) : Outcome := run t (fun _ c => eocCheck c) s

end Sys2Proof.Machine
end

