-- ==== Sys2Proof/Machine/Tag.lean ====
section
/-! DEFINITION. Pack identity (chapter 12): probing, the authentication exchange and its verdict, adoption, the writing of
a learned record, removal of the pack, and pin faults of PK_ID. -/

namespace Sys2Proof.Machine

/-! ### The wire -/

/-- The code of a command (Table 12.2). -/
def TagCmd.code : TagCmd → Byte
  | .read .. => 0x11
  | .challenge _ => 0x22
  | .getResponse => 0x23
  | .writeSlot .. => 0x33
  | .commitSlot _ => 0x34
  | .slotStatus => 0x35
  | .slotDigest _ => 0x36

/-- The parameters of a command (Table 12.2). -/
def TagCmd.params : TagCmd → List Byte
  | .read addr len => u16B addr ++ u16B len
  | .challenge nonce => nonce ++ Config.uid
  | .getResponse | .slotStatus => []
  | .writeSlot slot off data => u8B slot ++ u16B off ++ u16B data.length ++ data
  | .commitSlot slot | .slotDigest slot => u8B slot

/-- Bytes with their CRC-16, low byte first (R548). -/
def withCrc (bs : List Byte) : List Byte := bs ++ u16B (crc16 bs)

/-- The bytes that the gauge sends in a transaction (R547). -/
def TagCmd.bytes (cmd : TagCmd) : List Byte := withCrc (cmd.code :: cmd.params)

/-- The bytes of an answer without its CRC-16, when that covers the command byte and them (R547). -/
def answerBody (cmd : TagCmd) (bs : List Byte) : Option (List Byte) :=
  let body := bs.take (bs.length - 2)
  if 2 ≤ bs.length ∧ bs.drop (bs.length - 2) = u16B (crc16 (cmd.code :: body)) then some body else none

/-- Starts a transaction. -/
def startTxn (cmd : TagCmd) (c : Chip) : Chip :=
  { c with tag := { c.tag with txn := some cmd, sent := cmd.bytes, fails := 0, absent := true } }

/-- Bytes of a right answer to a command, check sum excluded (Table 12.2). -/
def answerFits (cmd : TagCmd) (bs : List Byte) : Bool :=
  match cmd with
  | .read _ len => bs.length == len
  | .challenge _ | .writeSlot .. | .commitSlot _ => bs.length == 1
  | .getResponse => bs.length == (if u8At bs 0 = 0 then 65 else 1)
  | .slotStatus => bs.length == 20
  | .slotDigest _ => bs.length == 32

/-- The answer begins with a STATUS. -/
def hasStatus : TagCmd → Bool
  | .challenge _ | .getResponse | .writeSlot .. | .commitSlot _ => true
  | _ => false

/-- What a transaction came to (R551): the answer, or a failure that was an absence or not. -/
def tagAnswer (cmd : TagCmd) : TagResult → Except Bool (List Byte)
  | .silent => .error true
  | .answer bs =>
    match answerBody cmd bs with
    | none => .error false
    | some b => if !answerFits cmd b || (hasStatus cmd && (u8At b 0 == 2 || decide (6 ≤ u8At b 0))) then .error false else .ok b

/-- Hands an outcome to the pending command with this opcode (R692). -/
def pendDone (op : Nat) (out : Nat × List Byte) (c : Chip) : Chip :=
  match c.host.pend with
  | some p => if p.op = op ∧ p.done = none then { c with host.pend := some { p with done := some out } } else c
  | none => c

/-- T.LEARN.TAG_WRITE (Table 11.6). -/
def tagWriteWord (c : Chip) : Nat :=
  c.tag.wCause % 256 + bitAt 8 c.tag.wOk + 512 * sat 7 c.tag.wSkipped + 65536 * sat 16 c.tag.writes

/-- No exchange, adoption, write or transaction is under way. -/
def tagIdle (c : Chip) : Bool := c.tag.stage == .idle && c.tag.txn.isNone && c.tag.write.isNone

/-- A READ for the depot tool starts when the wire is idle (R579). -/
def kickTool (c : Chip) : Chip :=
  match c.tag.tool with
  | some r => if tagActive c && tagIdle c then startTxn (.read r.addr r.len) c else c
  | none => c

/-- The outcome of CMD_TAG_READ; one that fails carries CHECK_FAILED (log entry 26). -/
def toolDone (bs : Option (List Byte)) (c : Chip) : Chip :=
  pendDone 0x24 (bs.elim (0x0F, []) fun b => (0x00, b)) { c with tag.tool := none }

/-! ### Keys (R556 … R560) -/

/-- The keys of C.TRUST with a usage bit whose hash begins with `issuer`. -/
def issuerKeys (c : Chip) (bit : Nat) (issuer : List Byte) : List (List Byte) :=
  ((cfg c).trust.filter fun k => k.usage.getLsbD bit && (Crypto.sha256 k.key).take 4 == issuer).map (·.key)

/-- One of the keys verifies the signature. -/
def anyVerifies (keys : List (List Byte)) (msg sig : List Byte) : Bool := keys.any fun k => Crypto.ecdsaVerify k msg sig

/-- The signature verifies under a compressed key. -/
def verifiesUnder (key msg sig : List Byte) : Bool := (Crypto.decompress key).elim false fun k => Crypto.ecdsaVerify k msg sig

/-- "UASH-CR1". -/
def responseLabel : List Byte := ascii [0x55, 0x41, 0x53, 0x48, 0x2D, 0x43, 0x52, 0x31]

/-- "UASH-RC1". -/
def recordLabel : List Byte := ascii [0x55, 0x41, 0x53, 0x48, 0x2D, 0x52, 0x43, 0x31]

/-- PACK_UID of the header. -/
def packUid (c : Chip) : List Byte := slice c.tag.header 8 16

/-- C.CERT as 120 bytes. -/
def ownCert (c : Chip) : List Byte := slice (cfg c).cert 0 120

/-- A certificate of Table 12.6 with a valid key. -/
def certFormOk (b : List Byte) : Bool :=
  u8At b 0 == 1 && u8At b 1 == 2 && u8At b 55 == 0 && (Crypto.decompress (slice b 22 33)).isSome

/-- A certificate verifies under a USAGE[1] key of C.TRUST (R559). -/
def certTrusted (c : Chip) (b : List Byte) : Bool := anyVerifies (issuerKeys c 1 (slice b 2 4)) (slice b 0 56) (slice b 56 64)

/-! ### Verdict (R561, R562, R577) -/

/-- The 196 bytes of a profile (Table 3.14). -/
def encodeProfile (p : Profile) : List Byte :=
  p.points.flatMap (fun x => u16B x.ocv)
    ++ p.points.flatMap (fun x => u16B x.ser ++ u16B x.polF ++ u16B x.tauF ++ u16B x.polS ++ u16B x.tauS)
    ++ u8B p.restScale ++ [0, 0, 0]

/-- PROFILE_DIGEST equals the digest of C.PROFILE (R567). -/
def profileMatches (c : Chip) : Bool :=
  (cfg c).profile.elim false fun p => Crypto.sha256 (encodeProfile p) == slice c.tag.header 64 32

/-- Adoption begins (R567). -/
def startAdoption (c : Chip) : Chip :=
  let skip := profileMatches c
  let c := { c with tag := { c.tag with
    profSkip := skip, profBad := false, profile := none, slotBits := [0, 0, 0, 0], toTry := [], record := none
    trusted := false, adopted := false } }
  if skip then startTxn .slotStatus { c with tag.stage := .slots }
  else startTxn (.read 0x0A0 196) { c with tag.stage := .profile }

/-- Adoption has ended (R570). -/
def endAdoption (c : Chip) : Chip :=
  { c with
    tag := { c.tag with stage := .idle, txn := none, job := none, adopted := true
                        times := (c.tag.times.1, tenths (c.now - c.tag.verdictAt)) }
    gauge.wanted := !c.gauge.formed }

/-- The wire and the engine are released at a verdict. -/
def endExchange (c : Chip) : Chip :=
  let ran := c.tag.stage != .idle
  { c with tag := { c.tag with
      stage := .idle, txn := none, job := none, sig := none, busyAt := none, verdictAt := c.now, probe := none, probes := 0
      times := (if ran then tenths (c.now - c.tag.exAt) else c.tag.times.1, c.tag.times.2) } }

/-- The causes in a mask of due events. -/
def dueCauses (m : BitVec 9) : List Nat := (List.range 9).filter (m.getLsbD ·)

/-- The tag-write events that wait are skipped and counted (R524). -/
def skipWaiting (c : Chip) : Chip :=
  if c.tag.due = 0 then c
  else
    let seven := c.tag.due.getLsbD 7
    let n := (dueCauses c.tag.due).length
    let c := { c with tag := { c.tag with due := 0, wSkipped := min 127 (c.tag.wSkipped + n) }, learn.tagAt := c.now }
    if seven then pendDone 0x25 (0x00, u32B (tagWriteWord c)) c else c

/-- Tag-write events that have waited for an exchange which does not authenticate are skipped (R524, R588). -/
def skipDue (c : Chip) : Chip := if authentic c then c else skipWaiting c

/-- A verdict other than authenticated that the pack keeps. -/
def setVerdict (v : Verdict) (reason : Nat) (c : Chip) : Chip :=
  packPolicies (waitChecks (skipDue { c with tag.verdict := v, tag.reason := reason, gauge.wanted := !c.gauge.formed }))

/-- The probing of a pack with a silent verdict (Table 12.8). -/
def probeSilent (c : Chip) : Chip := { c with tag := { c.tag with probe := some .silent, lastProbe := c.now } }

/-- The pack is authenticated: adoption begins, and the first authentication since the pack became present brings its
tag-write event (R561, R567, R526). -/
def verdictAuthentic (c : Chip) : Chip :=
  let c := endExchange c
  let c := { c with tag.verdict := .authenticated, tag.reason := 0 }
  let c := if c.tag.firstDone then c else tagEvent 0x06 { c with tag.firstDone := true }
  packPolicies (waitChecks (startAdoption c))

/-- The reason of a verdict that is not silent: without C.TRUST it is ISSUER_UNKNOWN whatever failed (R580). -/
def failReason (c : Chip) (reason : Nat) : Nat := if (cfg c).trust.isEmpty then 4 else reason

/-- The exchange fails with a reason of Table 12.11. A silent verdict stays until an exchange authenticates (R565). -/
def verdictFails (reason : Nat) (c : Chip) : Chip :=
  let was := c.tag.verdict
  let c := endExchange { c with tag.bus := bump 255 1 c.tag.bus }
  if was = .silent then probeSilent (skipDue c)
  else setVerdict .notAuthenticated (failReason c reason) (setFault F.packAuthFail c)

/-- The tag is silent (Table 12.8, Table 12.7). -/
def verdictSilent (c : Chip) : Chip :=
  let was := c.tag.verdict
  let c := endExchange c
  if was = .silent then probeSilent (skipDue c)
  else probeSilent (setVerdict .silent 1 (setFault F.tagSilent c))

/-! ### The exchange (Table 12.7) -/

/-- The exchange begins with CHALLENGE. -/
def startExchange (c : Chip) : Chip :=
  let (nonce, c) := randomBytes 16 c
  startTxn (.challenge nonce) { c with tag := { c.tag with
    stage := .challenge, exAt := c.now, nonce := nonce, headerOk := false, sig := none, busyAt := none, job := none
    probe := none, probes := 0 } }

/-- Order 3 of Table 12.7. -/
def headerFormOk (h : List Byte) : Bool :=
  slice h 0 4 == [0x55, 0x41, 0x53, 0x48] && u8At h 4 == 1 && decide (u8At h 5 ≤ 1) && decide (2 ≤ u8At h 6)
    && decide (u8At h 6 ≤ 8) && u8At h 7 == 0 && allZero (slice h 61 3)

/-- The header has been read: orders 3 and 4, and GET_RESPONSE runs beside the verification. -/
def headerRead (h : List Byte) (c : Chip) : Chip :=
  let c := { c with tag.header := h }
  if !headerFormOk h then verdictFails 3 c
  else if (issuerKeys c 0 (slice h 24 4)).isEmpty then verdictFails 4 c
  else startTxn .getResponse { c with tag := { c.tag with stage := .response, job := some .header } }

/-- An answered transaction of the exchange. -/
def exchangeTxn (bs : List Byte) (c : Chip) : Chip :=
  let c := { c with tag.txn := none }
  match c.tag.stage with
  | .challenge =>
    if u8At bs 0 = 0 then startTxn (.read 0 160) { c with tag.stage := .header } else verdictFails 2 c
  | .header => headerRead bs c
  | .response =>
    if u8At bs 0 = 0 then
      { c with tag := { c.tag with
          stage := .verify, sig := some (bs.drop 1), busyAt := none
          job := if c.tag.headerOk then some .response else c.tag.job } }
    else if u8At bs 0 = 1 then { c with tag.busyAt := some c.now }
    else verdictFails 2 c
  | _ => c

/-- The next GET_RESPONSE, 5 ms after the tag answered BUSY. -/
def responsePoll (c : Chip) : Chip :=
  match c.tag.stage, c.tag.busyAt, c.tag.txn with
  | .response, some t, none =>
    if c.tag.exAt + sec 1 ≤ c.now then verdictFails 8 c
    else if t + ms 5 ≤ c.now && tagActive c then startTxn .getResponse { c with tag.busyAt := none }
    else c
  | _, _, _ => c

/-! ### Adoption (R567 … R569) -/

/-- Address of a slot (Table 12.3). -/
def slotAddr (k : Nat) : Nat := 0x200 + 0x180 * k

/-- Inserts a slot before those with a lower RECORD_SEQ. -/
def insertSlot (seqs : List Nat) (k : Nat) : List Nat → List Nat
  | [] => [k]
  | j :: js => if seqs.getD j 0 < seqs.getD k 0 then k :: j :: js else j :: insertSlot seqs k js

/-- The COMMITTED slots in descending order of RECORD_SEQ. -/
def committedSlots (c : Chip) : List Nat :=
  ((List.range 4).filter fun k => c.tag.slotSt.getD k 0 == 2).foldl (fun acc k => insertSlot c.tag.slotSeq k acc) []

/-- Takes the answer of SLOT_STATUS. -/
def takeSlots (bs : List Byte) (c : Chip) : Chip :=
  { c with tag := { c.tag with
      slotSt := (List.range 4).map fun k => u8At bs (5 * k)
      slotSeq := (List.range 4).map fun k => u32At bs (5 * k + 1)
      slotsRead := true } }

/-- The next slot is read, or adoption ends. -/
def nextSlot (c : Chip) : Chip :=
  match c.tag.toTry with
  | [] => endAdoption c
  | k :: ks => startTxn (.read (slotAddr k) 384) { c with tag := { c.tag with stage := .slotRead, toTry := ks, job := none } }

/-- A slot is passed over (R568). -/
def slotBad (c : Chip) : Chip := nextSlot (setFault F.tagRecordBad c)

/-- The slot that is read: that of the READ in progress. -/
def slotOfAddr (addr : Nat) : Nat := (addr - 0x200) / 0x180

/-- An answered transaction of adoption. -/
def adoptionTxn (cmd : TagCmd) (bs : List Byte) (c : Chip) : Chip :=
  let c := { c with tag.txn := none }
  match c.tag.stage, cmd with
  | .profile, _ =>
    let good := Crypto.sha256 bs == slice c.tag.header 64 32
    startTxn .slotStatus { c with tag := { c.tag with
      stage := .slots, profile := if good then some bs else none, profBad := !good } }
  | .slots, _ =>
    let c := takeSlots bs c
    nextSlot { c with tag.toTry := committedSlots c }
  | .slotRead, .read addr _ =>
    let c := { c with tag.slotData := bs }
    if payloadOk (slice bs 0 200) && certFormOk (slice bs 200 120) then
      { c with tag := { c.tag with stage := .slotVerify, job := some (.record (slotOfAddr addr)) } }
    else slotBad c
  | _, _ => c

/-- SLOTS of a slot gains bits. -/
def markSlot (k : Nat) (m : BitVec 3) (c : Chip) : Chip :=
  { c with tag.slotBits := updAt c.tag.slotBits k fun b => b ||| m }

/-- The record of a slot is the tag record of R569, and SOURCES tells of its writer (Table 11.6). -/
def adoptRecord (k : Nat) (trusted : Bool) (c : Chip) : Chip :=
  endAdoption { c with
    tag := { c.tag with record := some (k, c.tag.slotData), trusted := trusted, seq := u32At c.tag.slotData 4 }
    learn.srcBits := (c.learn.srcBits &&& 1) ||| (if trusted then 2 else 4) }

/-! ### Verification (R563) -/

/-- A verification completes (DEDUCED, log entry 80); none while the CRYPT domain is stopped (log entry 140). -/
def verified (c : Chip) : Chip :=
  if !cryptRuns c then c else
  let d := c.tag.slotData
  let idle (c : Chip) : Chip := { c with tag.job := none }
  match c.tag.job with
  | none => c
  | some .header =>
    let h := c.tag.header
    if !anyVerifies (issuerKeys c 0 (slice h 24 4)) (slice h 0 96) (slice h 96 64) then verdictFails 5 c
    else if (Crypto.decompress (slice h 28 33)).isNone then verdictFails 6 c
    else { c with tag := { c.tag with headerOk := true, job := if c.tag.sig.isSome then some .response else none } }
  | some .response =>
    let msg := responseLabel ++ c.tag.nonce ++ Config.uid ++ packUid c
    if verifiesUnder (slice c.tag.header 28 33) msg (c.tag.sig.getD []) then verdictAuthentic (idle c)
    else verdictFails 7 c
  | some (.record k) =>
    if verifiesUnder (slice d 222 33) (recordLabel ++ packUid c ++ slice d 0 320) (slice d 320 64) then
      if (cfg c).cert ≠ [] ∧ slice d 200 120 = ownCert c then adoptRecord k true (markSlot k 7 (idle c))
      else markSlot k 1 { c with tag.job := some (.writerCert k) }
    else slotBad c
  | some (.writerCert k) =>
    let ok := certTrusted c (slice d 200 120)
    adoptRecord k ok (markSlot k (if ok then 2 else 0) (idle c))

/-! ### Writing a record (R572 … R576) -/

/-- The target slot (R573). -/
def targetSlot (c : Chip) : Nat :=
  match (List.range 4).find? fun k => c.tag.slotSt.getD k 0 != 2 with
  | some k => k
  | none => (committedSlots c).getLast?.getD 0

/-- RECORD_SEQ of the next record (R573). -/
def nextRecordSeq (c : Chip) : Nat := ((committedSlots c).head?.elim 0 fun k => c.tag.slotSeq.getD k 0) + 1

/-- A write with the record of this instant, which carries the cause of highest precedence (R525, R574). -/
def writeFresh (w : TagWrite) (c : Chip) : TagWrite :=
  { w with payload := learnedPayload (w.causes.foldl min 8) (nextRecordSeq c) c ++ ownCert c, sig := none }

/-- Step 1 of R572 begins, and with it the signing. -/
def writeStep1 (w : TagWrite) (c : Chip) : Chip :=
  startTxn (.read 8 16) { c with tag.write := some { writeFresh w c with step := 1, slot := targetSlot c } }

/-- A due tag-write event may start its write (DEDUCED, log entry 78). -/
def writeReady (c : Chip) : Bool :=
  c.tag.due != 0 && authentic c && (cfg c).cert != [] && c.gauge.formed && tagActive c && tagIdle c
    && c.seq.mode != .ship

/-- A due tag-write event starts its write; events that wait are merged (R525, R572). -/
def writeStart (c : Chip) : Chip :=
  if writeReady c then
    let w : TagWrite := { step := 0, causes := dueCauses c.tag.due, slot := 0, payload := [], sig := none
                          start := c.now, waitAt := none }
    let c := { c with tag.due := 0, learn.tagAt := c.now }
    if c.tag.slotsRead then writeStep1 w c else startTxn .slotStatus { c with tag.write := some w }
  else c

/-- The write has ended (R575, R543) (DEDUCED, log entry 82). A failure counts towards F.LEARN_TAG_WRITE when the tag
answered. SLOT_SEQ stays that of the latest SLOT_STATUS, which the next write reads anew (R573) (log entry 145). TAG_TIME goes
with the last write's cause, whatever came of it (Table 11.6). -/
def writeEnd (ok answering : Bool) (w : TagWrite) (c : Chip) : Chip :=
  let seq := u32At w.payload 4
  let c := { c with tag := { c.tag with
    write := none, txn := none, slotsRead := false, writes := satInc 65535 c.tag.writes, wCause := w.causes.foldl min 8, wOk := ok
    wTime := if w.payload.isEmpty then c.tag.wTime else u32At w.payload 8
    writeFails := if ok then 0 else if answering then satInc 3 c.tag.writeFails else c.tag.writeFails } }
  let c :=
    if ok then
      { c with tag := { c.tag with
          seq := seq
          slotSt := updAt c.tag.slotSt w.slot fun _ => 2
          slotBits := updAt c.tag.slotBits w.slot fun _ => 7 } }
    else setFaultIf (answering && decide (2 ≤ c.tag.writeFails)) F.tagWrite c
  if w.causes.contains 7 then pendDone 0x25 (0x00, u32B (tagWriteWord c)) c else c

/-- The signature is sent once it is ready and its turn has come (step 3). -/
def writeSig (w : TagWrite) (c : Chip) : Chip :=
  match w.sig with
  | some sg => startTxn (.writeSlot w.slot 320 sg) { c with tag.write := some { w with step := 3 } }
  | none => { c with tag.write := some { w with step := 3 } }

/-- The record signature is ready (R574). -/
def recordSigned (c : Chip) : Chip :=
  match c.tag.write with
  | some w =>
    if w.step = 0 ∨ w.sig.isSome ∨ cryptRuns c = false then c
    else
      let (k, c) := randomBytes 32 c
      let w := { w with sig := some (Crypto.ecdsaSign Config.recordScalar (leNat k) (recordLabel ++ packUid c ++ w.payload)) }
      if w.step = 3 ∧ c.tag.txn = none then writeSig w c else { c with tag.write := some w }
  | none => c

/-- The 2 ms after COMMIT_SLOT have passed. -/
def commitWait (c : Chip) : Chip :=
  match c.tag.write with
  | some w =>
    if w.waitAt.elim false fun t => decide (t + ms 2 ≤ c.now) then
      startTxn (.slotDigest w.slot) { c with tag.write := some { w with step := 5, waitAt := none } }
    else c
  | none => c

/-! ### The pack comes and goes (R242, R485, R539, R587) -/

/-- A write is dropped with the pack, without counting as failed. -/
def dropWrites (c : Chip) : Chip :=
  let seven := c.tag.due.getLsbD 7 || c.tag.write.elim false fun w => w.causes.contains 7
  let c := { c with tag.write := none, tag.due := 0 }
  if seven then pendDone 0x25 (0x00, u32B (tagWriteWord c)) c else c

/-- Everything that ends when the pack is removed, beside the presence itself; its last completed state is kept for the
journal (R485, R587). -/
def dropPack (c : Chip) : Chip :=
  let c := if c.gauge.formed && !inLimp c then { c with jrn.lastBlock := some (stateBlock c) } else c
  let c := dropWrites c
  let c := if c.tag.txn.isSome && c.tag.tool.isSome then toolDone none c else c
  { c with
    ret.packKept := false
    gauge := { c.gauge with
      source := if inLimp c then c.gauge.source else 0
      formed := false, wanted := false, eocNow := false, eod := false, eodN := 0, rest := false, qualS := 0, anchor := none
      v0n := 0, v0V := 0, v0I := 0, cnt := { c.gauge.cnt with span := c.gauge.cnt.span + 1 } }
    learn := { c.learn with
      ttf := noTime, low := none, high := none, impRun := none, impBits := if authentic c then c.learn.impBits else 0 }
    tag := { c.tag with
      verdict := .none, reason := 0, stage := .idle, txn := none, job := none, sig := none, busyAt := none, header := []
      headerOk := false, profile := none, profSkip := false, profBad := false, record := none, trusted := false
      writeFails := 0, slotsRead := false, slotSt := [0, 0, 0, 0], slotSeq := [0, 0, 0, 0], slotBits := [0, 0, 0, 0], toTry := []
      adopted := false, firstDone := false, probe := none, probes := 0, ts1Probe := false } }

/-- Removal reaches pack identity, the gauge and the pack path; presence has been withdrawn before. -/
def packGone (c : Chip) : Chip := kickTool (packPathRemoved (dropPack c))

/-- A presence verdict whose inputs may be there now is given. -/
def settlePresence (c : Chip) : Chip :=
  match judgePresence c with
  | (.removed, c) => packGone c
  | (_, c) => c

/-- The pack is declared removed. -/
def packRemoved (c : Chip) : Chip := packGone (declareRemoved c)

/-- Presence reaches the pack path and the counter. -/
def packComes (c : Chip) : Chip := packPathPresent (startCounter (declarePresent c))

/-- The pack becomes present; `why` is the probing that finds its tag, none in LIMP (R242, R578). -/
def packPresent (why : Option ProbeWhy) (c : Chip) : Chip :=
  let c := packComes c
  { c with tag := { c.tag with probe := if inLimp c then none else why, probes := 0, probeAt := c.now } }

/-- A pack that TS1 shows is declared present (R237, R242). At CONFIGURE step 4 the probing that runs there goes on for it, and
when all of that has gone unanswered the tag is silent (R238, Table 12.8); in the steps before, the pack waits for step 4. -/
def followPresence (c : Chip) : Chip :=
  if c.prs.present || !c.prs.byTherm || !running c || (c.seq.mode == .configure && decide (c.seq.step < 4)) then c
  else if c.seq.mode == .configure && c.seq.step == 4 then
    if c.tag.probe == some .configure then packComes c else verdictSilent (packComes c)
  else packPresent (some .inserted) c

/-- An answered transaction of a write. -/
def writeTxn (w : TagWrite) (bs : List Byte) (c : Chip) : Chip :=
  let c := { c with tag.txn := none }
  match w.step with
  | 0 => writeStep1 w (takeSlots bs c)
  | 1 =>
    if bs = packUid c then startTxn (.writeSlot w.slot 0 w.payload) { c with tag.write := some { w with step := 2 } }
    else packPresent (some .inserted) (packRemoved c)
  | 2 =>
    if w.stale then startTxn (.writeSlot w.slot 0 w.payload) { c with tag.write := some { w with stale := false } }
    else if u8At bs 0 = 0 then writeSig w { c with tag.slotSt := updAt c.tag.slotSt w.slot fun _ => 1 } else writeEnd false true w c
  | 3 =>
    if w.stale then startTxn (.writeSlot w.slot 0 w.payload) { c with tag.write := some { w with step := 2, stale := false } }
    else if u8At bs 0 = 0 then startTxn (.commitSlot w.slot) { c with tag.write := some { w with step := 4 } }
    else writeEnd false true w c
  | 4 => if u8At bs 0 = 0 then { c with tag.write := some { w with waitAt := some c.now } } else writeEnd false true w c
  | _ => writeEnd (bs == Crypto.sha256 (w.payload ++ w.sig.getD [])) true w c

/-! ### Transactions end -/

/-- A transaction has failed three times (R551, Table 12.12) (DEDUCED, log entry 81). -/
def txnFails (cmd : TagCmd) (absent : Bool) (c : Chip) : Chip :=
  let c := { c with tag.txn := none }
  let c := setFault F.tagBus c
  if c.tag.stage = .challenge ∧ absent then verdictSilent { c with tag.bus := bump 255 1 c.tag.bus }
  else
    match c.tag.write with
    | some w => writeEnd false (!absent) w c
    | none =>
      if exchanging c.tag.stage then verdictFails 2 c
      else if c.tag.stage ≠ .idle then endAdoption c
      else match cmd with
        | .read .. => toolDone none c
        | _ => c

/-- The transaction in progress ends (R547, R551). -/
def endTxn (res : TagResult) (c : Chip) : Chip :=
  match c.tag.txn with
  | none => c
  | some cmd =>
    match tagAnswer cmd res with
    | .error absent =>
      let all := c.tag.absent && absent
      if c.tag.fails < 2 then
        { c with tag := { c.tag with fails := c.tag.fails + 1, absent := all, bus := bump 65535 0 c.tag.bus } }
      else kickTool (txnFails cmd all c)
    | .ok bs =>
      kickTool (match c.tag.write with
        | some w => writeTxn w bs c
        | none =>
          if exchanging c.tag.stage then exchangeTxn bs c
          else if c.tag.stage ≠ .idle then adoptionTxn cmd bs c
          else toolDone (some bs) { c with tag.txn := none })

/-- TAG_TRANSACTION_COMPLETE: none ends while the probe of R586 has taken its place on the wire. -/
def tagTxn (res : TagResult) (c : Chip) : Chip := if c.tag.ts1Probe then c else endTxn res c

/-! ### Probes (R564, Table 12.8) -/

/-- A probe is due. -/
def probeDue (c : Chip) : Bool :=
  match c.tag.probe with
  | none => false
  | some .silent => decide (c.tag.lastProbe + sec 10 ≤ c.now)
  | some _ => c.tag.probes == 0 || decide (c.tag.lastProbe + ms 20 ≤ c.now)

/-- Notes a probe. -/
def noteProbe (answered : Bool) (c : Chip) : Chip :=
  { c with tag := { c.tag with
      answered := answered
      bus := if !answered && c.prs.present then bump 255 2 c.tag.bus else c.tag.bus } }

/-- Notes a probe of the series of Table 12.8 that runs. -/
def noteSeries (c : Chip) : Chip := { c with tag := { c.tag with lastProbe := c.now, probes := c.tag.probes + 1 } }

/-- The tag answers a probe at CONFIGURE step 4: it declares the pack present, and with TS1 open Table 6.3 applies (R238). -/
def configureAnswered (c : Chip) : Chip :=
  if c.prs.present then c
  else
    let c := { packPresent none c with prs.tagSaid := some true }
    if 2 ≤ (auxCh c 16).opens then (judgePresence (startVerdict c)).2 else c

/-- The probe that the first OPEN on TS1 started (R239). Its reset has ended the transaction in progress: an answered probe has
it repeated (R586), and an unanswered one leaves it ended without presence (R551) (DEDUCED, log entry 146). -/
def ts1Probed (answered : Bool) (c : Chip) : Chip :=
  let c := { c with tag.ts1Probe := false, prs.tagSaid := some answered }
  let c := if c.tag.txn.isSome && answered then { c with tag.bus := bump 65535 0 c.tag.bus } else c
  let c := settlePresence c
  if answered then c else endTxn .silent c

/-- A probe under Table 12.8 has ended. -/
def tableProbed (why : ProbeWhy) (answered : Bool) (c : Chip) : Chip :=
  match why with
  | .configure =>
    if answered then startExchange (configureAnswered c)
    else if 5 ≤ c.tag.probes then
      (if c.prs.present then verdictSilent c else { c with tag.probe := none })
    else c
  | .inserted =>
    if answered then startExchange c
    else if c.tag.probeAt + ms 500 ≤ c.now then verdictSilent c else c
  | .silent => if answered then startExchange c else c

/-- A probe of PK_ID ends. -/
def tagProbe (answered : Bool) (c : Chip) : Chip :=
  if !tagActive c then c
  else if c.tag.ts1Probe then kickTool (ts1Probed answered (noteProbe answered c))
  else if c.tag.txn.isSome || !probeDue c then c
  else match c.tag.probe with
    | some why => kickTool (tableProbed why answered (noteSeries (noteProbe answered c)))
    | none => c

/-! ### Time limits and pin faults (R571, R592) -/

def exchangeAbandon (c : Chip) : Chip :=
  if exchanging c.tag.stage && decide (c.tag.exAt + sec 1 ≤ c.now) then
    kickTool (verdictFails (if 0 < c.tag.fails then 2 else 8) c)
  else c

def adoptionAbandon (c : Chip) : Chip :=
  if c.tag.stage ≠ .idle ∧ exchanging c.tag.stage = false ∧ c.tag.verdictAt + sec 1 ≤ c.now then kickTool (endAdoption c)
  else c

/-- The presence window after a release of the line (Table 12.1). -/
def presenceWindow (released : Nat) : Bool := decide (us 32 ≤ released) && decide (released ≤ us 480)

/-- What PK_ID has shown for `durNs` is a pin fault (Table 12.12). -/
def pinFaulty (level : PinLevel) (durNs : Nat) : Bool :=
  match level with
  | .volts mv => (decide (4000 < mv) || decide (mv < -600)) && decide (ms 1 ≤ durNs)
  | .low released => decide (ms 2 ≤ released) && decide (ms 2 ≤ durNs) && !presenceWindow released

/-- What the wire carried ends: a write, a READ of the depot tool, an adoption or an exchange. -/
def cutWire (c : Chip) : Chip :=
  match c.tag.write with
  | some w => writeEnd false false w c
  | none =>
    if exchanging c.tag.stage then c
    else if c.tag.stage ≠ .idle then endAdoption c
    else if c.tag.txn.isSome then toolDone none c
    else c

/-- A pin fault: the driver goes off, what the wire carried ends, and the verdict of a present pack is silent (R592)
(DEDUCED, log entry 27). A presence verdict that waits for the tag finds it silent (log entry 124). -/
def pinFault (level : PinLevel) (durNs : Nat) (c : Chip) : Chip :=
  if !tagActive c || !pinFaulty level durNs then c
  else
    let probe := c.tag.probe
    let c := endExchange (cutWire (setFault F.pkIdFault c))
    let c := settlePresence { c with tag.pinOff := some c.now, tag.ts1Probe := false }
    if c.prs.present then probeSilent (setVerdict .silent 9 c) else { c with tag.probe := probe }

/-- TS1 has been open with the tag not asked: PK_ID was inactive at its first OPEN, and no row of Table 6.3 is decided yet. -/
def probeOwed (c : Chip) : Bool := c.prs.tagSaid.isNone && (c.prs.singleOpen || c.prs.verdict.isSome)

/-- The driver returns after 1 s, and the probe that is due comes at once, that of an open TS1 first (R239, R240). -/
def driverResume (c : Chip) : Chip :=
  match c.tag.pinOff with
  | some t =>
    if t + sec 1 ≤ c.now then
      kickTool { c with tag := { c.tag with
        pinOff := none, lastProbe := c.now - sec 10, ts1Probe := c.tag.ts1Probe || probeOwed c } }
    else c
  | none => c

/-! ### Meanings -/

def execTagTransactionComplete (t : Time) (res : TagResult) (s : State) : Outcome := run t (fun _ c => tagTxn res c) s

def execTagProbe (t : Time) (answered : Bool) (s : State) : Outcome := run t (fun _ c => tagProbe answered c) s

def execGetResponsePoll (t : Time) (s : State) : Outcome := run t (fun _ c => kickTool (responsePoll c)) s

def execSignatureVerified (t : Time) (s : State) : Outcome := run t (fun _ c => kickTool (verified c)) s

def execExchangeAbandon (t : Time) (s : State) : Outcome := run t (fun _ c => exchangeAbandon c) s

def execAdoptionAbandon (t : Time) (s : State) : Outcome := run t (fun _ c => adoptionAbandon c) s

def execTagWriteStart (t : Time) (s : State) : Outcome := run t (fun _ c => writeStart c) s

def execTagRecordSigned (t : Time) (s : State) : Outcome := run t (fun _ c => recordSigned c) s

def execTagCommitWaitExpiry (t : Time) (s : State) : Outcome := run t (fun _ c => commitWait c) s

def execPkIdPinFault (t : Time) (level : PinLevel) (durNs : Nat) (s : State) : Outcome :=
  run t (fun _ c => pinFault level durNs c) s

def execPkIdDriverResume (t : Time) (s : State) : Outcome := run t (fun _ c => driverResume c) s

end Sys2Proof.Machine
end

