-- ==== Sys2Proof/Machine/Mode.lean ====
section
/-! DEFINITION. Changes of mode outside CONFIGURE (Table 4.1), the beginning and the abort of a shut-down sequence
(Table 4.4), and what the acceptance and the loss of a feed bring about. -/

namespace Sys2Proof.Machine

/-! ### Supply of VBUS -/

/-- The pack path supplies VBUS. -/
def packSupplies (c : Chip) : Bool := packConnected c.pack.st && !c.pack.cpLow

/-- VBUS is supplied by a feed or by the pack path. -/
def railSupplied (c : Chip) : Bool := anyFeed c || packSupplies c

/-- One of the three modes that follow CONFIGURE. -/
def workingMode (m : Mode) : Bool :=
  match m with
  | .parked | .coupled | .depot => true
  | _ => false

/-- The spurs take their commands from the first supply of VBUS after CONFIGURE on (R129). -/
def followSpurs (c : Chip) : Chip :=
  if !c.seq.spursOn && workingMode c.seq.mode && railSupplied c then takeCommands { c with seq.spursOn := true } else c

/-! ### Shut-down sequences: start and abort (R133, R134, R139, R155) -/

/-- An armed SHIP request still stands (R134) (DEDUCED, log entry 19). -/
def armedStands (c : Chip) : Bool := c.ret.armed.elim false fun a => a.byPin || decide (c.now ≤ a.until_)

/-- A shut-down sequence starts with its step 1: no further slot is granted, and announced slots are cancelled. -/
def startShut (cause : ShutCause) (nvm : Nvm) (c : Chip) : Chip :=
  if shutting c then c
  else recheckAll nvm { c with seq := { c.seq with
    shutStep := 1, shutNow := cause, shutStart := c.now, committed := false } }

/-- A feed aborts the sequence before its commit point (R155, R328). -/
def abortShut (c : Chip) : Chip :=
  if shutting c && !c.seq.committed then
    { c with
      seq := { c.seq with shutStep := 0, shutNow := .none }
      ret := { c.ret with shutCause := c.seq.shutNow, shutOutcome := .aborted, aborts := satInc 65535 c.ret.aborts }
      pair.ownLeaving := false }
  else c

/-- What falls due on entry to PARKED, or in LIMP when no feed remains accepted (R134, R165, R470). A request armed by the pin
and by CMD_SHIP both is recorded as that of the pin (DESIGN CHOICE, log entry 131). -/
def dueShut (nvm : Nvm) (c : Chip) : Chip :=
  if c.gauge.eod && c.seq.mode == .parked then startShut .empty nvm c
  else if armedStands c then
    startShut (if c.ret.armed.elim false (·.byPin) then .shipN else .cmdShip) nvm c
  else { c with ret.armed := none }

/-! ### Entering modes -/

/-- PARKED is left: the gauge's own draw is counted up to now (R449), and the sampling-rate governor returns to FULL (R450). -/
def leaveParked (c : Chip) : Chip := leaveDuty { countSelf c with seq.parkEnd := c.now }

/-- The mode changes, which latches alert cause 1 (Table 14.11) (DEDUCED, log entry 56). -/
def setMode (m : Mode) (c : Chip) : Chip :=
  let c := if c.seq.mode == .parked && m != .parked then leaveParked c else c
  latchAlert 1 { c with seq.mode := m, seq.modeAt := c.now }

/-- The session on handle `h` ends. Its outcome is lost: one that is ready at once, one that is still to come when it comes
(R723). A session that the gauge ends latches alert cause 3. -/
def dropSession (byGauge : Bool) (h : Nat) (c : Chip) : Chip :=
  match c.host.sess.getD (h - 1) none with
  | none => c
  | some x =>
    let pend := match c.host.pend with
      | some p => if p.handle ≠ h then some p else if p.outcome.isSome then none else some { p with orphan := true }
      | none => none
    let c := { c with host := { c.host with sess := updAt c.host.sess (h - 1) fun _ => none, pend := pend } }
    let c := if x.link = .can && !x.half then { c with can.frameAt := c.now } else c
    if byGauge then latchAlert 3 c else c

/-! ### The target copy of a reprovisioning (R105, R115, R117) -/

/-- The target copy: the one that was not loaded (R103). -/
def targetCopy (c : Chip) : CopyId := if c.img.loaded = some .a then .b else .a

/-- Address of the target copy. -/
def targetAt (m : RegionMap) (c : Chip) : Nat :=
  match targetCopy c with
  | .a => m.copyA
  | .b => m.copyB

/-- Bytes for the target copy at an offset. -/
def putTarget (off : Nat) (bs : List Byte) (c : Chip) : Chip :=
  c.img.map.elim c fun m => { c with spi := c.spi ++ [(targetAt m c + off, bs)] }

/-- MAGIC. -/
def magic : List Byte := [0x53, 0x4B, 0x50, 0x49]

/-- A check that is given up takes its MAGIC back, so the target copy is no candidate (DEDUCED, log entry 113). -/
def abandonCheck (c : Chip) : Chip := if checkPending c then putTarget 0 [0, 0, 0, 0] c else c

/-- CMD_RESTART gives up a check that is pending, which has no outcome any more (R117, R724). -/
def dropCheck (c : Chip) : Chip := if checkPending c then { abandonCheck c with host.pend := none } else c

/-- The last feed is lost during the reprovisioning flow: it begins anew in a later DEPOT session (R115)
(DEDUCED, log entry 113). -/
def abandonImage (c : Chip) : Chip := { abandonCheck c with img.reprov := none }

/-- The DEPOT sessions that were opened outside LIMP end (R688). -/
def dropDepot (c : Chip) : Chip :=
  (List.range 8).foldl (fun c i =>
    if (c.host.sess.getD i none).elim false (fun x => x.role == .depot && !x.limp) then dropSession true (i + 1) c else c) c

/-- PARKED is entered: DEPOT sessions end, and what falls due there starts. -/
def enterParked (nvm : Nvm) (c : Chip) : Chip := dueShut nvm (dropDepot (packPolicies (setMode .parked c)))

/-- COUPLED is entered. -/
def enterCoupled (c : Chip) : Chip := canStart (packPolicies (setMode .coupled c))

/-- From COUPLED or DEPOT to PARKED when no feed remains accepted and the pack path supplies VBUS (Table 4.1, R384). -/
def parkIfAlone (nvm : Nvm) (c : Chip) : Chip :=
  if (c.seq.mode == .coupled || c.seq.mode == .depot) && !anyFeed c && packSupplies c then
    let c := if c.pack.st = .charge then handBack c else c
    enterParked nvm (tagEvent 0x03 c)
  else c

/-- The mode and the spurs follow the supply of VBUS. -/
def followRail (nvm : Nvm) (c : Chip) : Chip := followSpurs (parkIfAlone nvm c)

/-- A feed has been accepted: the mode becomes COUPLED from PARKED, and a sequence before its commit point ends (R155). -/
def feedArrived (nvm : Nvm) (c : Chip) : Chip :=
  let c := { c with seq.fedSinceWake := true, chg := { c.chg with latOv := false, latCur := false, latNo := false } }
  if c.seq.committed then c
  else
    let c := abortShut c
    let c := if c.seq.mode = .parked then enterCoupled c else c
    followRail nvm (packPolicies c)

/-- A feed is no longer accepted; with the last one the reprovisioning flow ends (R115). -/
def feedGone (nvm : Nvm) (c : Chip) : Chip :=
  let c := if anyFeed c then c else abandonImage c
  let c := followCarrying (packPolicies c)
  let c := followRail nvm c
  if c.seq.mode = .limp ∧ anyFeed c = false ∧ shutting c = false then dueShut nvm c else c

/-! ### Meanings of pack events that may put the pack on the rail -/

def execPrechargeStart (t : Time) (s : State) : Outcome := run t (fun nvm c => followRail nvm (prechargeStart c)) s

def execPrechargeComplete (t : Time) (_maxBandMv _maxMa _durNs : FromWords) (s : State) : Outcome :=
  run t (fun nvm c => followRail nvm (prechargeComplete c)) s

def execPackReenable (t : Time) (_minMv _durNs : FromWords) (s : State) : Outcome :=
  run t (fun nvm c => followRail nvm (packReenable c)) s

end Sys2Proof.Machine
end

