-- ==== Sys2Proof/Machine/Feed.lean ====
section
/-! DEFINITION. The feeds (chapter 7): windows and insertion delay, inrush and its governor, the drop regulator, fuse and
fast trips of all three comparators, retries, mirage, the Kelvin tell-tale, the charge pump, and metering. -/

namespace Sys2Proof.Machine

/-! ### States -/

/-- V_BUS of the fast path, mV. -/
def busFastMv (c : Chip) : Rat := c.meas.vBus.fastHeld

/-- The tell-tale test of a feed may run in its state (R312, R321). -/
def kelvinFeed (x : Feed) : Bool := !feedDriven x && x.st != .blocking && x.st != .absent

/-- The channel takes a state with the inrush or re-enable that runs in it; a tell-tale test ends where it may not run. -/
def feedTo (f : FeedId) (st : FeedSt) (inr : Option Inrush) (c : Chip) : Chip :=
  updFeed f (fun x =>
    let y := { x with st := st, inr := inr }
    { y with
      kTest := if kelvinFeed y then x.kTest else none
      offAt := if feedDriven x && !feedDriven y then c.now else x.offAt
      peak := if st = .on && x.st ≠ .on then 0 else x.peak }) c

/-- The same with an off cause (Table 7.7). -/
def feedOff (f : FeedId) (st : FeedSt) (cause : Nat) (c : Chip) : Chip :=
  updFeed f (fun x => { x with offCause := cause }) (feedTo f st none c)

/-- The capacitance estimate of an inrush, µF (R292). -/
def inrushCap (c : Chip) (x : Inrush) : Rat :=
  let dv := busFastMv c - x.vBus0
  match x.cM with
  | some m => m / 1000
  | none => if 50 ≤ dv then x.q / dv / 1000 else 0

/-- The figures of an inrush alone: its capacitance estimate and energy (R292). -/
def noteCap (f : FeedId) (x : Inrush) (c : Chip) : Chip :=
  let cap := inrushCap c x
  { updFeed f (fun y => { y with cEst := satR 16 cap, eLast := satR 16 x.e }) c with rail.cEst := satR 32 cap }

/-- An inrush or re-enable ends: its figures are kept for the report (Table 7.6). -/
def noteInrush (f : FeedId) (c : Chip) : Chip :=
  match (feed c f).inr with
  | none => c
  | some x =>
    let c := if (feed c f).st = .inrush then noteCap f x c else c
    updFeed f (fun y => { y with
      durLast := tenths (c.now - x.start), limLast := satR 16 (x.iL * ((feedCfg c f).rsns : Rat) / 100000) }) c

/-- A failure of the channel (R275, R309). -/
def feedFail (f : FeedId) (cause : Nat) (nvm : Nvm) (c : Chip) : Chip :=
  let c := noteInrush f c
  let was := feedAccepted (feed c f)
  let retry := decide ((feed c f).retries < 3)
  let c := feedOff f (if retry then .retryWait else .latched) cause c
  let ms24 := sampleMs24 c
  let c := updFeed f (fun x => { x with
    lastFail := (cause, ms24), retries := if retry then x.retries + 1 else x.retries, waitAt := c.now }) c
  let c := setFaultIf (!retry) (F.feedLatched f) c
  if was then feedGone nvm c else c

/-! ### Windows and insertion delay (R276 … R283, R843) -/

/-- No channel leaves WATCH in LIMP until the feed set is decided (R277). -/
def feedSetKnown (c : Chip) : Bool := !inLimp c || c.seq.limpSet24.isSome

/-- Both windows are satisfied. -/
def windowsOk (x : Feed) : Bool := x.uvOk && x.ovOk

/-- The insertion delay has run out, which aborts a shut-down sequence before its commit point (R281, R155). -/
def delayOver (f : FeedId) (c : Chip) : Chip := abortShut (feedTo f .held none c)

/-- A channel in WATCH whose windows are satisfied enters DELAY, which starts the charge pump and ends a duty state (R281,
R282, R283, R450). -/
def watchCheck (f : FeedId) (c : Chip) : Chip :=
  let x := feed c f
  if x.st = .watch ∧ x.armed ∧ windowsOk x ∧ feedSetKnown c then
    let c := feedTo f .delay none (leaveDuty c)
    let c := updFeed f (fun x => { x with delayAt := c.now }) c
    if (feedCfg c f).insDelay = 0 then delayOver f c else c
  else c

/-- The channel enters WATCH. -/
def feedWatch (f : FeedId) (c : Chip) : Chip := watchCheck f (feedTo f .watch none c)

/-- What the comparators hold after FA_IN has stood at `mv` (R278, R279). -/
def windowLevels (k : FeedCfg) (mv : Int) (x : Feed) : Bool × Bool :=
  let uv : Int := ((k.uvRise * 100 : Nat) : Int)
  let ov : Int := ((k.ovRise * 100 : Nat) : Int)
  (if x.uvOk then decide (uv - ((k.uvHyst * 100 : Nat) : Int) ≤ mv) else decide (uv ≤ mv),
   if x.ovOk then decide (mv ≤ ov) else decide (mv < ov - ((k.ovHyst * 100 : Nat) : Int)))

/-- A window is left: the states that return to WATCH do so (Table 7.2, R323). -/
def windowLeft (f : FeedId) (cause : Nat) (nvm : Nvm) (c : Chip) : Chip :=
  match (feed c f).st with
  | .delay => updFeed f (fun x => { x with evs := bump 255 1 x.evs }) (feedTo f .watch none c)
  | .held => feedTo f .watch none c
  | .inrush => feedOff f .watch cause (noteInrush f c)
  | .on | .blocking => feedGone nvm (feedOff f .watch cause (noteInrush f c))
  | _ => c

/-- The comparators take a level that has persisted, from the end of step 1 on (R124, R280). -/
def windowCrossing (f : FeedId) (mv : Int) (durNs : Nat) (nvm : Nvm) (c : Chip) : Chip :=
  if !running c || decide (durNs < us 50) || !(feed c f).armed then c
  else
    let x := feed c f
    let (uv, ov) := windowLevels (feedCfg c f) mv x
    let c := setFaultIf (x.ovOk && !ov && x.st != .absent) (F.feedOv f) c
    let c := updFeed f (fun x => { x with uvOk := uv, ovOk := ov }) c
    if x.ovOk && !ov then windowLeft f 0x02 nvm c
    else if x.uvOk && !uv then windowLeft f 0x01 nvm c
    else watchCheck f c

/-- The insertion delay is looked at (DEDUCED, log entry 83). -/
def delayExpiry (f : FeedId) (c : Chip) : Chip :=
  let x := feed c f
  if x.st = .delay ∧ x.delayAt + ms ((feedCfg c f).insDelay * 10) ≤ c.now then delayOver f c else c

/-! ### Inrush (R284 … R292) -/

/-- I_MAX, mA. -/
def inrushMax (k : FeedCfg) : Rat := ((k.inrushLim * 1000000 : Nat) : Rat) / (k.rsns : Rat)

/-- Step 5 is sure to be skipped for the completion band while step 4 still runs (R125, R127). -/
def preSkipSure (c : Chip) : Bool := bandMet c

/-- Step 5 is skipped (R127). -/
def preSkipped (c : Chip) : Bool := !c.prs.present || c.pack.st == .isolated || bandMet c

/-- CONFIGURE has passed the step that R125 names: step 5, or step 3 when step 5 is skipped. -/
def inrushStepPassed (c : Chip) : Bool :=
  c.seq.mode != .configure || decide (6 ≤ c.seq.step) || (c.seq.step == 4 && preSkipSure c)

/-- The other channel is in INRUSH or runs a re-enable. -/
def otherBusy (c : Chip) (f : FeedId) : Bool := (feed c (otherFeed f)).inr.isSome

/-- An inrush or a re-enable as it begins. The auxiliary scan makes no conversion of FA_IN at this instant, so V_IN0 is the
last VALID one (DESIGN CHOICE, log entry 115). -/
def freshInrush (c : Chip) (f : FeedId) : Inrush :=
  { start := c.now, vIn0 := (feedInMv c f : Rat), vBus0 := busFastMv c, iL := inrushMax (feedCfg c f)
    update := c.now + us 250 }

/-- A channel in HELD may begin inrush (R284). A stopped GATE domain turns no FET on (R208), step 7 of a shut-down sequence
keeps the gates sunk (Table 4.4), and so does a trip whose verdict pends (DESIGN CHOICE, log entry 139). -/
def inrushAllowed (c : Chip) (f : FeedId) : Bool :=
  let x := feed c f
  x.st == .held && inrushStepPassed c && c.rail.pumpReady && !otherBusy c f && x.trip.due.isNone && gateRuns c
    && decide (c.seq.shutStep < 7)

/-- INRUSH_START: when both channels are ready feed A begins first. -/
def inrushStart (f : FeedId) (c : Chip) : Chip :=
  if inrushAllowed c f && !(f == .b && inrushAllowed c .a) then feedTo f .inrush (some (freshInrush c f)) c else c

/-- The inrush or re-enable fails (R287, R288, R291). -/
def inrushFail (f : FeedId) (nvm : Nvm) (c : Chip) : Chip :=
  match (feed c f).inr with
  | none => c
  | some x =>
    let short := decide (busFastMv c - x.vBus0 < 1000)
    let c := setFault (if short then F.feedShort f else F.feedInrush f) c
    let c := updFeed f (fun x => { x with trips := bump 255 3 x.trips }) c
    feedFail f (if short then 0x06 else 0x07) nvm c

/-- The governor's law of R286. -/
def governorLaw (k : FeedCfg) (t : Nat) (vBus : Rat) (x : Inrush) : Inrush :=
  let iMax := inrushMax k
  let dv := vBus - x.vBus0
  if 50 ≤ dv then
    let cm := x.q / dv
    let left : Rat := (((k.inrushTimer * 500000 : Nat) : Int) - (t : Int) : Int)
    let iL := clampRat (iMax / 16) iMax (cm * (x.vIn0 - vBus) / ratMax left 1000000)
    { x with cM := some cm, iL := iL }
  else { x with iL := iMax / 16 }

/-- INRUSH_GOVERNOR_UPDATE. -/
def governorUpdate (f : FeedId) (c : Chip) : Chip :=
  match (feed c f).inr with
  | some x =>
    if x.update ≤ c.now then
      let y := governorLaw (feedCfg c f) (c.now - x.start) (busFastMv c) x
      updFeed f (fun z => { z with inr := some { y with update := x.update + ms 1 } }) c
    else c
  | none => c

/-- INRUSH_TIMEOUT (R288). -/
def inrushTimeout (f : FeedId) (nvm : Nvm) (c : Chip) : Chip :=
  match (feed c f).inr with
  | some x => if x.start + ms (feedCfg c f).inrushTimer ≤ c.now then inrushFail f nvm c else c
  | none => c

/-- A channel is accepted: V_T starts at DROP_MAX (R294). -/
def acceptFeed (f : FeedId) (nvm : Nvm) (c : Chip) : Chip :=
  let c := feedTo f .on none c
  let c := updFeed f (fun x => { x with
    vT := (feedCfg c f).dropMax, noisy := false, winAt := c.now, quietAt := c.now, goodAt := c.now
    evs := bump 65535 0 x.evs }) c
  feedArrived nvm c

/-- The completion conditions of R289 have held: that on the fast words, and that on FA_IN − FA_SP. -/
def inrushDone (c : Chip) (f : FeedId) (maxDropMv : Int) (durNs : Nat) : Bool :=
  (feed c f).inr.elim false fun x =>
    heldFor c (ms 1) x.low && decide (ms 1 ≤ durNs) && decide (x.start + ms 1 ≤ c.now) && decide (maxDropMv ≤ 500)

/-- INRUSH_COMPLETE: the channel enters ON, by acceptance or from a re-enable (R289, R296); not while a trip's verdict pends
(DESIGN CHOICE, log entry 139). -/
def inrushComplete (f : FeedId) (maxDropMv : Int) (durNs : Nat) (nvm : Nvm) (c : Chip) : Chip :=
  if inrushDone c f maxDropMv durNs && (feed c f).trip.due.isNone then
    let first := (feed c f).st == .inrush
    let c := noteInrush f c
    if first then acceptFeed f nvm c else feedTo f .on none c
  else c

/-! ### Ideal diode (R293 … R297) -/

/-- The fast reverse turn-off (R295). -/
def fastReverse (f : FeedId) (uv : Int) (c : Chip) : Chip :=
  if feedDriven (feed c f) && decide (uv < -(((feedCfg c f).revThr * 1000 : Nat) : Int)) then
    let st := if (feed c f).st = .inrush then FeedSt.held else .blocking
    let c := feedOff f st 0x03 (noteInrush f c)
    followCarrying (updFeed f (fun x => { x with noisy := true, evs := bump 255 2 x.evs }) c)
  else c

/-- FEED_REENABLE_START (R296); not while a trip's verdict pends (DESIGN CHOICE, log entry 139). -/
def reenableStart (f : FeedId) (minDropMv : Int) (durNs : Nat) (c : Chip) : Chip :=
  let x := feed c f
  if x.st = .blocking ∧ x.inr = none ∧ x.trip.due = none ∧ c.rail.pumpReady ∧ gateRuns c ∧ us 50 ≤ durNs
      ∧ ((x.vT : Nat) : Int) ≤ minDropMv then
    feedTo f .blocking (some (freshInrush c f)) c
  else c

/-- A window of the drop regulator ends (R294). -/
def dropAdapt (f : FeedId) (c : Chip) : Chip :=
  let k := feedCfg c f
  if !feedAccepted (feed c f) || decide (c.now < (feed c f).winAt + ms 10) then c
  else
    updFeed f (fun x =>
      if x.noisy then { x with vT := min k.dropMax (x.vT + 4), noisy := false, winAt := c.now, quietAt := c.now }
      else if x.quietAt + sec 1 ≤ c.now then
        { x with vT := max k.dropMin (x.vT - 1), winAt := c.now, quietAt := c.now }
      else { x with winAt := c.now }) c

/-! ### Fuse (R298 … R300, R349, R350) -/

/-- A slow-fuse threshold, µV (R298). -/
def fuseUv (c : Chip) (slow : Nat) : Rat := ((slow * 500 : Nat) : Rat) * (c.tmp.dF : Rat) / 256

/-- The heat after a fast word of `v` µV (R299), kept to 2^−60 (log entry 22). -/
def heatStep (h v vth : Rat) (tauMs : Nat) : Rat :=
  roundTo (2 ^ 60) (h + ((v / vth) * (v / vth) - h) * 2560 / ((tauMs * 1000000 : Nat) : Rat))

/-- A fast word reaches the inrush or re-enable in progress (R286, R287, R289). -/
def inrushWord (f : FeedId) (i : Rat) (c : Chip) : Chip :=
  match (feed c f).inr with
  | some x =>
    let y := { x with
      q := x.q + i * 2560, e := x.e + (x.vIn0 - busFastMv c) * i * 2560 / 1000000000000
      low := holdsSince c.now x.low (decide (2 * i < x.iL)) }
    updFeed f (fun z => { z with inr := some y }) c
  | none => c

/-- The energy budget of the inrush is spent (R287). -/
def budgetSpent (c : Chip) (f : FeedId) : Bool :=
  (feed c f).inr.elim false fun x => decide (((feedCfg c f).govBudget : Rat) ≤ x.e)

/-- A fast word of a feed channel: fuse heat, the peak since ON was last entered, inrush sums and reverse excursions. -/
def feedFast (f : FeedId) (w : Sample) (nvm : Nvm) (c : Chip) : Chip :=
  let k := feedCfg c f
  let i := maOf k.rsns w.value
  let c := updFeed f (fun x => { x with
    heat := heatStep x.heat w.value (fuseUv c k.fuseSlow) k.fuseTau
    peak := if x.evs.headD 0 = 0 then x.peak else ratMax x.peak i
    noisy := x.noisy || decide (w.value < -((k.revThr * 500 : Nat) : Rat)) }) c
  let c := inrushWord f i c
  let x := feed c f
  if feedAccepted x && decide (1 ≤ x.heat) then
    let c := updFeed f (fun x => { x with trips := bump 255 2 x.trips }) (setFault (F.feedFuse f) c)
    feedFail f 0x05 nvm c
  else if budgetSpent c f then inrushFail f nvm c
  else c

/-- A fast word of I_P: the pack fuse (R349, R350) and PEAK. -/
def packFast (w : Sample) (c : Chip) : Chip :=
  let k := (cfg c).pack
  let i := maOf k.rsns w.value
  let c := { c with pack := { c.pack with
    heat := heatStep c.pack.heat (ratMax w.value 0) (fuseUv c k.fuseSlow) k.fuseTau
    peak := if c.pack.diodeRan then ratMax c.pack.peak i else c.pack.peak } }
  if packConnected c.pack.st && decide (1 ≤ c.pack.heat) then
    packFail 0x05 (setFault F.packFuse { c with pack.trips := bump 255 2 c.pack.trips })
  else c

/-! ### Fast trips (R301 … R306, R351 … R353, R844) -/

/-- FAST_TRIP of a comparator's section. -/
def tripCode (c : Chip) : TripId → Nat
  | .a => (cfg c).feedA.fastTrip
  | .b => (cfg c).feedB.fastTrip
  | .p => (cfg c).pack.fastTrip

/-- S_MIN (R303). -/
def sMin (code : Nat) : Nat := 480 + 120 * fastTripUv code / 250000

def tripOf (c : Chip) : TripId → Trip
  | .a => c.feedA.trip
  | .b => c.feedB.trip
  | .p => c.pack.trip

def setTrip (k : TripId) (x : Trip) (c : Chip) : Chip :=
  match k with
  | .a => { c with feedA.trip := x }
  | .b => { c with feedB.trip := x }
  | .p => { c with pack.trip := x }

/-- The comparator is armed: in every state except ABSENT (R844, R352). -/
def tripArmed (c : Chip) (k : TripId) : Bool :=
  running c && (match k with
    | .a => c.feedA.st != .absent
    | .b => c.feedB.st != .absent
    | .p => true)

/-- A tell-tale pulse ends at once, and its test is repeated 1 s later (R330). -/
def endPulse (k : TripId) (c : Chip) : Chip :=
  match k with
  | .a => if c.feedA.kTest.isSome then { c with feedA.kTest := none, feedA.kLast := some c.now } else c
  | .b => if c.feedB.kTest.isSome then { c with feedB.kTest := none, feedB.kLast := some c.now } else c
  | .p => if c.pack.kTest.isSome then { c with pack.kTest := none, pack.kLast := some c.now } else c

/-- A fast-trip comparator fires: its gates are sunk, the confirmation sum starts, and a slow-chop block pair in progress is
discarded (R174, R218, R302, R351), with which the chop ends at once (DESIGN CHOICE, log entry 134). -/
def tripFire (k : TripId) (uv : Int) (c : Chip) : Chip :=
  if tripArmed c k && (tripOf c k).due.isNone && decide (((fastTripUv (tripCode c k) : Nat) : Int) ≤ uv) then
    let c := updChan (tripChan k) (fun x => { x with chop := none }) c
    startBurst (endPulse k (setTrip k { tripOf c k with due := some (c.now + 2560) } c))
  else c

/-- A confirmed trip on a feed (R304, R844). -/
def feedConfirmed (f : FeedId) (nvm : Nvm) (c : Chip) : Chip :=
  let c := updFeed f (fun x => { x with trips := bump 255 0 x.trips }) (setFault (F.feedFastTrip f) c)
  match (feed c f).st with
  | .inrush | .on | .blocking => feedFail f 0x04 nvm c
  | _ => c

/-- A refuted trip on a feed (R305, R844). With the GATE domain stopped, nothing turns its gates on again (R208): an inrush
returns to HELD as for a low charge pump, and a re-enable ends (DEDUCED, log entry 140). -/
def feedRefuted (f : FeedId) (c : Chip) : Chip :=
  let c := updFeed f (fun x => { x with trips := bump 255 1 x.trips }) c
  let cause (c : Chip) : Chip := updFeed f (fun x => { x with offCause := 0x0B }) c
  match (feed c f).st, (feed c f).inr with
  | .on, _ => followCarrying (feedOff f .blocking 0x0B c)
  | .inrush, _ =>
    if gateRuns c then cause (feedTo f .inrush (some (freshInrush c f)) (noteInrush f c))
    else feedOff f .held 0x0B (noteInrush f c)
  | .blocking, some _ =>
    cause (feedTo f .blocking (if gateRuns c then some (freshInrush c f) else none) (noteInrush f c))
  | _, _ => c

/-- A confirmed trip on I_P (R352). -/
def packConfirmed (c : Chip) : Chip :=
  let c := setFault F.packFastTrip { c with pack.trips := bump 255 0 c.pack.trips }
  if packConnected c.pack.st then packFail 0x03 c else c

/-- A refuted trip on I_P (R353). With the GATE domain stopped, the gates stay sunk as for a low charge pump (R208)
(DEDUCED, log entry 140). -/
def packRefuted (c : Chip) : Chip :=
  let c := { c with pack.trips := bump 255 1 c.pack.trips }
  if packConnected c.pack.st then { c with pack.offCause := 0x04, pack.cpLow := c.pack.cpLow || !gateRuns c } else c

/-- The confirmation sum S of native codes that add up to `sum`: the tracked offset is subtracted from each of the 64 words,
480 codes spanning 250 mV (R180, R303). -/
def confirmSum (c : Chip) (k : TripId) (sum : Nat) : Rat := (sum : Rat) - offsetNow (chan c (tripChan k)) * 480 / 250000

/-- The verdict of R303; a fourth refuted trip within 1 s counts as confirmed (R306) (DEDUCED, log entry 103). -/
def tripVerdict (k : TripId) (sum : Nat) (nvm : Nvm) (c : Chip) : Chip :=
  let x := tripOf c k
  if x.due = none then c
  else
    let high := decide ((sMin (tripCode c k) : Rat) ≤ confirmSum c k sum)
    let times := if high then x.refuted else pushTime (sec 1) c.now x.refuted
    let confirmed := high || decide (4 ≤ times.length)
    let c := setTrip k { due := none, refuted := times } c
    match k, confirmed with
    | .a, true => feedConfirmed .a nvm c
    | .a, false => feedRefuted .a c
    | .b, true => feedConfirmed .b nvm c
    | .b, false => feedRefuted .b c
    | .p, true => packConfirmed c
    | .p, false => packRefuted c

/-! ### Retries, reversal and mirage -/

/-- The 10 s of RETRY_WAIT are looked at (R307). -/
def feedRetryExpiry (f : FeedId) (c : Chip) : Chip :=
  let x := feed c f
  if x.st = .retryWait ∧ x.waitAt + sec 10 ≤ c.now then feedTo f (if windowsOk x then .held else .watch) none c else c

/-- The 60 s without failure are looked at (R308). -/
def feedRetryReset (f : FeedId) (c : Chip) : Chip :=
  let x := feed c f
  if feedAccepted x && decide (x.goodAt + sec 60 ≤ c.now) then updFeed f (fun x => { x with retries := 0 }) c else c

/-- A LATCHED channel whose feed is uncoupled (R276). -/
def feedUncoupled (f : FeedId) (maxMv : Int) (durNs : Nat) (c : Chip) : Chip :=
  if (feed c f).st = .latched ∧ maxMv < 4000 ∧ sec 1 ≤ durNs then feedWatch f c else c

/-- The feed is reversed (Table 7.2). FAULT_HOLD by mirage stands (DEDUCED, log entry 84). -/
def feedReversed (f : FeedId) (maxMv : Int) (durNs : Nat) (nvm : Nvm) (c : Chip) : Chip :=
  let x := feed c f
  if x.st = .absent ∨ x.st = .reversed ∨ !running c ∨ -4000 ≤ maxMv ∨ durNs < ms 100 then c
  else
    let c := setFault (F.feedReversed f) c
    if x.st = .faultHold ∧ x.mirage then c
    else
      let c := feedOff f .reversed 0x09 (noteInrush f c)
      if feedAccepted x then feedGone nvm c else c

/-- The reversal has gone (Table 7.2). -/
def feedReversalClear (f : FeedId) (minMv : Int) (durNs : Nat) (c : Chip) : Chip :=
  if (feed c f).st = .reversed ∧ 0 < minMv ∧ ms 100 ≤ durNs then feedWatch f c else c

/-- The channel enters FAULT_HOLD by mirage from the states that Table 7.2 lists; the bit is set from every state but ABSENT,
in which the feed's pins are ignored (R66). A FAULT_HOLD by an open Kelvin line becomes one by mirage, which stands until
CONFIGURE (Table 7.9). -/
def feedMirageFound (f : FeedId) (nvm : Nvm) (c : Chip) : Chip :=
  let c := setFaultIf ((feed c f).st != .absent) (F.feedMirage f) c
  let x := feed c f
  match x.st with
  | .faultHold => updFeed f (fun x => { x with mirage := true }) c
  | .watch | .delay | .held | .retryWait | .latched | .blocking =>
    let c := updFeed f (fun x => { x with mirage := true }) (feedOff f .faultHold 0x08 c)
    if feedAccepted x then feedGone nvm c else c
  | _ => c

/-- FEED_MIRAGE_CHECK (R310). -/
def feedMirageCheck (f : FeedId) (nvm : Nvm) (c : Chip) : Chip :=
  let x := feed c f
  if feedDriven x || x.st == .absent || (x.st == .faultHold && x.mirage) || decide (c.now < x.offAt + ms 3) then c
  else match msMean c (feedChan f) with
    | some i => if 30 < absRat i then feedMirageFound f nvm c else c
    | none => c

/-- A pack mirage that overcharges stops the feeds (R368). -/
def mirageFeedStop (nvm : Nvm) (c : Chip) : Chip :=
  if heldFor c (sec 1) c.pack.hold.mirageHigh then
    let c' := if feedAccepted c.feedA then feedFail .a 0x08 nvm c else c
    if feedAccepted c'.feedB then feedFail .b 0x08 nvm c' else c'
  else c

/-! ### Kelvin tell-tale (R312, R313, R369) -/

/-- The test runs in this state of the pair (DEDUCED, log entry 85). -/
def kelvinState (c : Chip) : TripId → Bool
  | .a => kelvinFeed c.feedA
  | .b => kelvinFeed c.feedB
  | .p => kelvinPack c.pack.st

/-- Mean of the 16 fast words before the test, µV. -/
def kelvinBase (x : ModCh) : Rat := meanRat ((x.fastHist.take 16).map (·.value))

/-- KELVIN_TEST_START. -/
def kelvinStart (k : TripId) (c : Chip) : Chip :=
  let base := kelvinBase (chan c (tripChan k))
  let due (test last : Option Time) : Bool := test.isNone && last.elim true fun t => decide (t + sec 1 ≤ c.now)
  if !(running c && kelvinState c k && (tripOf c k).due.isNone) then c
  else match k with
    | .a => if due c.feedA.kTest c.feedA.kLast then
        { c with feedA := { c.feedA with kTest := some c.now, kLast := some c.now, kBase := base, kSeen := {} } } else c
    | .b => if due c.feedB.kTest c.feedB.kLast then
        { c with feedB := { c.feedB with kTest := some c.now, kLast := some c.now, kBase := base, kSeen := {} } } else c
    | .p => if due c.pack.kTest c.pack.kLast then
        { c with pack := { c.pack with kTest := some c.now, kLast := some c.now, kBase := base, kSeen := {} } } else c

/-- A fast-path sense voltage of `uv` during a test that began at `test`: the line of its pulse is open when any word of the
pulse lies more than 5 mV from the base (R312). -/
def kelvinSee (now : Time) (test : Option Time) (base uv : Rat) (k : KelvinSeen) : KelvinSeen :=
  match test with
  | none => k
  | some t =>
    let far := decide (5000 < absRat (uv - base))
    if now ≤ t || t + ms 1 < now then k
    else if now ≤ t + us 500 then { k with p := some (far || k.p.getD false) }
    else { k with n := some (far || k.n.getD false) }

/-- A fast word reaches the tell-tale test of its channel. -/
def kelvinWord (ch : ChId) (uv : Rat) (c : Chip) : Chip :=
  match ch with
  | .iA => { c with feedA.kSeen := kelvinSee c.now c.feedA.kTest c.feedA.kBase uv c.feedA.kSeen }
  | .iB => { c with feedB.kSeen := kelvinSee c.now c.feedB.kTest c.feedB.kBase uv c.feedB.kSeen }
  | .iP => { c with pack.kSeen := kelvinSee c.now c.pack.kTest c.pack.kBase uv c.pack.kSeen }
  | .vBus | .vPack => c

/-- The verdict of a test: a line is open, or both are whole; none without a word of each pulse (DEDUCED, log entry 144). -/
def lineOpen (k : KelvinSeen) : Option Bool :=
  match k.p, k.n with
  | some p, some n => some (p || n)
  | some true, none | none, some true => some true
  | _, _ => none

/-- A channel's words carry OPEN, or no longer do. -/
def setKelvinOpen (k : TripId) (o : Bool) (c : Chip) : Chip := updChan (tripChan k) (fun x => { x with kelvinOpen := o }) c

/-- A feed's sense pair was found open. -/
def feedKelvinOpen (f : FeedId) (k : TripId) (c : Chip) : Chip :=
  let c := setKelvinOpen k true (updFeed f (fun x => { x with kPass := 0 }) (setFault (F.feedKelvin f) c))
  if (feed c f).st = .faultHold then c else feedOff f .faultHold 0x0A c

/-- A feed's sense pair passed its test; the second pass in a row releases it (R313). -/
def feedKelvinPass (f : FeedId) (k : TripId) (c : Chip) : Chip :=
  let c := updFeed f (fun x => { x with kPass := satInc 2 x.kPass }) c
  if (chan c (tripChan k)).kelvinOpen && decide (2 ≤ (feed c f).kPass) then
    let c := setKelvinOpen k false c
    if (feed c f).st = .faultHold ∧ (feed c f).mirage = false then feedWatch f c else c
  else c

/-- The pack's sense pair was found open (R369). -/
def packKelvinOpen (c : Chip) : Chip :=
  let c := setKelvinOpen .p true (setFault F.packKelvin { c with pack.kPass := 0 })
  if c.pack.st = .faultHold then c else packOff .faultHold 0x0A c

/-- The pack's sense pair passed its test. -/
def packKelvinPass (c : Chip) : Chip :=
  let c := { c with pack.kPass := satInc 2 c.pack.kPass }
  if c.meas.iP.kelvinOpen && decide (2 ≤ c.pack.kPass) then
    let c := setKelvinOpen .p false c
    if c.pack.st = .faultHold ∧ c.pack.mirage = false then (if c.prs.present then enterWait c else enterPack .noPack c) else c
  else c

/-- KELVIN_TEST_END, 1 ms after its start. -/
def kelvinEnd (k : TripId) (c : Chip) : Chip :=
  let exceeds (test : Option Time) : Bool := heldFor c (ms 1) test
  match k with
  | .a =>
    if !exceeds c.feedA.kTest then c
    else
      let c' := { c with feedA.kTest := none }
      (lineOpen c.feedA.kSeen).elim c' fun o => if o then feedKelvinOpen .a .a c' else feedKelvinPass .a .a c'
  | .b =>
    if !exceeds c.feedB.kTest then c
    else
      let c' := { c with feedB.kTest := none }
      (lineOpen c.feedB.kSeen).elim c' fun o => if o then feedKelvinOpen .b .b c' else feedKelvinPass .b .b c'
  | .p =>
    if !exceeds c.pack.kTest then c
    else
      let c' := { c with pack.kTest := none }
      (lineOpen c.pack.kSeen).elim c' fun o => if o then packKelvinOpen c' else packKelvinPass c'

/-! ### Charge pump (R331, R388, R845) -/

/-- A feed channel when the pump is low. -/
def feedPumpLow (f : FeedId) (c : Chip) : Chip :=
  if feedDriven (feed c f) || (feed c f).st == .blocking then
    feedOff f (if (feed c f).st = .inrush then .held else .blocking) 0x0D (noteInrush f c)
  else c

/-- The pack path when the pump is low (DEDUCED, log entry 87). -/
def packPumpLow (c : Chip) : Chip :=
  let c := endCharge 0x01 .standby c
  if packSunkSt c.pack.st then c else { c with pack := { c.pack with cpLow := true, offCause := 0x0E, offAt := c.now } }

/-- VCP has fallen: below V_TOP + 10 V it is not ready (R845), and 100 µs below V_TOP + 8 V sink the gates. -/
def pumpLow (aboveMv : Int) (durNs : Nat) (c : Chip) : Chip :=
  if !running c || decide (10000 ≤ aboveMv) then c
  else
    let c := { c with rail.pumpReady := false }
    if aboveMv < 8000 ∧ us 100 ≤ durNs then followCarrying (packPumpLow (feedPumpLow .b (feedPumpLow .a c))) else c

/-- VCP has stood high for 100 µs: the GATE domain, while it runs, reports the pump ready (R845). -/
def pumpReady (aboveMv : Int) (durNs : Nat) (nvm : Nvm) (c : Chip) : Chip :=
  if 10000 ≤ aboveMv ∧ us 100 ≤ durNs ∧ running c ∧ gateRuns c then
    let c := { c with rail.pumpReady := true }
    if c.pack.cpLow then
      followRail nvm { c with pack := { c.pack with
        cpLow := false, preAt := if c.pack.st = .precharge then c.now else c.pack.preAt
        standbyAt := if c.pack.st = .standby then c.now else c.pack.standbyAt } }
    else c
  else c

/-! ### Metering (R314) -/

/-- A pair of precise words of a feed's current and V_BUS with the same stamp (DEDUCED, log entry 86). -/
def feedMeter (f : FeedId) (i v : Sample) (c : Chip) : Chip :=
  let r := (feedCfg c f).rsns
  let (ps, ws) := meterPairs (feed c f).wait i v (wordNs c)
  let add (x : Feed) (p : MeterPair) : Feed :=
    let ma := maOf r p.i
    let w := ma * p.v / 1000
    { x with
      charge := x.charge + ma * p.dt / 3600000000
      energy := if 0 < w then x.energy + w * p.dt / 1000000000 else x.energy }
  updFeed f (fun x => ps.foldl add { x with power := maOf r i.value * v.value / 1000, wait := ws }) c

/-! ### Meanings -/

def execFeedWindowCrossing (t : Time) (feed : FeedId) (mv : Int) (durNs : Nat) (s : State) : Outcome :=
  run t (fun nvm c => windowCrossing feed mv durNs nvm c) s

def execInsertionDelayExpiry (t : Time) (feed : FeedId) (s : State) : Outcome := run t (fun _ c => delayExpiry feed c) s

def execInrushStart (t : Time) (feed : FeedId) (s : State) : Outcome := run t (fun _ c => inrushStart feed c) s

def execInrushGovernorUpdate (t : Time) (feed : FeedId) (s : State) : Outcome := run t (fun _ c => governorUpdate feed c) s

def execInrushTimeout (t : Time) (feed : FeedId) (s : State) : Outcome := run t (fun nvm c => inrushTimeout feed nvm c) s

def execInrushComplete (t : Time) (feed : FeedId) (_maxUv : FromWords) (maxDropMv : Int) (durNs : Nat) (s : State) : Outcome :=
  run t (fun nvm c => inrushComplete feed maxDropMv durNs nvm c) s

def execFeedFastReverse (t : Time) (feed : FeedId) (uv : Int) (s : State) : Outcome := run t (fun _ c => fastReverse feed uv c) s

def execFeedReenableStart (t : Time) (feed : FeedId) (minDropMv : Int) (durNs : Nat) (s : State) : Outcome :=
  run t (fun _ c => reenableStart feed minDropMv durNs c) s

def execDropTargetAdapt (t : Time) (feed : FeedId) (s : State) : Outcome := run t (fun _ c => dropAdapt feed c) s

def execFeedRetryWaitExpiry (t : Time) (feed : FeedId) (s : State) : Outcome := run t (fun _ c => feedRetryExpiry feed c) s

def execFeedRetryCountReset (t : Time) (feed : FeedId) (s : State) : Outcome := run t (fun _ c => feedRetryReset feed c) s

def execFeedUncoupled (t : Time) (feed : FeedId) (maxMv : Int) (durNs : Nat) (s : State) : Outcome :=
  run t (fun _ c => feedUncoupled feed maxMv durNs c) s

def execFeedReversed (t : Time) (feed : FeedId) (maxMv : Int) (durNs : Nat) (s : State) : Outcome :=
  run t (fun nvm c => feedReversed feed maxMv durNs nvm c) s

def execFeedReversalClear (t : Time) (feed : FeedId) (minMv : Int) (durNs : Nat) (s : State) : Outcome :=
  run t (fun _ c => feedReversalClear feed minMv durNs c) s

def execFeedMirageCheck (t : Time) (feed : FeedId) (s : State) : Outcome := run t (fun nvm c => feedMirageCheck feed nvm c) s

def execPackMirageFeedStop (t : Time) (_minMv _durNs : FromWords) (s : State) : Outcome :=
  run t (fun nvm c => mirageFeedStop nvm c) s

def execFastTripFire (t : Time) (tc : TripId) (uv : Int) (s : State) : Outcome := run t (fun _ c => tripFire tc uv c) s

def execFastTripVerdict (t : Time) (tc : TripId) (sum : Nat) (s : State) : Outcome :=
  run t (fun nvm c => tripVerdict tc sum nvm c) s

def execKelvinTestStart (t : Time) (pair : TripId) (s : State) : Outcome := run t (fun _ c => kelvinStart pair c) s

def execKelvinTestEnd (t : Time) (pair : TripId) (_uvP _uvN : FromWords) (s : State) : Outcome :=
  run t (fun _ c => kelvinEnd pair c) s

def execChargePumpLow (t : Time) (aboveMv : Int) (durNs : Nat) (s : State) : Outcome := run t (fun _ c => pumpLow aboveMv durNs c) s

def execChargePumpReady (t : Time) (aboveMv : Int) (durNs : Nat) (s : State) : Outcome :=
  run t (fun nvm c => pumpReady aboveMv durNs nvm c) s

end Sys2Proof.Machine
end

