-- ==== Sys2Proof/Machine/Measure.lean ====
section
/-! DEFINITION. The modulator channels (chapter 5): words with their status, the offset tracker, calibration points, and the
clock domains. -/

namespace Sys2Proof.Machine

/-! ### Readings (R167, R180, R182, R183) -/

/-- Full scale of a channel, µV or mV (Table 5.1). -/
def fullScale (ch : ChId) : Rat := if isCurrent ch then 250000 else 48000

/-- A code of `bits` bits as a reading in µV or mV (PRESUMED, log entry 107). -/
def rawReading (ch : ChId) (bits : Nat) (code : Int) : Rat := (code : Rat) * fullScale ch / ((2 ^ (bits - 1) : Nat) : Rat)

/-- How many ways `k` of `n` things can be taken. -/
def ways : Nat → Nat → Nat
  | _, 0 => 1
  | n, k + 1 => ways n k * (n - k) / (k + 1)

/-- The weights with which the native words of the last three fast word periods, newest first, enter a word: the parts of
the window of a sinc³ filter that decimates by 64 (Table 5.2), of 64³ in all. -/
def fastWeights : List Nat := [ways 66 3, 64 ^ 3 - ways 66 3 - ways 64 3, ways 64 3]

/-- The same of the last four precise word periods under a sinc⁴ filter that decimates by 4,096. -/
def precWeights : List Nat :=
  let a := ways 4099 4
  let b := ways 8195 4 - 5 * a
  [a, b, 4096 ^ 4 - a - b - ways 4096 4, ways 4096 4]

/-- What a word of these weights has lost to the tracked offset, of which `subs` is the part in each period (R180)
(DEDUCED, log entry 117). -/
def weighed (weights : List Nat) (subs : List Rat) : Rat :=
  ((weights.zip subs).map fun p => (p.1 : Rat) * p.2).foldl (· + ·) 0 / ((weights.foldl (· + ·) 0 : Nat) : Rat)

/-- C.CAL applied (R182, R183): OFFSET in 10 nV or 10 µV, GAIN in 0.1 ppm. -/
def applyCal (c : Chip) (ch : ChId) (w : Rat) : Rat :=
  let k := (cfg c).cal
  (w - (k.offset[chIndex ch] : Rat) / 100) * (1 + (k.gain[chIndex ch] : Rat) / 10000000)

/-- The status of a word (R197, Table 5.6). -/
def wordStatus (x : ModCh) (settling : Bool) (run : Nat) : Status :=
  if x.kelvinOpen then .opn else if 64 ≤ run then .overRange else if settling then .settle else .valid

/-- The value that goes with the status (R198). -/
def wordValue (st : Status) (ch : ChId) (hi : Bool) (v held : Rat) : Rat :=
  match st with
  | .valid => v
  | .overRange => if hi then fullScale ch else -(fullScale ch)
  | _ => held

/-- MOD is back in tolerance: three words of every channel settle (R225). -/
def modReturns (modOk : Bool) (c : Chip) : Chip :=
  if c.meas.modBad && modOk then
    let c := mapChans (fun x => { x with fastSettle := 3, precSettle := 3, chop := none, paired := false }) c
    { c with meas.modBad := false }
  else c

/-- The quiet condition of slow chop (Table 5.3); at CONFIGURE step 2 the chop runs within the self-test. -/
def chopQuiet (c : Chip) : ChId → Bool
  | .iA => !feedAccepted c.feedA
  | .iB => !feedAccepted c.feedB
  | .iP | .vPack => c.gauge.rest
  | .vBus => c.gauge.rest && !anyFeed c

/-! ### Words -/

/-- A fast word of a running channel enters its history. The tell-tale test sees the sense voltage itself, which a word marked
OPEN does not show (R199, R312). -/
def fastStep (ch : ChId) (code : Int) (run : Nat) (hi : Bool) (c : Chip) : Sample × Chip :=
  let x := chan c ch
  let st := wordStatus x (c.meas.modBad || x.fastSettle != 0) run
  let subs := offsetNow x :: x.subFast
  let v := applyCal c ch (rawReading ch 16 code - weighed fastWeights subs)
  let w : Sample := { value := wordValue st ch hi v x.fastHeld, status := st, at_ := c.now }
  let c := if c.meas.modBad || x.fastSettle != 0 then c else kelvinWord ch v c
  (w, setChan c ch { x with
    fast := w, fastHeld := if st = .valid then v else x.fastHeld, subFast := subs.take 2
    fastSettle := if c.meas.modBad then x.fastSettle else x.fastSettle - 1
    fastHist := w :: x.fastHist.filter fun o => decide (c.now ≤ o.at_ + ms 1) })

/-- The first VALID fast word of V_BUS in CONFIGURE step 3 gives V_BUS at the start of the step (R126). -/
def noteBus3 (w : Sample) (c : Chip) : Chip :=
  if c.seq.mode == .configure && c.seq.step == 3 && c.seq.bus3.isNone && w.status == .valid then
    { c with seq.bus3 := some w.value }
  else c

/-- What a fast word serves: fuse, inrush, impedance steps, the end of a burst and the re-enable. -/
def useFast (ch : ChId) (w : Sample) (nvm : Nvm) (c : Chip) : Chip :=
  match ch with
  | .iA => feedFast .a w nvm c
  | .iB => feedFast .b w nvm c
  | .iP => packFast w (followQuiet w (if w.status = .valid then impStep w c else c))
  | .vBus => followDrop (noteBus3 w c)
  | .vPack => followDrop c

/-- FAST_WORD (R170). -/
def fastWord (ch : ChId) (code : Int) (run : Nat) (hi modOk : Bool) (nvm : Nvm) (c : Chip) : Chip :=
  if !running c || !(chan c ch).running then c
  else
    let (w, c) := fastStep ch code run hi (modReturns modOk c)
    useFast ch w nvm c

/-- The channel that a calibration point averages. -/
def calChan : Nat → Option ChId
  | 0 => some .iA
  | 1 => some .iB
  | 2 => some .iP
  | 3 => some .vBus
  | 4 => some .vPack
  | _ => none

/-- Words that a point averages (R185). -/
def calWords (c : Chip) : Nat := if c.cal.ch = 5 then 64 else 256

/-- A VALID word or conversion of the point's 1 s enters the average, in the units of CAL_MEAN (R219). -/
def calAdd (v : Rat) (c : Chip) : Chip :=
  if c.cal.run && decide (c.cal.count < calWords c) && decide (c.now ≤ c.cal.start + sec 1) then
    { c with cal := { c.cal with count := c.cal.count + 1, sum := c.cal.sum + v, sumSq := c.cal.sumSq + v * v } }
  else c

/-- The slow chop after a precise word: it runs while the channel is quiet, from the first word that has settled (R176,
R220). -/
def chopNext (quiet : Bool) (x : ModCh) : Option Nat :=
  if quiet && decide (x.precSettle ≤ 1) then some (x.chop.elim 0 fun p => (p + 1) % 16) else none

/-- A precise word of a running channel enters its history. -/
def precStep (ch : ChId) (code : Int) (run : Nat) (hi : Bool) (c : Chip) : Sample × Chip :=
  let x := chan c ch
  let st := wordStatus x (c.meas.modBad || x.precSettle != 0) run
  let subs := offsetNow x :: x.subPrec
  let r := rawReading ch 24 code - weighed precWeights subs
  let v := applyCal c ch r
  let w : Sample := { value := wordValue st ch hi v x.precHeld, status := st, at_ := c.now }
  let c := setChan c ch { x with
    prec := w, precHeld := if st = .valid then v else x.precHeld
    precSettle := if c.meas.modBad then x.precSettle else x.precSettle - 1
    chop := if c.meas.modBad then none else chopNext (chopQuiet c ch) x
    paired := x.chop == some 15 && !c.meas.modBad, subPrec := subs.take 3
    precHist := w :: x.precHist.filter fun o => decide (c.now ≤ o.at_ + ms 1100) }
  (w, if st = .valid && calChan c.cal.ch == some ch then calAdd (r * 1000) c else c)

/-- A feed is metered when its word and that of V_BUS carry one stamp (R314). -/
def meterFeed (f : FeedId) (c : Chip) : Chip :=
  let i := (chan c (feedChan f)).prec
  let v := c.meas.vBus.prec
  if i.at_ = v.at_ then feedMeter f i v c else c

/-- What the words of I_P and V_PACK with one stamp serve together (R372, R473, R515). -/
def packPair (c : Chip) : Chip :=
  if c.meas.iP.prec.at_ = c.meas.vPack.prec.at_ then
    countV0 c.meas.vPack.prec (impWord c.meas.iP.prec (meterPackPair c))
  else c

/-- What a precise word serves. -/
def usePrecise (ch : ChId) (w : Sample) (c : Chip) : Chip :=
  match ch with
  | .iA => meterFeed .a (followCarrying c)
  | .iB => meterFeed .b (followCarrying c)
  | .iP =>
    let c := packPair (countWord w c)
    followPack (if w.status = .valid then prechargeWord (packMa c w) c else c)
  | .vBus => followPack (meterFeed .b (meterFeed .a c))
  | .vPack => followPack (packPolicies (waitChecks (packPair c)))

/-- PRECISE_WORD (R170, R446). -/
def preciseWord (ch : ChId) (code : Int) (run : Nat) (hi modOk : Bool) (c : Chip) : Chip :=
  if !running c || !(chan c ch).running then c
  else
    let (w, c) := precStep ch code run hi (modReturns modOk c)
    usePrecise ch w c

/-- MODULATOR_RESET (R169, R225). -/
def modulatorReset (ch : ChId) (run : Nat) (c : Chip) : Chip :=
  if !running c || !(chan c ch).running || decide (run < 4096) then c
  else
    let x := restartCh (chan c ch)
    let ts := pushTime (sec 1) c.now x.resetTimes
    let c := setChan c ch { x with resets := satInc 63 x.resets, resetTimes := ts }
    setFaultIf (decide (3 ≤ ts.length)) F.modUnstable c

/-! ### Offset tracker (R176 … R181) -/

/-- Every word of a half lies near the mean of the half (R177). -/
def halfQuiet (ch : ChId) (ws : List Rat) : Bool :=
  let m := meanRat ws
  ws.all fun w => decide (absRat (w - m) ≤ (if isCurrent ch then 5 else 2))

/-- A tracker step of R178, in µV or mV. -/
def trackStep (ch : ChId) (o est : Rat) : Rat :=
  let lim : Rat := if isCurrent ch then 1 / 4 else 1 / 20
  o + clampRat (-lim) lim ((est - o) / 16)

/-- The limit of R181 on a current channel. -/
def holdOffset (ch : ChId) (o : Rat) (c : Chip) : Chip :=
  if isCurrent ch && decide (20 < absRat o) then
    setFault F.offsetLimit (updChan ch (fun x => { x with offset := if o < 0 then -20 else 20 }) c)
  else updChan ch (fun x => { x with offset := o }) c

/-- The two halves of a block pair in µV or mV, and Ô of them (R177). -/
def halves (ch : ChId) (plus minus : List Int) : List Rat × List Rat :=
  (plus.map (rawReading ch 24), minus.map (rawReading ch 24))

def pairEstimate (h : List Rat × List Rat) : Rat := (meanRat h.1 - meanRat h.2) / 2

/-- SLOW_CHOP_BLOCK_PAIR: codes before the tracked offset of the last four words of each half of the pair that has just
ended; one that was broken off is discarded (R218, R220). -/
def blockPair (ch : ChId) (plus minus : List Int) (c : Chip) : Chip :=
  let x := chan c ch
  if !running c || !x.running || !x.paired || plus.length != 4 || minus.length != 4 then c
  else
    let h := halves ch plus minus
    let c := updChan ch (fun x => { x with paired := false }) c
    if halfQuiet ch h.1 && halfQuiet ch h.2 then
      let c := holdOffset ch (trackStep ch x.offset (pairEstimate h)) c
      if ch = .iP then { c with meas.pairs := satInc 65535 c.meas.pairs, meas.lastPair := some c.now } else c
    else c

/-- The mean of the estimates of four block pairs (R179). -/
def zeroOffset (ch : ChId) (ps : Vector BlockWords 4) : Rat :=
  meanRat (ps.toList.map fun b => pairEstimate (halves ch b.plus.toList b.minus.toList))

/-- The block pairs of CONFIGURE step 2 set the tracked offsets, within the limit of R181 (R179); with the end of the zero
phase every path restarts (R173). -/
def selfTestOffsets (z : ZeroPhase) (c : Chip) : Chip :=
  let one (ch : ChId) (ps : Vector BlockWords 4) (c : Chip) : Chip := holdOffset ch (zeroOffset ch ps) c
  let c := one .vPack z.vPack (one .vBus z.vBus (one .iP z.iP (one .iB z.iB (one .iA z.iA c))))
  mapChans (fun x => if x.running then restartCh x else x) c

/-! ### Calibration points (R185, R186, R219) -/

/-- The charger that a SPAN point ran stops with it. -/
def endSpan (c : Chip) : Chip := if c.chg.spanPoint then endCharge 0x01 .standby c else c

/-- CAL_POINT_COMPLETE: the standard deviation is that of the words themselves, with their number as divisor (DESIGN CHOICE,
log entry 118). -/
def calComplete (c : Chip) : Chip :=
  if c.cal.run && decide (calWords c ≤ c.cal.count) then
    let n : Rat := (c.cal.count : Rat)
    let m := c.cal.sum / n
    let mean := roundRat m
    let spread := satR 32 (sqrtRat (c.cal.sumSq / n - m * m))
    endSpan (pendDone 0x23 (0x00, i32B mean ++ u32B spread)
      { c with cal := { c.cal with run := false, done := true, mean := mean, spread := spread } })
  else c

/-- CAL_POINT_TIMEOUT (R219). -/
def calTimeout (c : Chip) : Chip :=
  if c.cal.run && decide (c.cal.count < calWords c) && decide (c.cal.start + sec 1 ≤ c.now) then
    endSpan (pendDone 0x23 (0x10, []) { c with cal := { c.cal with run := false, refused := true } })
  else c

/-! ### Clocks (R203 … R211, R223, R225) -/

/-- The declared crystal frequency, Hz (R204). -/
def crystalHz (c : Chip) : Nat :=
  if (if inLimp c || decide (c.seq.mode = .configure ∧ c.seq.step ≤ 1) then c.clk.measured20 else (cfg c).board.xtal20)
  then 20000000 else 40000000

/-- The controller stops, and CAN_STB goes high. -/
def canOff (c : Chip) : Chip := { c with can := { c.can with on := false, stb := true, wakeAt := none } }

/-- CRYSTAL_FAIL (DEDUCED, log entry 88). -/
def crystalFail (hz badNs : Nat) (c : Chip) : Chip :=
  let d := (hz : Int) - (crystalHz c : Int)
  if running c && decide (us 100 ≤ badNs) && decide (crystalHz c < 100 * d.natAbs) then
    canOff (setFault F.xtalFail { c with clk := { c.clk with xtalOk := false, coreTrimmed := false, lptDisc := false } })
  else c

/-- MOD_CLOCK_FAULT. -/
def modFault (hz badNs : Nat) (c : Chip) : Chip :=
  if running c && decide (us 10 ≤ badNs) && !(decide (24000000 ≤ hz) && decide (hz ≤ 26000000)) then
    setFault F.clockFault { c with meas.modBad := true }
  else c

/-- CORE_TRIM_EXHAUSTED. -/
def coreTrimFault (ppm : Int) (badNs : Nat) (c : Chip) : Chip :=
  if running c && decide (ms 1 ≤ badNs) && decide (20000 < ppm.natAbs) then
    setFault F.clockFault { c with clk := { c.clk with coreBad := true, coreTrimmed := false } }
  else c

def domIndex : DomId → Nat
  | .gate => 0
  | .nvm => 1
  | .crypt => 2

/-- The bounds of Table 5.7, kHz. -/
def domBounds (c : Chip) : DomId → Nat × Nat
  | .gate => (1900, 2100)
  | .nvm => let k := (cfg c).board.nvCk * 1000; (k * 98 / 100, k * 102 / 100)
  | .crypt => (40000, 56000)

/-- DOMAIN_CLOCK_FAULT: the domain restarts once; on a repeat within 1 s it stays stopped, and a stopped GATE reports no
charge pump ready (R845) (DEDUCED, log entry 140). -/
def domainFault (d : DomId) (khz badNs : Nat) (c : Chip) : Chip :=
  let (lo, hi) := domBounds c d
  let i := domIndex d
  if !running c || decide (badNs < us 100) || (decide (lo ≤ khz) && decide (khz ≤ hi)) || c.clk.stopped.getLsbD i then c
  else
    let again := (c.clk.restartAt.getD i none).elim false fun t => decide (c.now ≤ t + sec 1)
    let c := setFault F.clockFault { c with clk := { c.clk with
      stopped := if again then c.clk.stopped ||| (1#3 <<< i) else c.clk.stopped
      restartAt := updAt c.clk.restartAt i fun _ => some c.now } }
    if again && d == .gate then { c with rail.pumpReady := false } else c

/-- QUEUE_OVERFLOW: the lost word is replaced by a SETTLE word, which counts among those that a restart marks (R171, R172). It
is marked SETTLE while the tell-tale test holds the channel OPEN too, and a lost precise word discards the block pair in
progress (DESIGN CHOICE, log entry 135). -/
def queueOverflow (ch : ChId) (precise : Bool) (nvm : Nvm) (c : Chip) : Chip :=
  if !running c || !(chan c ch).running then c
  else
    let c := setFault F.clockFault c
    let x := chan c ch
    if precise then
      let w : Sample := { value := x.precHeld, status := .settle, at_ := c.now }
      usePrecise ch w (setChan c ch { x with
        prec := w, chop := none, paired := false, subPrec := (offsetNow x :: x.subPrec).take 3
        precSettle := if c.meas.modBad then x.precSettle else x.precSettle - 1
        precHist := w :: x.precHist.filter fun o => decide (c.now ≤ o.at_ + ms 1100) })
    else
      let w : Sample := { value := x.fastHeld, status := .settle, at_ := c.now }
      useFast ch w nvm (setChan c ch { x with
        fast := w, subFast := (offsetNow x :: x.subFast).take 2
        fastSettle := if c.meas.modBad then x.fastSettle else x.fastSettle - 1
        fastHist := w :: x.fastHist.filter fun o => decide (c.now ≤ o.at_ + ms 1) })

/-- The crystal runs: CAN runs, or CORE runs outside PARKED (Table 2.3). -/
def crystalRuns (c : Chip) : Bool := running c && (c.seq.mode != .parked || c.can.on)

/-- LPT_CALIBRATION: LPT and MOD are measured against the crystal; while it stands or has failed, MOD is measured against LPT
or CORE (R175, R205, R223). -/
def lptCalibration (corr modErr : Int) (c : Chip) : Chip :=
  if !running c then c
  else if !(crystalRuns c && c.clk.xtalOk) then { c with meas.modError := modErr }
  else if c.clk.lptAt.elim true (fun t => decide (t + sec 1 ≤ c.now)) then
    { c with
      clk := { c.clk with lptDisc := true, lptCorr := corr, lptAt := some c.now, coreTrimmed := !c.clk.coreBad }
      meas.modError := modErr }
  else c

/-! ### Meanings -/

def execFastWord (t : Time) (ch : ChId) (code : Int) (nrun : Nat) (hi modOk : Bool) (s : State) : Outcome :=
  run t (fun nvm c => fastWord ch code nrun hi modOk nvm c) s

def execPreciseWord (t : Time) (ch : ChId) (code : Int) (nrun : Nat) (hi modOk : Bool) (s : State) : Outcome :=
  run t (fun _ c => preciseWord ch code nrun hi modOk c) s

def execModulatorReset (t : Time) (ch : ChId) (nrun : Nat) (s : State) : Outcome :=
  run t (fun _ c => modulatorReset ch nrun c) s

def execSlowChopBlockPair (t : Time) (ch : ChId) (plus minus : List Int) (s : State) : Outcome :=
  run t (fun _ c => blockPair ch plus minus c) s

def execCalPointComplete (t : Time) (s : State) : Outcome := run t (fun _ c => calComplete c) s

def execCalPointTimeout (t : Time) (s : State) : Outcome := run t (fun _ c => calTimeout c) s

def execCrystalFail (t : Time) (freqHz badNs : Nat) (s : State) : Outcome := run t (fun _ c => crystalFail freqHz badNs c) s

def execModClockFault (t : Time) (freqHz badNs : Nat) (s : State) : Outcome := run t (fun _ c => modFault freqHz badNs c) s

def execCoreTrimExhausted (t : Time) (ppm : Int) (badNs : Nat) (s : State) : Outcome :=
  run t (fun _ c => coreTrimFault ppm badNs c) s

def execDomainClockFault (t : Time) (dom : DomId) (khz badNs : Nat) (s : State) : Outcome :=
  run t (fun _ c => domainFault dom khz badNs c) s

def execQueueOverflow (t : Time) (ch : ChId) (precise : Bool) (s : State) : Outcome :=
  run t (fun nvm c => queueOverflow ch precise nvm c) s

def execLptCalibration (t : Time) (corr modErr : Int) (s : State) : Outcome :=
  run t (fun _ c => lptCalibration corr modErr c) s

end Sys2Proof.Machine
end

