-- ==== Sys2Proof/Machine/AuxAdc.lean ====
section
/-! DEFINITION. The auxiliary ADC (R189 … R196, R224, R225, R801): its samples and where they go. The
number of a conversion is its position on the span 0 … 1.8 V in 1/65,536. -/

namespace Sys2Proof.Machine

/-! ### Channels -/

/-- A position with AUX_OFFSET and AUX_GAIN applied, in 1/65,536 of 1.8 V (R184). -/
def auxPos (c : Chip) (code : Nat) : Int :=
  let k := (cfg c).cal
  let uv : Rat := (code : Rat) * 1800000 / 65536 - (k.auxOffset : Rat) * 10
  let pos := roundRat (uv * (1 + (k.auxGain : Rat) / 10000000) * 65536 / 1800000)
  max 0 (min 65535 pos)

/-- The value code of a position: FA_IN and FB_IN place 0 V at the middle. -/
def auxCode (k : Nat) (pos : Int) : Nat := if k = 20 ∨ k = 21 then twos 16 (pos - 32768) else pos.toNat

/-- The value code of the side that was exceeded (R198). -/
def auxFull (k : Nat) (above : Bool) : Nat :=
  if k = 20 ∨ k = 21 then (if above then 32767 else twos 16 (-32767)) else if above then 65535 else 0

/-- The scheduler moves on after a conversion of channel `k`; `again` tells that even the same channel settles anew. -/
def auxAdvance (k : Nat) (again : Bool) (c : Chip) : Chip :=
  let c := if isScanned k then { c with aux.next := k + 1 } else c
  let nx := nextAux c
  { c with aux := { c.aux with
      cur := nx, short := false
      skip := match nx with
        | some j => if j = k && !again then 0 else auxCost j
        | none => 0 } }

/-! ### Samples -/

/-- The longest interval between VALID conversions outside PARKED (T.IDENTITY.AUX_STATS): one that PARKED overlaps is none. -/
def noteInterval (k : Nat) (c : Chip) : Chip :=
  if isScanned k && c.seq.mode != .parked && (auxCh c k).validAt != 0 && decide (c.seq.parkEnd ≤ (auxCh c k).validAt) then
    { c with aux.longest := max c.aux.longest (sat 16 ((c.now - (auxCh c k).validAt) / us 10)) }
  else c

/-- The last VALID value of a channel as a code in LOW or FULL range (R198, R260) (DEDUCED, log entry 142). -/
def heldCode (x : AuxCh) (low : Bool) : Nat :=
  if x.heldLow == low then x.held else if low then min 65535 (x.held * 4) else x.held / 4

/-- Channel `k` is converted in LOW range now. -/
def lowNow (k : Nat) (c : Chip) : Bool := isTs k && c.aux.low.getLsbD (k - 16)

/-- The stamp of a sample that ends now: the centre of its conversion, and of a spur current the end of its averaging
interval (R202). -/
def sampleStamp (k : Nat) (c : Chip) : Time := if k ≤ 7 then c.now else conversionCentre c

/-- A sample reaches its channel (R197, R198). -/
def storeSample (k : Nat) (st : Status) (code : Nat) (c : Chip) : Chip :=
  let c := if st = .valid then noteInterval k c else c
  updAux k (fun x => { x with
    status := st, at_ := c.now, stamp := sampleStamp k c
    inLow := lowNow k c
    code := match st with
      | .valid | .overRange => code
      | _ => heldCode x (lowNow k c)
    held := if st = .valid then code else x.held
    heldLow := if st = .valid then lowNow k c else x.heldLow
    validAt := if st = .valid then c.now else x.validAt
    opens := if st = .opn then x.opens + 1 else if st = .settle then x.opens else 0 }) c

/-! ### What temperature brings about (R227, R256) -/

/-- After a temperature reading: the indications are formed anew, charging and the re-enable follow them, and the die
critical indication takes or returns the spurs. -/
def afterTemp (nvm : Nvm) (c0 : Chip) : Chip :=
  let c := packPolicies (recomputeTemp c0)
  let c := if c.tmp.dieCrit && !c0.tmp.dieCrit then takeCommands (dieCriticalSlots nvm c)
           else if !c.tmp.dieCrit && c0.tmp.dieCrit then takeCommands c else c
  recheckAll nvm c

/-- A conversion of TS1 or TS2 counts towards the two of each that step 5 of the way into LIMP waits for (R147). -/
def limpConversion (k : TsId) (c : Chip) : Chip :=
  match k with
  | .ts1 => { c with seq.ts1Left := c.seq.ts1Left - 1 }
  | .ts2 => { c with seq.ts2Left := c.seq.ts2Left - 1 }
  | .ts3 => c

/-- A sample of a TS pin reaches the temperature block, the presence verdict and the pack (R237 … R241). -/
def tsArrives (k : TsId) (st : Status) (ratio : Rat) (nvm : Nvm) (c0 : Chip) : Chip :=
  let c := tsSample k st ratio (auxCh c0 (tsChan k)).opens (limpConversion k c0)
  let c := if c.tmp.openHold && !c0.tmp.openHold then endCharge 0x06 .standby c else c
  let c := settlePresence c
  afterTemp nvm (followPresence c)

/-! ### Destinations -/

/-- Marks the slot that is being programmed as damaged (R116) (DEDUCED, log entry 63). -/
def spoilSlot (o : Otp) : Otp :=
  match o.busy with
  | some 1 => { o with slot1 := .damaged, busy := none }
  | some _ => { o with slot2 := .damaged, busy := none }
  | none => o

/-- A VHOLD conversion below 3.8 V spoils the programming of an OTP slot (R116). -/
def judgeOtp (mv : Rat) (c : Chip) : Chip :=
  if c.otp.busy.isSome && decide (mv < 3800) then { c with otp := { spoilSlot c.otp with pending := none } } else c

/-- A VHOLD conversion is judged under R801. -/
def judgeHoldup (mv : Rat) (c : Chip) : Chip :=
  let on := c.seq.cfgEnd.elim false fun t => decide (t + sec 10 ≤ c.now)
  if on && decide (4500 ≤ vTopMv c) && decide (mv + 1000 < chargeLevel c) then
    let n := c.jrn.holdupLow + 1
    setFaultIf (n == 2) F.holdup { c with jrn.holdupLow := n }
  else { c with jrn.holdupLow := 0 }

/-- A VCORE conversion is judged: two out of band reset the ADC, and a repeat within 1 s ends its service (R225). -/
def judgeCore (code : Nat) (c : Chip) : Chip :=
  if 45600 ≤ code ∧ code ≤ 50400 then { c with aux.coreBad := 0 }
  else if c.aux.coreBad = 0 then { c with aux.coreBad := 1 }
  else
    let again := c.aux.resetAt.elim false fun t => decide (c.now ≤ t + sec 1)
    setFault F.auxFault { c with aux := { c.aux with coreBad := 0, resetAt := some c.now, dead := c.aux.dead || again } }

/-- The spur of a current or voltage channel. -/
def auxSpur (k : Nat) : Fin 8 := ⟨k % 8, Nat.mod_lt _ (by decide)⟩

/-- A spur current of a value code, mA. -/
def spurMa (code : Nat) : Rat := (code : Rat) * 1000 / 65536

/-- A sample goes where it serves. -/
def deliver (k : Nat) (st : Status) (code : Nat) (nvm : Nvm) (c : Chip) : Chip :=
  let ok := st == .valid
  if k ≤ 7 then spurRead nvm (auxSpur k) (if ok then some (spurMa code) else none) c
  else if k ≤ 15 then (if ok then spurVoltageValid nvm (auxSpur k) (code : Rat) c else c)
  else match k with
    | 16 => tsArrives .ts1 st (tsRatio (c.aux.low.getLsbD 0) code) nvm c
    | 17 => tsArrives .ts2 st (tsRatio (c.aux.low.getLsbD 1) code) nvm c
    | 18 => tsArrives .ts3 st (tsRatio (c.aux.low.getLsbD 2) code) nvm c
    | 19 => afterTemp nvm (dieSample st code c)
    | 22 => if ok then judgeHoldup ((code : Rat) / 2) (judgeOtp ((code : Rat) / 2) c) else c
    | 23 => if ok || st == .overRange then judgeCore code c else c
    | _ => c

/-- Range of a TS pin after a sample (R191, R224). -/
def rangeAfter (k : Nat) (st : Status) (above : Bool) (code : Nat) (c : Chip) : Bool × Chip :=
  let i := k - 16
  let low := c.aux.low.getLsbD i
  let r := tsRatio low code
  let flip := isTs k && (match st with
    | .valid => if low then decide (244 / 1000 < r) else decide (r < 222 / 1000)
    | .overRange => low && above
    | _ => false)
  (flip, if flip then { c with aux.low := c.aux.low ^^^ (1#3 <<< i), aux.ranges := satInc 65535 c.aux.ranges } else c)

/-- The status of a conversion (R197, Table 5.6). -/
def auxStatus (c : Chip) (settling : Bool) (overRange : Option Bool) : Status :=
  if c.aux.short then .short else if overRange.isSome then .overRange else if settling || c.aux.dead then .settle else .valid

/-- A valid conversion of channel `k` ends (R190 … R192, R197). -/
def auxSample (k : Nat) (code : Nat) (overRange : Option Bool) (nvm : Nvm) (c : Chip) : Chip :=
  let st := auxStatus c false overRange
  let v := if st = .overRange then auxFull k (overRange.getD false) else auxCode k (auxPos c code)
  let c := if st = .valid && c.cal.ch == 5 && c.cal.auxCh == k then calAdd ((code : Rat) * 1800000 / 65536) c else c
  let c := storeSample k st v c
  let c := deliver k st v nvm c
  let (flip, c) := rangeAfter k st (overRange.getD false) v c
  auxAdvance k (flip || st == .opn) c

/-- An invalid conversion of channel `k` ends: it is marked, and nothing acts on it. -/
def auxSettling (k n : Nat) (overRange : Option Bool) (c : Chip) : Chip :=
  let st := auxStatus c true overRange
  let c := updAux k (fun x => { x with
    status := st, inLow := lowNow k c
    code := if st = .overRange then auxFull k (overRange.getD false) else heldCode x (lowNow k c) }) c
  { c with aux.cur := some k, aux.skip := n }

/-- AUX_CONVERSION_COMPLETE: an invalid conversion is marked, and the valid one is the sample (DEDUCED, log entry 89). -/
def auxConversion (code : Nat) (overRange : Option Bool) (nvm : Nvm) (c : Chip) : Chip :=
  if !running c then c
  else match auxNow c with
    | none => c
    | some (k, 0) => auxSample k code overRange nvm { c with aux.cur := some k }
    | some (k, n + 1) => auxSettling k n overRange c

/-- TS_BIAS_FAULT: above 97 % of TSB the conversion ends with OPEN, below 1 % its sample will be SHORT (R196). -/
def tsBiasFault (k : TsId) (ppm : Nat) (nvm : Nvm) (c : Chip) : Chip :=
  match (if running c then auxNow c else none) with
  | none => c
  | some (j, n) =>
    if j ≠ tsChan k then c
    else if 970000 < ppm then
      let c := storeSample j .opn 0 c
      auxAdvance j true (tsArrives k .opn 0 nvm c)
    else if ppm < 10000 then { c with aux := { c.aux with cur := some j, skip := n, short := true } }
    else c

/-- ISOTHERMAL_CHECK (R246, R267). -/
def isothermalCheck (nvm : Nvm) (c : Chip) : Chip := if isoDue c then afterTemp nvm (isoCheck c) else c

/-! ### Meanings -/

def execAuxConversionComplete (t : Time) (code : Nat) (overRange : Option Bool) (s : State) : Outcome :=
  run t (fun nvm c => auxConversion code overRange nvm c) s

def execTsBiasFault (t : Time) (ts : TsId) (ppm : Nat) (s : State) : Outcome :=
  run t (fun nvm c => tsBiasFault ts ppm nvm c) s

def execIsothermalCheck (t : Time) (s : State) : Outcome := run t (fun nvm c => isothermalCheck nvm c) s

/-- The end read of a slot on spur n is the conversion that ends now (R192). -/
def endReadNow (c : Chip) (n : Fin 8) : Bool := auxNow c == some (n.val, 0) && firstEdge c n == some .stop

/-- SLOT_END_READ: the end read of a slot, an auxiliary conversion like any other (R192, R421, R606). -/
def slotEndRead (n : Fin 8) (code : Nat) (overRange : Option Bool) (nvm : Nvm) (c : Chip) : Chip :=
  if endReadNow c n then auxConversion code overRange nvm c else c

def execSlotEndRead (t : Time) (n : Fin 8) (code : Nat) (overRange : Option Bool) (s : State) : Outcome :=
  run t (fun nvm c => slotEndRead n code overRange nvm c) s

end Sys2Proof.Machine
end

