-- ==== Sys2Proof/Machine/Sticky.lean ====
section
/-! DEFINITION. Clearing sticky bits, and the bits that are set again because the state that their fault entered still holds
(R790 … R792). -/

namespace Sys2Proof.Machine

/-! ### States that faults entered -/

/-- The bit of a feed's failure, by its cause (Table 7.7). -/
def feedFailBit (f : FeedId) : Nat → List Nat
  | 0x04 => [F.feedFastTrip f]
  | 0x05 => [F.feedFuse f]
  | 0x06 => [F.feedShort f]
  | 0x07 => [F.feedInrush f]
  | _ => []

/-- The bits whose state a feed channel is in. -/
def feedHeld (c : Chip) (f : FeedId) : List Nat :=
  let x := feed c f
  (match x.st with
    | .retryWait => feedFailBit f x.lastFail.1
    | .latched => F.feedLatched f :: feedFailBit f x.lastFail.1
    | .reversed => [F.feedReversed f]
    | .faultHold => if x.mirage then [F.feedMirage f] else []
    | _ => [])
  ++ (if (chan c (feedChan f)).kelvinOpen then [F.feedKelvin f] else [])
  ++ (if x.armed && !x.ovOk && x.st != .absent then [F.feedOv f] else [])

/-- The bit of a failure of the pack path, by its cause (Table 8.8). -/
def packFailBit : Nat → List Nat
  | 0x03 => [F.packFastTrip]
  | 0x05 => [F.packFuse]
  | 0x06 | 0x07 => [F.packPrecharge]
  | _ => []

/-- The bits whose state the pack path or the charger is in. -/
def packHeld (c : Chip) : List Nat :=
  (match c.pack.st with
    | .retryWait => packFailBit c.pack.lastFail.1
    | .latched => F.packLatched :: packFailBit c.pack.lastFail.1
    | .reversed => [F.packReversed]
    | .isolated => if c.pack.offCause = 0x0B then [F.packOv] else []
    | .faultHold => if c.pack.mirage then [F.packMirage] else []
    | _ => [])
  ++ (if c.meas.iP.kelvinOpen then [F.packKelvin] else [])
  ++ (if c.chg.latDeep then [F.packDeep] else []) ++ (if c.chg.latOv then [F.chgOvervolt] else [])
  ++ (if c.chg.latCur then [F.chgCurrent] else []) ++ (if c.chg.latNo then [F.chgNoCurrent] else [])
  ++ (if c.chg.latOver then [F.chgOvercharge] else [])

/-- The bit of a failure or cut of a spur, by its cause (Table 9.7). -/
def spurFailBit (n : Nat) : Nat → List Nat
  | 0x02 | 0x03 | 0x04 | 0x05 => [F.spurShort n]
  | 0x06 => [F.spurThermal n]
  | 0x08 => [F.spurOverdraw n]
  | 0x09 => [F.spurTotal]
  | _ => []

/-- The bits whose state a spur is in. -/
def spurHeld (c : Chip) (n : Fin 8) : List Nat :=
  let s := c.spurs[n]
  (match s.st with
    | .retryWait | .cut => spurFailBit n s.lastFail.1
    | .faulted => F.spurFaulted n :: spurFailBit n s.lastFail.1
    | .blocked => [F.spurBackfeed n]
    | .faultHold => [F.spurMirage n]
    | _ => [])
  ++ (if s.hot then [F.spurThermal n] else []) ++ (if s.tied != 0 then [F.spurTied n] else [])
  ++ (if s.openLoad then [F.spurOpenLoad n] else [])

/-- The bits of a failed thermistor. -/
def tsHeld (c : Chip) (k : TsId) : List Nat :=
  let s := tsSensor c k
  (if s.failedWire then [if s.wireShort then F.tsShort (tsNumber k) else F.tsOpen (tsNumber k)] else [])
    ++ (if s.failedSlew then [F.tempSlew] else []) ++ (if s.failedX then [F.tempXcheck] else [])

/-- The bits of the die, the indications of Table 6.5 and the sensors. -/
def tempHeld (c : Chip) : List Nat :=
  tsHeld c .ts1 ++ tsHeld c .ts2 ++ tsHeld c .ts3
    ++ (if c.tmp.die.failedSlew then [F.tempSlew, F.dieSensor] else [])
    ++ (if c.tmp.die.failedX || c.tmp.partnerX || c.tmp.xInhibit then [F.tempXcheck] else [])
    ++ (if c.tmp.hot then [F.packHot] else []) ++ (if c.tmp.cold then [F.packCold] else [])
    ++ (if c.tmp.boardHot then [F.boardHot] else []) ++ (if c.tmp.dieHot then [F.dieHot] else [])
    ++ (if c.tmp.dieCrit then [F.dieCritical] else [])

/-- Step 1 found the copy bad (R92). -/
def copyBad (r : CopyResult) : Bool :=
  match r.reason with
  | .accepted | .notTried | .noMagic | .map => false
  | _ => true

/-- The bits of the cause for which LIMP is entered (Table 16.3). -/
def limpHeld (c : Chip) : List Nat :=
  if c.seq.mode != .limp then []
  else match c.seq.limp with
    | some .noImage =>
      F.imageNone :: (if copyBad c.img.resultA then [F.imageABad] else [])
        ++ (if copyBad c.img.resultB then [F.imageBBad] else [])
    | some .otp => [F.otpFault]
    | some .selfTest => [F.selfTest]
    | some .repeatedReset =>
      (match c.ret.cause with
        | .watchdog => [F.watchdog]
        | .coreBrownout => [F.coreBrownout]
        | .ramParity => [F.ramParity]
        | _ => [])
    | none => []

/-- The bits of the clocks, the links, the pair, the gauge and pack identity whose state holds. -/
def otherHeld (c : Chip) : List Nat :=
  (if c.clk.stopped != 0 || c.clk.coreBad || c.meas.modBad then [F.clockFault] else [])
    ++ (if !c.clk.xtalOk then [F.xtalFail] else []) ++ (if c.caravan.stopped then [F.caravanTime] else [])
    ++ (if c.aux.dead then [F.auxFault] else []) ++ (if decide (2 ≤ c.jrn.holdupLow) then [F.holdup] else [])
    ++ (if !c.ret.wakeArmed then [F.wakeLockout] else []) ++ (if c.share.fault then [F.shareFault] else [])
    ++ (if c.gauge.cnt.gap then [F.countGap] else []) ++ (if c.tag.verdict == .notAuthenticated then [F.packAuthFail] else [])
    ++ (if c.tag.verdict == .silent then [F.tagSilent] else []) ++ (if c.tag.pinOff.isSome then [F.pkIdFault] else [])
    ++ (if c.inn.below then [F.innFence] else []) ++ (if c.smb.stuck then [F.smbStuck] else [])
    ++ (if c.can.off then [F.canBusOff] else []) ++ (if c.can.rxStuck.isSome then [F.canRxStuck] else [])
    ++ (if c.can.wakeStuck.isSome then [F.wakeNStuck] else []) ++ (if c.pair.linkLost then [F.pairLink] else [])
    ++ (if c.pair.standIn then [F.pairPartnerLost] else [])
    ++ (if c.pair.split then [if c.pair.verdict = 2 then F.pairSplit else F.pairProbe] else [])
    ++ (if c.pair.conflict then [F.pairRole] else [])
    ++ (if c.pair.st == .singles && !c.pair.conflict then [F.pairImageMismatch] else [])

/-- Every bit whose fault's state holds now (R792) (DEDUCED, log entry 91). -/
def heldBits (c : Chip) : BitVec 160 :=
  maskOf (feedHeld c .a ++ feedHeld c .b ++ packHeld c ++ (List.finRange 8).flatMap (spurHeld c) ++ tempHeld c ++ limpHeld c
    ++ otherHeld c)

/-! ### Clear and return -/

/-- Clears the bits of `mask` that a session of this role may clear. A clear that removes at least one bit asks for a commit
(R791); it marks the bits whose state holds, which are set again (R792). A bit detected at the same instant ends set (R811);
the instant stands for the CORE cycle (DEDUCED, log entry 127). -/
def clearSticky (r : Role) (mask : BitVec 160) (c : Chip) : Chip :=
  let gone := c.ret.sticky &&& mask &&& clearable r c.seq.mode &&& ~~~ detectedNow c
  if gone = 0 then c
  else
    let n := ((List.range 160).filter (gone.getLsbD ·)).length
    requestCommit { c with
      ret := { c.ret with sticky := c.ret.sticky &&& ~~~ gone }
      jrn := { c.jrn with
        cleared := c.jrn.cleared ||| (gone &&& heldBits c), clears := satInc 65535 c.jrn.clears
        clearRole := if r = .owner then 1 else 2, clearBits := min 255 n } }

/-- Sets the marked bits again, without a count and without an alert (R792). -/
def stickyReassert (c : Chip) : Chip :=
  if !running c || c.jrn.cleared = 0 then c
  else
    let fresh := c.jrn.cleared &&& ~~~ c.ret.sticky
    let top := ((List.range 160).filter (fresh.getLsbD ·)).getLast?
    { c with
      ret := { c.ret with
        sticky := c.ret.sticky ||| fresh
        first := if c.ret.sticky = 0 then (((List.range 160).find? (fresh.getLsbD ·)).map fun b => (b, writeTime c)) else c.ret.first
        last := match top with
          | some b => some (b, writeTime c)
          | none => c.ret.last }
      jrn := { c.jrn with cleared := 0, bitRequest := c.jrn.bitRequest || fresh != 0 } }

def execStickyReassert (t : Time) (s : State) : Outcome := run t (fun _ c => stickyReassert c) s

end Sys2Proof.Machine
end

