-- ==== Sys2Proof/Machine/Journal.lean ====
section
/-! DEFINITION. Journal commits (R522, R794 … R799): the record they build, the writes they take, and their ends. -/

namespace Sys2Proof.Machine

/-! ### The record (Table 16.2, R522) -/

/-- The gauge block that a commit carries now; of a pack that was removed it is that of its last completed state (R485, R587). -/
def gaugeBlockNow (nvm : Nvm) (c : Chip) : List Byte :=
  if inLimp c || (c.gauge.formed && c.prs.present) then stateBlock c
  else c.jrn.lastBlock.getD ((latestRecord nvm c).elim (List.replicate 32 0) recordGauge)

/-- IMAGE_SEQ: SEQUENCE of the running image; in LIMP the rollback floor. -/
def recordImageSeq (c : Chip) : Nat := if inLimp c then c.img.floor else c.img.cfg.sequence

/-- Bytes 0 … 61 of a record. -/
def journalBody (seq : Nat) (nvm : Nvm) (c : Chip) : List Byte :=
  let b := u32B seq ++ u32B (recordImageSeq c) ++ leBytes 20 (c.ret.sticky.toNat) ++ gaugeBlockNow nvm c
  b ++ u16B (crc16 b)

/-! ### The writes of a commit (R797) -/

/-- Cuts a write at the page boundaries of an EEPROM; `fuel` bounds the pieces. -/
def splitPages (page : Nat) : Nat → Nat → List Byte → List (Nat × List Byte)
  | 0, a, bs => [(a, bs)]
  | fuel + 1, a, bs =>
    let room := page - a % page
    if bs.length ≤ room then [(a, bs)] else (a, bs.take room) :: splitPages page fuel (a + room) (bs.drop room)

/-- The slot and the sequence number that the next commit writes (R796). -/
def nextSlotSeq (m : RegionMap) (c : Chip) : Nat × Nat :=
  match c.jrn.head with
  | some (i, q) => ((i + 1) % journalSlots m, q + 1)
  | none => (0, 1)

/-- The writes of a commit of `body` into the slot at address `a`. -/
def commitWrites (c : Chip) (a : Nat) (body : List Byte) : List (Nat × List Byte) :=
  let pages := if (cfg c).board.fram then [(a, body)] else splitPages (2 ^ (cfg c).board.nvmPage) 8 a body
  (a + 62, u16B markPending) :: pages ++ [(a + 62, u16B markCommit)]

/-- A commit begins, or is repeated: the record is built from the state at this instant. It carries every request made so
far. -/
def beginCommit (retried : Bool) (start : Time) (nvm : Nvm) (c : Chip) : Chip :=
  match c.img.map with
  | none => c
  | some m =>
    let (slot, seq) := nextSlotSeq m c
    let body := journalBody seq (nvm.apply c.spi) c
    let forBit := c.jrn.bitRequest && !c.jrn.request
    { c with jrn := { c.jrn with
        request := false, bitRequest := false, lastStart := some start
        lastBit := if forBit then some start else c.jrn.lastBit
        run := some {
          slot := slot, seq := seq, bytes := body ++ u16B markCommit, writes := commitWrites c (journalAt m slot) body
          start := start, writeAt := c.now, retried := retried, bad := false } } }

/-- A commit may begin now: requested, with the journal open, no commit and no fill in hand (R631), and 1 s after the last
one unless a shut-down sequence stands at its commit step (R789, R799). -/
def commitDue (c : Chip) : Bool :=
  let atStep5 := c.seq.shutStep == 5
  let spaced (t : Option Time) (d : Time) : Bool := t.elim true fun t => decide (t + d ≤ c.now)
  running c && c.jrn.opened && c.jrn.run.isNone && c.jrn.again.isNone && !seqSpent c && c.inn.fills.isEmpty
    && (atStep5 || spaced c.jrn.lastStart (sec 1))
    && (c.jrn.request || (c.jrn.bitRequest && (atStep5 || spaced c.jrn.lastBit (sec 60))))

/-- JOURNAL_COMMIT_START. With the sequence numbers spent, a request for new bits sets F.NVM_WRITE (R799). -/
def commitStart (nvm : Nvm) (c : Chip) : Chip :=
  if commitDue c then beginCommit false c.now nvm c
  else if running c && c.jrn.opened && c.jrn.run.isNone && seqSpent c && c.jrn.bitRequest then
    let c := setFault F.nvmWrite c
    { c with jrn.bitRequest := false }
  else c

/-! ### The end of a write and of a commit (R797, R798) -/

/-- A commit fails: F.NVM_WRITE, and one repeat at once in the same slot, after the fills that wait (R660) (DEDUCED, log
entry 90). -/
def commitFails (r : Commit) (nvm : Nvm) (c : Chip) : Chip :=
  let c := setFault F.nvmWrite { c with jrn := { c.jrn with run := none, failed := satInc 255 c.jrn.failed } }
  if r.retried then c
  else if c.inn.fills.isEmpty then beginCommit true r.start nvm c
  else { c with jrn.again := some r.start }

/-- The fills that kept the port have ended: a repeat that waits begins, and the next write of a commit takes its 10 ms from
here (R631, R660). -/
def portFree (nvm : Nvm) (c : Chip) : Chip :=
  if !c.inn.fills.isEmpty then c
  else match c.jrn.again with
    | some t => beginCommit true t nvm { c with jrn.again := none }
    | none => { c with jrn.run := c.jrn.run.map fun r => { r with writeAt := c.now } }

/-- The write of the commit is under way: it began before every fill that waits (R631). -/
def writeRuns (r : Commit) (c : Chip) : Bool := c.inn.fills.all fun f => decide (r.writeAt < f.2)

/-- A commit has ended well: its slot is the head. -/
def commitEnds (r : Commit) (c : Chip) : Chip :=
  { c with jrn := { c.jrn with
      run := none, head := some (r.slot, r.seq), commits := satInc 65535 c.jrn.commits
      longest := max c.jrn.longest (tenths (c.now - r.start)) } }

/-- What the cells of a failed write hold: free bytes, of which the spec states nothing (DEDUCED, log entry 64). -/
def spoiled (bs : List Byte) (c : Chip) : List Byte × Chip :=
  ((List.range bs.length).map fun i => Config.failedByte (c.free + i), { c with free := c.free + bs.length })

/-- A write of the commit has finished, well or not; after the last one the 64 bytes are read back. None finishes while the
NVM domain is stopped (log entry 140). -/
def writeComplete (ok : Bool) (nvm : Nvm) (c : Chip) : Chip :=
  match c.jrn.run with
  | none => c
  | some r =>
    if !(writeRuns r c && nvmRuns c) then c
    else match r.writes with
    | [] => c
    | (a, bs) :: rest =>
      let (bs, c) := if ok then (bs, c) else spoiled bs c
      let c := { c with spi := c.spi ++ [(a, bs)] }
      let r := { r with writes := rest, writeAt := c.now, bad := r.bad || !ok }
      if !rest.isEmpty then { c with jrn.run := some r }
      else if r.bad then commitFails r nvm c
      else commitEnds r c

/-- The write in progress has taken 10 ms: the commit fails (R798). -/
def writeTimeout (nvm : Nvm) (c : Chip) : Chip :=
  match c.jrn.run with
  | none => c
  | some r =>
    if c.now < r.writeAt + ms 10 ∨ writeRuns r c = false then c
    else
      match r.writes with
      | [] => c
      | (a, bs) :: _ =>
        let (bs, c) := spoiled bs c
        commitFails r nvm { c with spi := c.spi ++ [(a, bs)] }

/-- The commit of a shut-down sequence begins, or follows the one that runs and the fills that wait (Table 4.4, step 5; R660). -/
def shutCommit (nvm : Nvm) (c : Chip) : Chip :=
  if !c.jrn.opened then c
  else if seqSpent c then requestCommit c
  else if c.jrn.run.isNone && c.jrn.again.isNone && c.inn.fills.isEmpty then beginCommit false c.now nvm c
  else { c with jrn.request := true }

/-- The power-loss commit, after the write-backs that already stand on the interface and always end (R634): it takes over the slot of a
commit that runs, and its first `writesDone` writes end before VHOLD falls below 3.8 V (R141, R157, R813). Fills have no slot to serve
any more. -/
def powerLossCommit (writesDone : Nat) (nvm : Nvm) (c : Chip) : Chip :=
  let c := { c with jrn := { c.jrn with run := none, again := none }, inn.fills := [] }
  let c := if c.jrn.opened && !seqSpent c then beginCommit false c.now nvm c else c
  match c.jrn.run with
  | none => c
  | some r =>
    let c := { c with spi := c.spi ++ r.writes.take writesDone, jrn.run := none }
    if r.writes.length ≤ writesDone then commitEnds r c else c

def execJournalCommitStart (t : Time) (s : State) : Outcome := run t (fun nvm c => commitStart nvm c) s

def execNvmWriteComplete (t : Time) (ok : Bool) (s : State) : Outcome := run t (fun nvm c => writeComplete ok nvm c) s

def execJournalWriteTimeout (t : Time) (s : State) : Outcome := run t (fun nvm c => writeTimeout nvm c) s

end Sys2Proof.Machine
end

