-- ==== Sys2Proof/Machine/Pair.lean ====
section
/-! DEFINITION. Running as a pair (chapter 15): the acceptance of Kersor frames, joining, the mirror of the partner's guests,
the loss and the return of the link, the SHARE probe, standing in and the split. -/

namespace Sys2Proof.Machine

/-! ### Frames (R736 … R741) -/

/-- The receiver takes frames: the link runs and symbol lock holds (R736). -/
def kTakes (c : Chip) : Bool := linkRuns c && c.pair.lock

/-- A frame discarded under R738 is counted. -/
def kDiscard (c : Chip) : Chip := { c with pair.errs := (satInc 65535 c.pair.errs.1, c.pair.errs.2) }

/-- A sequenced frame is in order (R740). -/
def inOrder (c : Chip) (f : KersorFrame) : Bool := f.seq == (c.pair.rxSeq + 1) % 256

/-- A received frame of a type with `len` payload bytes: its ACK is taken, and a frame that `ok` finds acceptable acts with its
SEQ noted (R738 … R740). -/
def kFrame (len : Nat) (ok : Chip → KersorFrame → Bool) (f : KersorFrame) (act : Chip → Chip) (c : Chip) : Chip :=
  if !kTakes c then c
  else if f.payload.length ≠ len then kDiscard c
  else
    let c := kAck f.ack c
    if ok c f then act { c with pair.rxSeq := f.seq } else c

/-- A sequenced record that acts only while the pair is joined (R757, R765). -/
def kRecord (len : Nat) (f : KersorFrame) (act : Chip → Chip) (c : Chip) : Chip :=
  kFrame len inOrder f (fun c => if c.pair.st == .joined then act c else c) c

def lockAcquired (commas withinNs : Nat) (c : Chip) : Chip :=
  if linkRuns c && decide (3 ≤ commas) && decide (withinNs ≤ us 10) then { c with pair.lock := true } else c

def lockLost (bad : Nat) (c : Chip) : Chip :=
  if decide (4 ≤ bad) then { c with pair := { c.pair with lock := false, hbRun := 0 } } else c

/-! ### Standing in, split and probes (R759 … R765) -/

/-- The gauge stands in for its partner (R764); `absents` keeps whether a split came before. -/
def standInNow (c : Chip) : Chip :=
  let opened := (c.pair.them.epochs.filter fun e => !e.2.2).length
  let duty := c.pair.them.flags.getLsbD 2 && canFitted c
  { c with
    pair := { c.pair with
      standIn := true, split := false, nextProbe := none, absents := if c.pair.split then 2 else 0
      dropped := min 65535 (c.pair.dropped + opened)
      timeSource := c.pair.timeSource || duty, them := { c.pair.them with epochs := [] } }
    caravan.stopped := if duty then false else c.caravan.stopped }

/-- A probe begins: SHARE is held where it stands (R760). -/
def startProbe (c : Chip) : Chip :=
  { c with pair := { c.pair with
      probe := some { start := c.now, first := none, second := none }, drive := some c.share.vD, nextProbe := none
      probes := satInc 255 c.pair.probes } }

/-- The link is up: that of a joined pair, of two singles, or of a running gauge that awaits a JOIN since it came up again
(R757, R758, R767). -/
def linked (c : Chip) : Bool :=
  (c.pair.st == .joined || c.pair.st == .singles || (c.pair.st == .lost && workingMode c.seq.mode)) && !c.pair.linkLost

/-- The link is declared lost (R758, R759, R774); singles stay singles (R751, R757). -/
def declareLoss (c : Chip) : Chip :=
  let c := setFaultIf (!c.pair.leaving) F.pairLink { c with pair := { c.pair with
    linkLost := true, st := if c.pair.st = .singles then .singles else .lost, losses := satInc 255 c.pair.losses, hbRun := 0 } }
  let c := if c.seq.mode = .configure then { c with pair.done7 := true } else c
  if c.pair.leaving then standInNow c else if c.seq.mode = .configure then c else startProbe c

/-- PAIR_LINK_LOST: no valid HEARTBEAT for 2.2 ms. -/
def linkTimeout (c : Chip) : Chip :=
  if linkRuns c && linked c && (c.pair.hbAt.elim false fun t => decide (t + us 2200 ≤ c.now)) then declareLoss c
  else c

/-- Start of the probe window after the declaration: 0.2 ms for the primary, 1.4 ms for the secondary. -/
def probeWindow (c : Chip) : Time := if ownSide c then us 1400 else us 200

/-- A drive phase of the probe ends with this code of the SHARE sense: the hold before the window (0), 0.2 V (1), 2.2 V (2)
(DEDUCED, log entry 60). -/
def probePhase (phase : Nat) (code : Nat) (c : Chip) : Chip :=
  match c.pair.probe with
  | none => c
  | some p =>
    if c.now < p.start + probeWindow c + us (300 * phase) then c
    else match phase with
      | 0 => { c with pair.drive := some 200 }
      | 1 => { c with pair := { c.pair with drive := some 2200, probe := some { p with first := some code } } }
      | 2 => { c with pair := { c.pair with drive := some c.share.vD, probe := some { p with second := some code } } }
      | _ => c

/-- The verdict on Δ (Table 15.6): 1 ABSENT, 2 PRESENT, 3 INCONCLUSIVE. -/
def probeVerdict (shareBad : Bool) (delta : Option Rat) : Nat :=
  match delta with
  | none => 3
  | some d =>
    if shareBad then 3 else if 1700 ≤ d ∧ d ≤ 2500 then 1 else if 700 ≤ d ∧ d ≤ 1300 then 2 else 3

/-- When the next probe of a split falls due: 1 s and a random part of 100 ms after the last began (R763). -/
def nextSplitProbe (start : Time) (c : Chip) : Chip :=
  let (r, c) := randomBytes 2 c
  { c with pair.nextProbe := some (start + sec 1 + leNat r * ms 100 / 65536) }

/-- What follows from a verdict (R761, R763). ABSENT sets its bit in a split too (Table 15.8). -/
def applyVerdict (start : Time) (v : Nat) (c : Chip) : Chip :=
  if v = 1 then
    let c := setFault F.pairPartnerLost c
    if c.pair.split && c.pair.absents == 0 then nextSplitProbe start { c with pair.absents := 1 } else standInNow c
  else
    let c := setFault (if v = 2 then F.pairSplit else F.pairProbe) c
    nextSplitProbe start { c with pair := { c.pair with split := true, fresh := false, absents := 0 } }

/-- The probe is judged at its start + 2.0 ms; with the link up again its verdict is discarded (R775). -/
def probeDecision (c : Chip) : Chip :=
  match c.pair.probe with
  | none => c
  | some p =>
    if c.now < p.start + ms 2 then c
    else
      let delta := match p.first, p.second with
        | some a, some b => some (shareMv b - shareMv a)
        | _, _ => none
      let v := probeVerdict (faultSet c F.shareFault) delta
      let c := { c with pair := { c.pair with probe := none, drive := none, delta := delta.elim c.pair.delta roundRat } }
      if c.pair.linkLost then applyVerdict p.start v { c with pair.verdict := v } else c

/-- While split the probe is repeated (R763). -/
def splitRepeat (c : Chip) : Chip :=
  if c.pair.split && c.pair.probe.isNone && linkRuns c && (c.pair.nextProbe.elim false fun t => decide (t ≤ c.now)) then
    startProbe c
  else c

/-! ### Joining (R750 … R757) -/

/-- Sends RECORDS_END with its COUNT. -/
def sendRecordsEnd (n : Nat) (c : Chip) : Chip := kSend 9 (u16B n ++ u16B 0) c

/-- The resync: a GUEST for every guest of this side, a SUMMARY and RECORDS_END (R756). -/
def sendResync (nvm : Nvm) (c : Chip) : Chip :=
  let own := ownGuests c
  let c := own.foldl (fun c g => kSend 4 (encodeRec (recordOf nvm c g)) c) c
  { sendRecordsEnd own.length (sendSummary c) with pair.resync := true }

/-- Every slot of this gauge ends or is cancelled: it serves no guest any longer (R751). -/
def withdrawSpur (n : Fin 8) (c : Chip) : Chip :=
  let x := spurInn c n
  let c := x.plan.foldl (fun c s => match s.st with
    | .planned => cancelSlot n s .shutdown c
    | .running => c) c
  let run := (x.plan.filter fun s => s.st == .running).map fun s => { s with refund := true }
  let c := updSpurInn n (fun y => { y with plan := [], ended := y.ended ++ run }) c
  { c with
    aux.edges := if run.isEmpty then c.aux.edges else c.aux.edges ++ [{ spur := n, kind := .stop }]
    spurs := c.spurs.set n { c.spurs[n] with granted := false } }

/-- The gauge holds the guests of its own side only; one that is mute admits none of these either (R102, R751). -/
def singlesGuests (mute : Bool) (c : Chip) : Chip :=
  { c with inn.guests := c.inn.guests.map fun g =>
      if g.reject.isSome then g
      else if mute then { g with own := false, reject := some .side }
      else if g.cfg.side != ownSide c then { g with reject := some .side } else g }

/-- The pair runs as two singles: no copies, and no record but HEARTBEAT besides the JOIN that told it (R757). Frames that are not
acknowledged are kept (R741). -/
def becomeSingles (c : Chip) : Chip :=
  { c with pair := { c.pair with
      st := .singles, copies := [], fresh := false, resync := false, done7 := true, standIn := false, split := false
      linkLost := false, probe := none, drive := none, nextProbe := none, timeSource := false } }

/-- Both gauges bear one role (R751) (DEDUCED, log entry 61). -/
def roleConflict (uid : List Byte) (c : Chip) : Chip :=
  let mute := decide (leNat uid < leNat Config.uid)
  let c := becomeSingles (setFault F.pairRole c)
  let c := { c with pair := { c.pair with conflict := true } }
  let c := if mute then (List.finRange 8).foldl (fun c n => withdrawSpur n c) c else c
  let c := singlesGuests mute c
  if mute then takeCommands { c with inn.on := false } else c

/-- The images differ (R102, R757) (DEDUCED, log entry 58). -/
def imageMismatch (c : Chip) : Chip :=
  singlesGuests false { becomeSingles (setFault F.pairImageMismatch c) with img.echo := c.img.echo ||| 8 }

/-- One RESTORE for each copy (R752). -/
def sendRestores (c : Chip) : Chip := c.pair.copies.foldl (fun c p => kSend 8 p.2 c) c

/-- The pair is joined; the gauge that answers a JOIN of STATE 0 restores the partner's records (R752). -/
def joined (state : Nat) (c : Chip) : Chip :=
  let give := state == 0 && c.pair.fresh && workingMode c.seq.mode
  let c := { c with
    pair := { c.pair with
      st := .joined, linkLost := false, split := false, absents := 0, nextProbe := none, gotEnd := false, resync := false
      joinedIn7 := true, restoredN := 0, hbAt := some (c.pair.hbAt.getD c.now) }
    inn.guests := c.inn.guests.map fun g =>
      if g.cfg.side != ownSide c && g.reject == some .side then { g with reject := none } else g }
  let n := if give then c.pair.copies.length else 0
  let c := sendRecordsEnd n (if give then sendRestores c else c)
  { c with pair := { c.pair with sentEnd := true, standIn := false } }

/-- A JOIN is in order like any sequenced frame; before the pair is joined it is acceptable whatever its SEQ, because the numbering of a
gauge that was reset starts anew (R740) (DEDUCED, log entry 59). -/
def joinFresh (c : Chip) (f : KersorFrame) : Bool := inOrder c f || c.pair.st != .joined || c.pair.linkLost

/-- A running gauge answers each JOIN that it accepts with a JOIN of STATE 1 (R750). -/
def answerJoin (c : Chip) : Chip := if workingMode c.seq.mode then kSend 2 (joinBytes 1 c) c else c

/-- The image of this pair digest agrees with the running one (R101, R752). -/
def digestMatches (p : List Byte) (c : Chip) : Bool := slice p 24 32 == slice c.img.pairDigest 0 32

/-- A JOIN is carried out (R750 … R752, R757). -/
def startJoin (p : List Byte) (c : Chip) : Chip :=
  let state := u8At p 17
  let c := answerJoin { c with pair.them.uid := slice p 0 16, img.partnerDigest := slice p 24 32 }
  if u8At p 16 = roleCode c then roleConflict (slice p 0 16) c
  else if c.pair.conflict then c
  else if !digestMatches p c then imageMismatch c
  else joined state c

/-- Two singles of one link stay singles at this JOIN: their roles conflict until the next CONFIGURE, or the images still differ
(R751, R757). -/
def staysSingle (p : List Byte) (c : Chip) : Bool := c.pair.st == .singles && (c.pair.conflict || !digestMatches p c)

/-- An accepted JOIN: leaving holds no longer, and the highest partner epoch is cleared (R749, R759). While the pair is joined it is
only answered, and by singles that stay so it is not (R750, R757) (DEDUCED, log entry 59). -/
def takeJoin (p : List Byte) (c : Chip) : Chip :=
  let c := { c with pair := { c.pair with leaving := false, them := { c.pair.them with epoch := none } } }
  if c.pair.linkLost || c.pair.st == .lost || c.pair.st == .single then startJoin p c
  else if c.pair.st == .joined then answerJoin c
  else if staysSingle p c then c
  else startJoin p c

/-- Step 7 of CONFIGURE begins; a single gauge is done at once (Table 4.2). -/
def step7Start (c : Chip) : Chip :=
  { c with pair := { c.pair with
    joinedIn7 := false, done7 := !inPairStrap c, joinAt := none
    st := if inPairStrap c then .lost else .single } }

/-- Step 7 runs. -/
def inStep7 (c : Chip) : Bool := c.seq.mode == .configure && c.seq.step == 7 && inPairStrap c

/-- A JOIN of STATE 0 goes out every 1 ms until the partner's is accepted (R750). -/
def joinSend (c : Chip) : Chip :=
  if inStep7 c && !c.pair.joinedIn7 && !c.pair.done7 && decide (c.now < c.seq.stepStart + ms 60)
      && (c.pair.joinAt.elim true fun t => decide (t + ms 1 ≤ c.now)) then
    { kSend 2 (joinBytes 0 c) c with pair.joinAt := some c.now }
  else c

/-- No JOIN within 60 ms: the gauge runs its own side (R755). -/
def joinTimeout (c : Chip) : Chip :=
  if inStep7 c && !c.pair.joinedIn7 && !c.pair.done7 && decide (c.seq.stepStart + ms 60 ≤ c.now) then
    let c := setFault F.pairLink c
    { c with pair := { c.pair with done7 := true, linkLost := true, st := .lost }, seq.notes := c.seq.notes ||| 16 }
  else c

/-- A RESTORE replaces the returning gauge's own record when it carries the guest's contract (R753). -/
def takeRestore (p : List Byte) (c : Chip) : Chip :=
  match guestByIndex c (u16At p 0) with
  | none => c
  | some g =>
    if inStep7 c && g.own && slice p 0 24 == guestBody g.cfg then
      let r := decodeRec p
      let c := if (roomOf c g.pos).isSome then
          setRooms c (c.inn.rooms.map fun x => if x.pos == g.pos then { x with rcd := r, dirty := true } else x)
        else (cellarWrite c g.pos r).1
      { c with pair := { c.pair with restored := true, restoredN := satInc 2047 c.pair.restoredN } }
    else c

/-- RECORDS_END: the first after a join ends step 7 and brings the resync, the second ends it (R754, R756). -/
def takeRecordsEnd (nvm : Nvm) (c : Chip) : Chip :=
  if c.pair.resync then { c with pair := { c.pair with resync := false, fresh := true } }
  else if c.pair.gotEnd then c
  else
    let c := { c with pair := { c.pair with gotEnd := true, done7 := c.pair.done7 || inStep7 c } }
    if c.pair.sentEnd then sendResync nvm c else c

/-! ### The partner as it reports itself (R743 … R749, R758, R759, R767) -/

/-- The link is up again (R767): a split is over, and so is standing in after one (R764). After a conflict of roles no JOIN
follows (R751). -/
def linkUp (c : Chip) : Chip :=
  let c := { c with pair := { c.pair with
    linkLost := false, split := false, nextProbe := none, absents := 0
    standIn := c.pair.standIn && c.pair.absents != 2 } }
  if c.pair.conflict then c else kSend 2 (joinBytes 1 c) c

/-- A HEARTBEAT (Table 15.4). -/
def takeHeartbeat (p : List Byte) (c : Chip) : Chip :=
  let flags : BitVec 8 := p.getD 1 0
  let timely := c.pair.hbAt.elim false fun t => decide (c.now ≤ t + us 275)
  let c := { c with pair := { c.pair with
    hbAt := some c.now, hbRun := if timely then c.pair.hbRun + 1 else 1
    leaving := c.pair.leaving && flags.getLsbD 0, timeSource := c.pair.timeSource && !flags.getLsbD 2
    them := { c.pair.them with mode := u8At p 0 % 8, flags := flags, packSt := u8At p 2 % 16 } } }
  if linked c && flags.getLsbD 5 then declareLoss c
  else if c.pair.linkLost && decide (8 ≤ c.pair.hbRun) && workingMode c.seq.mode then linkUp c
  else c

/-- A HEARTBEAT frame: not sequenced, so only its length and lock count (R739). -/
def heartbeat (f : KersorFrame) (c : Chip) : Chip :=
  if !kTakes c then c
  else if f.payload.length ≠ 16 then kDiscard c
  else takeHeartbeat f.payload (kAck f.ack c)

/-- A SUMMARY (Table 15.5). The latest one gives the partner's die reading, or none when its die diode is failed (R744). -/
def takeSummary (p : List Byte) (nvm : Nvm) (c : Chip) : Chip :=
  let flags : BitVec 8 := p.getD 8 0
  let c := { c with pair.them := { c.pair.them with
    soc := u16At p 0 % 2 ^ 14, temps := (i16At p 4, i16At p 6), eAvail := leNat (slice p 10 6), tte := u32At p 22
    qFcc := u32At p 26, sumAt := some c.now } }
  let tmp :=
    if flags.getLsbD 1 then { c.tmp with partnerAt := none }
    else { c.tmp with partner := i16At p 6, partnerAt := some c.now, partnerIso := flags.getLsbD 0 }
  afterTemp nvm { c with tmp := tmp }

/-- A GUEST record is that of an end read: it charges or meters, or it refunds without withholding (R606, R607). -/
def endReadRecord (old new : List Byte) : Bool :=
  slice old 24 12 != slice new 24 12 || (slice old 46 2 != slice new 46 2 && slice old 44 2 == slice new 44 2)

/-- A GUEST record replaces the copy, and that of its end read ends the partner's running slot of the guest (R745, R749). With no copy
to compare it with, it counts as that of the end read (DEDUCED, log entry 128). -/
def takeGuest (p : List Byte) (c : Chip) : Chip :=
  let i := u16At p 0
  let ends := (c.pair.copies.find? (·.1 == i)).elim true fun x => endReadRecord x.2 p
  { c with pair := { c.pair with
      copies := (c.pair.copies.filter fun x => x.1 != i) ++ [(i, p)]
      them := { c.pair.them with epochs := c.pair.them.epochs.filter fun e => !(ends && e.2.1 == i && e.2.2) } } }

/-- `e` lies above `h` in the serial order of R625. -/
def serialAbove (e h : Nat) : Bool :=
  let d := (e + 2 ^ 32 - h) % 2 ^ 32
  d != 0 && decide (d < 2 ^ 31)

/-- A PROVISIONAL opens an epoch of the partner (R749). -/
def takeProvisional (p : List Byte) (c : Chip) : Chip :=
  let e := u32At p 0
  if c.pair.them.epoch.elim true fun h => serialAbove e h then
    { c with pair.them := { c.pair.them with
        epoch := some e, epochs := c.pair.them.epochs ++ [(e, u16At p 4 % 1024, false)] } }
  else c

/-- A CLOSE discards the epoch, or marks its slot running (R749). -/
def takeClose (p : List Byte) (c : Chip) : Chip :=
  let e := u32At p 0
  { c with pair.them := { c.pair.them with
      epochs := if u8At p 4 = 0 then c.pair.them.epochs.map fun x => if x.1 == e then (x.1, x.2.1, true) else x
        else c.pair.them.epochs.filter fun x => x.1 != e } }

/-- A LEAVING record, in whatever state the link is (R759). Within a heartbeat period after the loss it outranks the probe, and the
gauge stands in at once (R776). -/
def takeLeaving (c : Chip) : Chip :=
  let c := { c with pair.leaving := true }
  if c.pair.linkLost && !c.pair.split && c.pair.probe.elim false fun p => decide (c.now ≤ p.start + us 275) then
    standInNow { c with pair := { c.pair with probe := none, drive := none } }
  else c

/-! ### Meanings -/

def execKersorLockAcquired (t : Time) (commas withinNs : Nat) (s : State) : Outcome :=
  run t (fun _ c => lockAcquired commas withinNs c) s

def execKersorLockLost (t : Time) (bad : Nat) (s : State) : Outcome := run t (fun _ c => lockLost bad c) s

def execKersorFrameDiscarded (t : Time) (s : State) : Outcome :=
  run t (fun _ c => if kTakes c then kDiscard c else c) s

def execKersorRetransmit (t : Time) (s : State) : Outcome :=
  run t (fun _ c => if linkRuns c && !c.pair.split then kRepeat c else c) s

def execHeartbeat (t : Time) (f : KersorFrame) (s : State) : Outcome := run t (fun _ c => heartbeat f c) s

def execJoin (t : Time) (f : KersorFrame) (s : State) : Outcome :=
  run t (fun _ c => kFrame 56 joinFresh f (takeJoin f.payload) c) s

def execSummary (t : Time) (f : KersorFrame) (s : State) : Outcome :=
  run t (fun nvm c => kRecord 36 f (takeSummary f.payload nvm) c) s

def execGuestRecord (t : Time) (f : KersorFrame) (s : State) : Outcome :=
  run t (fun _ c => kRecord 64 f (takeGuest f.payload) c) s

def execProvisional (t : Time) (f : KersorFrame) (s : State) : Outcome :=
  run t (fun _ c => kRecord 12 f (takeProvisional f.payload) c) s

def execClose (t : Time) (f : KersorFrame) (s : State) : Outcome := run t (fun _ c => kRecord 8 f (takeClose f.payload) c) s

def execLeaving (t : Time) (f : KersorFrame) (s : State) : Outcome :=
  run t (fun _ c => kFrame 4 inOrder f takeLeaving c) s

def execRestore (t : Time) (f : KersorFrame) (s : State) : Outcome :=
  run t (fun _ c => kRecord 64 f (takeRestore f.payload) c) s

def execRecordsEnd (t : Time) (f : KersorFrame) (s : State) : Outcome :=
  run t (fun nvm c => kRecord 4 f (takeRecordsEnd nvm) c) s

def execPairLinkLost (t : Time) (s : State) : Outcome := run t (fun _ c => linkTimeout c) s

def execPairProbePhase (t : Time) (phase : Nat) (code : Nat) (s : State) : Outcome :=
  run t (fun _ c => probePhase phase code c) s

def execPairProbeDecision (t : Time) (s : State) : Outcome := run t (fun _ c => probeDecision c) s

def execPairSplitProbeRepeat (t : Time) (s : State) : Outcome := run t (fun _ c => splitRepeat c) s

def execPairJoinSend (t : Time) (s : State) : Outcome := run t (fun _ c => joinSend c) s

def execPairJoinTimeout (t : Time) (s : State) : Outcome := run t (fun _ c => joinTimeout c) s

end Sys2Proof.Machine
end

