-- ==== Sys2Proof/Machine/Restart.lean ====
section
/-! DEFINITION. Resets and what survives them (Tables 4.5, 4.8), SHIP requests, the steps of the shut-down sequences, SHIP
and its wake watcher (chapter 4), and the collapse of the supplies. -/

namespace Sys2Proof.Machine

/-! ### Resets (R142 … R145, R47) -/

/-- What a reset leaves (Table 4.5): the OTP, the retention store and the requests for a journal commit; a programming that
waits is dropped (R95), and so is a check of the target copy (R115, R117). Of the commits the spacing goes on (R789, R799), and
VHOLD goes on being charged to the V_TOP that is there (R46) (DEDUCED, log entry 143). Everything else takes its reset value
(DEDUCED, log entry 92). The gates of the paths are commanded off by it (R46, R310). -/
def resetChip (c : Chip) : Chip :=
  { now := c.now, ret := c.ret, free := c.free, spi := (abandonCheck c).spi
    otp := { c.otp with pending := none, busy := none }
    jrn := { request := c.jrn.request, bitRequest := c.jrn.bitRequest, lastStart := c.jrn.lastStart, lastBit := c.jrn.lastBit }
    vTop := vTopMv c
    feedA.offAt := c.now, feedB.offAt := c.now, pack.offAt := c.now
    seq := { wokeFromShip := c.seq.wokeFromShip, fedSinceWake := c.seq.fedSinceWake } }

/-- CONFIGURE begins with step 0 (Table 4.2), the strap decoded (R48); the first spur reads count from here (R420). -/
def enterConfigure (cause : ResetCause) (strap : Strap) (c : Chip) : Chip :=
  let c := resetChip c
  { c with
    ret.cause := cause
    spurs := Vector.replicate 8 { readAt := c.now }
    seq := { c.seq with
      mode := .configure, modeAt := c.now, step := 0, cfgStart := c.now, stepStart := c.now, strap := strap } }

/-- Power-on reset is asserted (R142): the reset history, an armed SHIP request, LPT time and the sticky record, which step 1
restores from the journal, are lost (Table 4.5, R788). The rest of the store is lost with its supply alone (DEDUCED, log
entry 46). -/
def losePower (c : Chip) : Chip :=
  let c := resetChip { c with otp := spoilSlot c.otp }
  { c with
    ret := { c.ret with
      packKept := false, critical := [], armed := none, sticky := 0, restoreDue := true, first := none, last := none
      cvBase := 0, cvRef := c.now, cvRate := 0, cvSlew := 0, cvSet := false }
    jrn := {}, seq := {} }

def powerRelease (vTop : Int) (ok : Bool) (strap : Strap) (c : Chip) : Chip :=
  if c.seq.mode = .unpowered ∧ 4500 ≤ vTop ∧ ok then
    let c := enterConfigure .powerOn strap c
    { c with ret.aborts := 0, vTop := (vTop : Rat) }
  else c

def powerAssert (vHold vTop : Int) (c : Chip) : Chip :=
  if c.seq.mode ≠ .ship ∧ c.seq.mode ≠ .unpowered ∧ vHold < 3600 ∧ vTop < 3600 then { losePower c with vTop := (vTop : Rat) }
  else c

/-- RST_N has been low: 5 µs or more reset, less than 2 µs do nothing, and between them the spec leaves it open (R47)
(DEDUCED, log entry 95). -/
def rstLow (lowNs : Nat) (c : Chip) : Chip :=
  if !running c || decide (lowNs < us 2) then c
  else
    let (acts, c) := if us 5 ≤ lowNs then (true, c) else freePulse c
    if acts then
      let c := resetChip c
      { c with ret.cause := .rstPin, seq := { c.seq with mode := .reset, modeAt := c.now } }
    else c

def rstRelease (strap : Strap) (c : Chip) : Chip := if c.seq.mode = .reset then enterConfigure .rstPin strap c else c

/-- A reset of the critical class with its bit (R121, Table 4.8). -/
def criticalReset (cause : ResetCause) (bit : Nat) (strap : Strap) (c : Chip) : Chip :=
  if running c then
    let c := { c with ret.critical := pushTime (minutes 10) c.now c.ret.critical }
    let c := setFault bit (enterConfigure cause strap c)
    { c with atReset := true }
  else c

def watchdogReset (strap : Strap) (c : Chip) : Chip := criticalReset .watchdog F.watchdog strap c

/-- The last reset was of the critical class, and came within 10 min of another of that class (R121): the list was cut
to its last 10 min when that reset was taken. -/
def repeatedCritical (c : Chip) : Bool :=
  (match c.ret.cause with
    | .watchdog | .coreBrownout | .ramParity => true
    | _ => false) && decide (2 ≤ c.ret.critical.length)

/-- The retention store loses its supply (R142); it is alone on PK_P while the gauge is unpowered or in SHIP. -/
def retentionLoss (mv : Int) (c : Chip) : Chip :=
  if mv < 2000 ∧ (c.seq.mode = .unpowered ∨ c.seq.mode = .ship) then { c with ret := {} } else c

/-! ### SHIP requests (R131 … R135) -/

/-- A request of this kind is armed. -/
def armShip (byPin : Bool) (c : Chip) : Chip :=
  let old := c.ret.armed.getD { byPin := false, until_ := 0 }
  { c with ret.armed := some (if byPin then { old with byPin := true } else { old with until_ := c.now + minutes 10 }) }

/-- A SHIP request is armed, and starts the sequence at once in PARKED and in LIMP without a feed. -/
def shipRequest (byPin : Bool) (nvm : Nvm) (c : Chip) : Chip :=
  let c := armShip byPin c
  if c.seq.mode = .parked ∨ (c.seq.mode = .limp ∧ anyFeed c = false) then
    startShut (if byPin then .shipN else .cmdShip) nvm c
  else c

/-- SHIP_N has been low: 10 ms or more request, less than 1 ms do nothing, and between them the spec leaves it open (R131). -/
def shipN (lowNs : Nat) (nvm : Nvm) (c : Chip) : Chip :=
  if !running c || decide (lowNs < ms 1) then c
  else
    let (acts, c) := if ms 10 ≤ lowNs then (true, c) else freePulse c
    if acts then shipRequest true nvm c else c

/-- An armed request lapses when neither the 10 min nor the pin hold it (R134). -/
def shipLapse (high : Bool) (c : Chip) : Chip :=
  match c.ret.armed with
  | some a =>
    let a := { a with byPin := a.byPin && !high }
    { c with ret.armed := if a.byPin || decide (c.now ≤ a.until_) then some a else none }
  | none => c

/-! ### The steps of a shut-down sequence (Table 4.4) -/

/-- The tag-write cause of the sequence: end of discharge or SHIP entry (Table 11.3). -/
def shutTagCause (c : Chip) : Nat := if c.seq.shutNow = .empty then 2 else 1

/-- A write that runs carries the sequence's cause too (R589): its record is formed and signed anew, and the part of it that the
tag has taken already is sent again; behind COMMIT_SLOT the cause is noted alone. -/
def joinWrite (w0 : TagWrite) (c : Chip) : Chip :=
  let w := { w0 with causes := shutTagCause c :: w0.causes }
  let anew := writeFresh w c
  let put (w : TagWrite) : Chip := { c with tag.write := some w }
  match w.step with
  | 0 => put w
  | 1 => put anew
  | 2 => put { anew with stale := true }
  | 3 =>
    if c.tag.txn.isSome then put { anew with stale := true }
    else startTxn (.writeSlot w.slot 0 anew.payload) (put { anew with step := 2 })
  | _ => put w

/-- Step 3: the tag write of SHIP entry or of end of discharge. -/
def shutTagWrite (c : Chip) : Chip :=
  if !c.prs.present then c
  else match c.tag.write with
    | some w => requestCommit (joinWrite w c)
    | none => tagEvent (shutTagCause c) c

/-- The sequence's own event waits and its write can still come: an exchange or adoption runs, or a write could start. -/
def shutWriteComes (c : Chip) : Bool :=
  c.tag.due.getLsbD (shutTagCause c)
    && (c.tag.stage != .idle || (authentic c && (cfg c).cert != [] && c.gauge.formed && tagActive c))

/-- Step 3 has ended (R140, R589): no write runs, none is to come for the sequence's own event within the 500 ms of Table 4.4. A
stopped CRYPT domain signs no record, so its write holds the step no longer than those (log entry 140). -/
def shutWriteOver (c : Chip) : Bool :=
  let late := decide (c.seq.shutStart + ms 500 ≤ c.now)
  !c.prs.present || (if c.tag.write.isSome then late && !cryptRuns c else late || !shutWriteComes c)

/-- Every slot has ended and been charged (step 2). -/
def slotsOver (c : Chip) : Bool := (List.finRange 8).all fun n => (runningSlot c n).isNone && (spurInn c n).ended.isEmpty

/-- Step 6: every spur off, CHG_EN low and CHG_SET 0 V with the path still in CHARGE (Table 8.4), and the links answer no more (R726). -/
def shutRail (c : Chip) : Chip :=
  let c := if c.pack.st = .charge then noteEnd 0x07 c else c
  takeCommands { c with host.answers := false }

/-- A channel whose gates the sequence sinks. Table 7.2 names no state for it: an inrush returns to HELD, and an accepted
channel goes to BLOCKING (DESIGN CHOICE, log entry 114). -/
def shutFeed (f : FeedId) (c : Chip) : Chip :=
  if feedDriven (feed c f) then feedOff f (if (feed c f).st = .inrush then .held else .blocking) 0x0C (noteInrush f c) else c

/-- Step 7: the pack path open and every feed gate sunk. -/
def shutPaths (c : Chip) : Chip := shutFeed .b (shutFeed .a (packOff .off 0x0D c))

/-- The sequence comes from a SHIP wake that saw no feed accepted, at empty (R162). -/
def lockoutDue (c : Chip) : Bool :=
  (c.seq.shutNow == .empty || c.seq.shutNow == .limpFloor) && c.seq.wokeFromShip && !c.seq.fedSinceWake

/-- The end of step 8: SHIP (R162, Table 4.5). -/
def enterShip (c : Chip) : Chip :=
  let lock := lockoutDue c
  let c := { setFaultIf lock F.wakeLockout c with
    ret.shutCause := c.seq.shutNow, ret.shutOutcome := .completed, ret.armed := none, ret.wakeArmed := !lock }
  let c := resetChip c
  { c with seq := { c.seq with mode := .ship, modeAt := c.now, shipSince := c.now } }

/-- What the next step begins with when step k has ended. -/
def shutNext (k : Nat) (nvm : Nvm) (c : Chip) : Chip :=
  match k with
  | 2 => shutTagWrite (writeBackAll c)
  | 3 => sendLeaving 1 (skipWaiting c)
  | 4 => shutCommit nvm { c with seq.committed := true }
  | 5 => shutRail c
  | 6 => shutPaths c
  | _ => c

/-- Step k has ended (DEDUCED, log entry 42). -/
def shutOver (k : Nat) (c : Chip) : Bool :=
  match k with
  | 2 => slotsOver c
  | 3 => shutWriteOver c
  | 5 => !c.jrn.opened || seqSpent c || (c.jrn.run.isNone && !c.jrn.request)
  | _ => true

/-- SHUTDOWN_STEP_COMPLETE (R139). -/
def shutStep (nvm : Nvm) (c : Chip) : Chip :=
  let k := c.seq.shutStep
  if k = 0 ∨ shutOver k c = false then c
  else if 8 ≤ k then enterShip c
  else shutNext k nvm { c with seq.shutStep := k + 1 }

/-! ### Collapse of the supplies (R141, R157, R164) -/

/-- With FRAM every changed guest record is written back before anything else (R633, R634). -/
def saveRooms (c : Chip) : Chip := if (cfg c).board.fram then writeBackAll c else c

/-- Outside a sequence the power-loss commit; within one the writes that are under way end as far as they can
(DEDUCED, log entry 41). V_TOP is no higher than VSUP by then. -/
def supplyCollapse (vSup : Int) (writesDone : Nat) (nvm : Nvm) (c : Chip) : Chip :=
  if !running c || decide (4500 ≤ vSup) then c
  else
    let lose (c : Chip) : Chip := { losePower c with vTop := (vSup : Rat) }
    if shutting c then
      let c := saveRooms c
      lose { c with spi := c.spi ++ (c.jrn.run.elim [] (·.writes)).take writesDone }
    else
      let c := saveRooms (sendLeaving 3 c)
      let d := powerLossCommit writesDone nvm c
      lose { d with
        ret.shutCause := .powerLoss, ret.shutOutcome := if d.jrn.head = c.jrn.head then .none else .completed }

/-! ### SHIP (R136, R137, R162) -/

/-- The wake watcher qualifies for 50 ms from the instant SHIP was entered at the earliest (DEDUCED, log entry 93). -/
def shipWake (minMv : Int) (highNs : Nat) (strap : Strap) (c : Chip) : Chip :=
  let high := min highNs (since c c.seq.shipSince)
  if c.seq.mode = .ship ∧ c.ret.wakeArmed ∧ 8000 < minMv ∧ ms 50 ≤ high then
    let atOnce := decide (since c c.seq.shipSince ≤ highNs) && c.ret.shutOutcome == .completed
    let c := enterConfigure .shipWake strap c
    { c with
      vTop := ratMax c.vTop (minMv : Rat)
      ret.shutOutcome := if atOnce then .wokenAtOnce else c.ret.shutOutcome
      seq := { c.seq with wokeFromShip := true, fedSinceWake := false } }
  else c

/-- The wake watcher times the feeds from the instant SHIP was entered at the earliest (DEDUCED, log entry 93). -/
def wakeRelease (maxA maxB : Int) (lowNs : Nat) (c : Chip) : Chip :=
  let low := min lowNs (since c c.seq.shipSince)
  if c.seq.mode = .ship ∧ maxA < 8000 ∧ maxB < 8000 ∧ sec 1 ≤ low then { c with ret.wakeArmed := true } else c

/-! ### The response to CMD_RESTART has gone (R697) -/

def restartNow (sent : Bool) (strap : Strap) (c : Chip) : Chip :=
  match c.seq.restartAt with
  | some t => if running c && (sent || decide (t + ms 10 ≤ c.now)) then
      let c := enterConfigure .command strap c
      { c with atReset := true }
    else c
  | none => c

/-! ### Meanings -/

def execPowerOnResetRelease (t : Time) (vTop : Int) (vcoreOk : Bool) (strap : Strap) (s : State) : Outcome :=
  run t (fun _ c => powerRelease vTop vcoreOk strap c) s

def execPowerOnResetAssert (t : Time) (vHold vTop : Int) (s : State) : Outcome := run t (fun _ c => powerAssert vHold vTop c) s

def execRstNLow (t : Time) (lowNs : Nat) (s : State) : Outcome := run t (fun _ c => rstLow lowNs c) s

def execRstNRelease (t : Time) (strap : Strap) (s : State) : Outcome := run t (fun _ c => rstRelease strap c) s

def execWatchdogTimeout (t : Time) (unservedNs : Nat) (strap : Strap) (s : State) : Outcome :=
  run t (fun _ c => if ms 50 ≤ unservedNs then watchdogReset strap c else c) s

def execCoreBrownout (t : Time) (outNs : Nat) (strap : Strap) (s : State) : Outcome :=
  run t (fun _ c => if us 10 < outNs then criticalReset .coreBrownout F.coreBrownout strap c else c) s

def execRamParityError (t : Time) (strap : Strap) (s : State) : Outcome :=
  run t (fun _ c => criticalReset .ramParity F.ramParity strap c) s

def execRetentionLoss (t : Time) (mv : Int) (s : State) : Outcome := run t (fun _ c => retentionLoss mv c) s

def execShipNRequest (t : Time) (lowNs : Nat) (s : State) : Outcome := run t (fun nvm c => shipN lowNs nvm c) s

def execShipRequestLapse (t : Time) (shipNHigh : Bool) (s : State) : Outcome := run t (fun _ c => shipLapse shipNHigh c) s

def execShutdownStepComplete (t : Time) (s : State) : Outcome := run t (fun nvm c => shutStep nvm c) s

def execSupplyCollapse (t : Time) (vSup : Int) (writesDone : Nat) (s : State) : Outcome :=
  run t (fun nvm c => supplyCollapse vSup writesDone nvm c) s

def execShipWake (t : Time) (_feed : FeedId) (minMv : Int) (highNs : Nat) (strap : Strap) (s : State) : Outcome :=
  run t (fun _ c => shipWake minMv highNs strap c) s

def execWakeLockoutRelease (t : Time) (maxA maxB : Int) (lowNs : Nat) (s : State) : Outcome :=
  run t (fun _ c => wakeRelease maxA maxB lowNs c) s

def execRestartAfterResponse (t : Time) (sent : Bool) (strap : Strap) (s : State) : Outcome :=
  run t (fun _ c => restartNow sent strap c) s

end Sys2Proof.Machine
end

