-- ==== Sys2Proof/Machine/Configure.lean ====
section
/-! DEFINITION. CONFIGURE (Tables 4.2, 4.3): its steps, the load of an image copy (R87), the programming of the signer key
(R94, R95), the way into LIMP (R147), and LIMP's feed set and floor (Table 4.6). -/

namespace Sys2Proof.Machine

/-! ### OTP (R93 … R97) -/

/-- The lowest-numbered blank slot. -/
def blankSlot (o : Otp) : Option Nat := if o.slot1 = .blank then some 1 else if o.slot2 = .blank then some 2 else none

/-- VHOLD (mV) is within 0.5 V of its charge level for a V_TOP (R39, R95). -/
def vHoldClose (vHold vTop : Int) : Bool := decide (absRat ((vHold : Rat) - ratMin ((vTop : Rat) - 500) 18000) ≤ 500)

/-- A pending programming begins. -/
def otpStart (vHold vTop : Int) (c : Chip) : Chip :=
  if running c && c.otp.pending.isSome && c.otp.busy.isNone && vHoldClose vHold vTop then
    { c with otp.busy := blankSlot c.otp }
  else c

/-- The programming ends: the slot holds the hash and its check sum. -/
def otpDone (c : Chip) : Chip :=
  match c.otp.pending, c.otp.busy with
  | some h, some 1 => { c with otp := { c.otp with slot1 := .fixed h, pending := none, busy := none } }
  | some h, some _ => { c with otp := { c.otp with slot2 := .fixed h, pending := none, busy := none } }
  | _, _ => c

/-! ### Step 1: the image (R87 … R92, R95, R97) -/

/-- The journal is opened: its head, a torn record, and the sticky record when none has been restored since the power-on (R146,
R788, R90). -/
def openJournal (m : RegionMap) (nvm : Nvm) (c : Chip) : Chip :=
  let (head, torn) := findHead nvm m
  let c := { c with img.map := some m, jrn := { c.jrn with opened := true, head := head, torn := torn } }
  let floor := ((List.range (journalSlots m)).map fun i =>
    let b := journalSlot nvm m i
    if committedRec b then recordFloor b else 0).foldl max 0
  let c := { c with img.floor := floor }
  let c := match c.ret.restoreDue, latestRecord nvm c with
    | true, some b => { c with ret.sticky := c.ret.sticky ||| recordSticky b, jrn.restored := true }
    | _, _ => c
  setFaultIf torn F.commitTorn { c with ret.restoreDue := false }

/-- Sets the result of a copy. -/
def setResult (id : CopyId) (r : CopyResult) (c : Chip) : Chip :=
  match id with
  | .a => { c with img.resultA := r }
  | .b => { c with img.resultB := r }

/-- The bytes of a copy's region. -/
def copyBytes (m : RegionMap) (id : CopyId) (nvm : Nvm) : List Byte :=
  nvm.readBytes (match id with | .a => m.copyA | .b => m.copyB) m.copyLen

/-- The header carries MAGIC. -/
def hasMagic (m : RegionMap) (id : CopyId) (nvm : Nvm) : Bool := slice (copyBytes m id nvm) 0 4 == [0x53, 0x4B, 0x50, 0x49]

/-- The candidates: copies with MAGIC, the newest SEQUENCE first, copy A first of equals (R87) (DEDUCED, log entry 43). -/
def imageCandidates (m : RegionMap) (nvm : Nvm) : List CopyId :=
  let seq (id : CopyId) : Nat := u32At (copyBytes m id nvm) 12
  match hasMagic m .a nvm, hasMagic m .b nvm with
  | true, true => if seq .a < seq .b then [.b, .a] else [.a, .b]
  | true, false => [.a]
  | false, true => [.b]
  | false, false => []

/-- What the checks of Table 3.4 need to know of this part now. -/
def checkEnv (m : RegionMap) (c : Chip) : CheckEnv :=
  { map := m, uid := Config.uid, kDev := Config.kDev, ownKey := Crypto.compress (Crypto.publicKey Config.recordScalar)
    fixed := fixedHash c.otp.slot1 c.otp.slot2, floor := c.img.floor }

/-- Before a capacity is learned or adopted it is the design capacity, with σ_F at 10 % of it (R512, R528). -/
def designCapacity (cap : Nat) (l : Learn) : Learn := { l with qFcc := (cap : Rat), varF := (cap : Rat) * (cap : Rat) / 100 }

/-- The fields, digests and guests of an accepted copy take effect (R87, R101, R109, R111). -/
def loadCopy (id : CopyId) (x : Accepted) (vHold vTop : Int) (c : Chip) : Chip :=
  let strap := inPairStrap c
  let fixes := (fixedHash c.otp.slot1 c.otp.slot2).isNone
  let own := applyIgnored x.secs x.cfg
  let echo : Nat := bitAt 0 (strap != x.cfg.board.fitted.getLsbD 7) + bitAt 1 (!(ignoredTags x.secs x.cfg).isEmpty)
    + bitAt 2 (x.cfg.device.timeSource && !x.cfg.board.fitted.getLsbD 5)
  let c := { c with
    img := { c.img with
      loaded := some id, keyFixed := fixes, cfg := own, echo := BitVec.ofNat 4 echo, defaulted := defaultedBits x.secs
      digest := Crypto.sha256 x.bytes, pairDigest := pairDigest x.secs, contracts := readGuests own (!strap) [] x.secs }
    otp.pending := if fixes then some x.signerHash else none
    learn := designCapacity own.pack.designCap c.learn }
  let c := setResult id { reason := .accepted } c
  let c := admitGuests (otpStart vHold vTop c)
  { c with tag.certOk := (cfg c).cert != [] && certFormOk (cfg c).cert && certTrusted c (cfg c).cert }

/-- Runs the checks of each candidate in turn (R87, R92). -/
def tryCopies (m : RegionMap) (nvm : Nvm) (vHold vTop : Int) : List CopyId → Chip → Chip
  | [], c => setFault F.imageNone c
  | id :: ids, c =>
    match checkCopy (checkEnv m c) (copyBytes m id nvm) with
    | .ok x => loadCopy id x vHold vTop c
    | .error r =>
      tryCopies m nvm vHold vTop ids (setResult id r (setFault (if id = .a then F.imageABad else F.imageBBad) c))

/-- Both OTP slots are damaged (R97). -/
def bothDamaged (c : Chip) : Bool := c.otp.slot1 == .damaged && c.otp.slot2 == .damaged

/-- Selects and loads a copy. -/
def loadImage (vHold vTop : Int) (nvm : Nvm) (c : Chip) : Chip :=
  let c := setFaultIf (bothDamaged c) F.otpFault c
  match selectMap nvm with
  | none =>
    setFault F.imageNone (setResult .a { reason := .map } (setResult .b { reason := .map }
      { c with jrn := { c.jrn with request := false, bitRequest := false } }))
  | some (m, backup) =>
    let c := openJournal m nvm { c with img := { c.img with backup := backup, echo := 0 } }
    if bothDamaged c then c
    else
      let none_ (id : CopyId) (c : Chip) : Chip := if hasMagic m id nvm then c else setResult id { reason := .noMagic } c
      tryCopies m nvm vHold vTop (imageCandidates m nvm) (none_ .b (none_ .a c))

/-- Why step 1 leads to LIMP: its own outcome first, then a repeated reset of the critical class (R91, R97, R121). -/
def limpAfterImage (c : Chip) : Option LimpCause :=
  if bothDamaged c then some .otp
  else if c.img.loaded.isNone then some .noImage
  else if repeatedCritical c then some .repeatedReset
  else none

/-- A feed channel at the end of step 1: its windows are evaluated from here on, and no test of before counts (R124, R274,
R277). -/
def armFeed (f : FeedId) (c : Chip) : Chip :=
  let i := match f with | .a => 0 | .b => 1
  let fresh (x : Feed) : Feed := { x with mirage := false, kTest := none, kPass := 0 }
  if fitted c i then updFeed f (fun x => { fresh x with armed := true, uvOk := false, ovOk := true }) (feedTo f .watch none c)
  else updFeed f fresh (feedTo f .absent none c)

/-- A channel on the way into LIMP: no feed set is decided yet, so one that had left WATCH is in WATCH again (R148, R277). -/
def limpWatch (x : Feed) : Feed := if x.st == .delay || x.st == .held then { x with st := .watch } else x

/-- The way into LIMP begins: the defaults of Table 4.6 apply, and no guest is served (DEDUCED, log entry 105). -/
def takeLimpPath (cause : LimpCause) (c : Chip) : Chip :=
  let c := { c with seq.limpPath := some cause, inn.guests := c.inn.guests.map fun g => { g with own := false } }
  configureSpurs (updFeed .b limpWatch (updFeed .a limpWatch c))

/-- The next step begins. -/
def nextStep (k : Nat) (c : Chip) : Chip := { c with seq := { c.seq with step := k, stepStart := c.now } }

/-- Step 0: the clocks and the modulators run, and the crystal is taken for the nearer of 40 and 20 MHz (R204). -/
def endWakeUp (xtalHz : Nat) (c : Chip) : Chip :=
  let c := startMods { c with
    clk := { c.clk with measured20 := decide (xtalHz < 30000000), xtalOk := true, coreTrimmed := true }
    gauge.gov := { c.gauge.gov with runAt := some c.now, secAt := c.now } }
  nextStep 1 c

/-- Step 1. -/
def endImage (vHold vTop vinA vinB : Int) (nvm : Nvm) (c : Chip) : Chip :=
  let c := loadImage vHold vTop nvm c
  let c := configureSpurs (armFeed .b (armFeed .a c))
  let c := match limpAfterImage c with
    | some cause => takeLimpPath cause c
    | none => c
  let c := canStart c
  nextStep 2 (windowCrossing .b vinB (us 50) nvm (windowCrossing .a vinA (us 50) nvm c))

/-- Step 2 (Table 4.3). -/
def endSelfTest (failed : BitVec 15) (zero : ZeroPhase) (c : Chip) : Chip :=
  let c := selfTestOffsets zero { c with seq.selfTest := failed }
  let c :=
    if failed = 0 then c
    else
      let c := setFault F.selfTest c
      if c.seq.limpPath.isSome then c else takeLimpPath .selfTest c
  nextStep 3 { c with seq.bus3 := none }

/-- What the bleed test of step 3 found, by the words at its end: a mirage is attributed to each path whose mean precise words of
the last 1 ms show at least 1 mA forward (R311); an absent feed carries none (R66). -/
def judgeBleed (nvm : Nvm) (c : Chip) : Chip :=
  let hit (ch : ChId) : Bool := (msMean c ch).elim false fun i => decide (1 ≤ i)
  let a := c.feedA.st != .absent && hit .iA
  let b := c.feedB.st != .absent && hit .iB
  let p := hit .iP
  let v := busMv c
  let held := decide (2000 < v)
  let flags := bitAt 0 true + bitAt 1 (held && a) + bitAt 2 (held && b) + bitAt 3 (held && p) + bitAt 4 (held && !a && !b && !p)
  let c := { c with rail := { c.rail with bleed := satR 16 v, bleedFlags := BitVec.ofNat 5 flags } }
  if !held then c
  else
    let c := if a then feedMirageFound .a nvm c else c
    let c := if b then feedMirageFound .b nvm c else c
    let c := if p then packMirage c else c
    setFaultIf (!a && !b && !p) F.railHeld c

/-- Step 4 begins: the pack is present by its thermistors, or the tag is probed for it (R237, R238, R564). -/
def startIdentity (c : Chip) : Chip :=
  let c := { c with tag := { c.tag with probe := some .configure, probes := 0, probeAt := c.now } }
  if c.prs.byTherm then packPresent (some .configure) c else c

/-- Step 3; V_BUS at its start is its first VALID fast word there, or the last VALID one before (R126). With the die critical the
spurs are held off, so every tie test is inconclusive (R269, R410). On the way into LIMP TS1 and TS2 are converted twice each at the start
of step 5 (R147). -/
def endMirage (ties : List TieTest) (nvm : Nvm) (c : Chip) : Chip :=
  let c := if 2000 ≤ c.seq.bus3.getD (busFastMv c) then { c with seq.notes := c.seq.notes ||| 1 } else judgeBleed nvm c
  let c := applyTies (if c.tmp.dieCrit then [] else ties) c
  if c.seq.limpPath.isSome then
    let c := nextStep 5 c
    followPresence { c with seq := { c.seq with ts1Left := 2, ts2Left := if tsFitted c .ts2 then 2 else 0 } }
  else startIdentity (nextStep 4 c)

/-- Step 4 has ended: a verdict, no pack, or 195 ms (R566). -/
def identityOver (c : Chip) : Bool :=
  (!c.prs.present && c.tag.probe != some .configure) || c.tag.verdict != .none || decide (c.seq.stepStart + us 195000 ≤ c.now)

/-- Step 5 runs (R127, R566) (DEDUCED, log entry 44). -/
def prechargeRuns (c : Chip) : Bool := !preSkipped c && authorised c

/-- Step 4. -/
def endIdentity (c : Chip) : Chip :=
  if !identityOver c then c
  else
    let bad := c.tag.verdict == .notAuthenticated || c.tag.verdict == .silent
    let c := { c with seq.notes := c.seq.notes ||| BitVec.ofNat 5 (bitAt 2 (!c.prs.present) + bitAt 3 bad) }
    if prechargeRuns c then nextStep 5 c else nextStep 6 { c with seq.notes := c.seq.notes ||| 2 }

/-- N of the LIMP floor (Table 4.6) (DEDUCED, log entry 94). -/
def limpCellCount (nvm : Nvm) (c : Chip) : Nat :=
  match latestBlock nvm c with
  | some b => b.cells
  | none => (packMv c / 4200).ceil.toNat

/-- LIMP is entered (R147, R477). Counting from a journal record reports that record as its source
(DEDUCED, log entry 126), and z has the variance of log entry 129 (DESIGN CHOICE). -/
def enterLimp (cause : LimpCause) (nvm : Nvm) (c : Chip) : Chip :=
  let c := setMode .limp c
  let b := latestBlock nvm c
  let fcc : Rat := b.elim 100000 fun b => (b.fcc : Rat)
  let rel : Rat := b.elim (1 / 10) fun b => (b.fccSigma : Rat) / 1000
  let c := { c with
    seq := { c.seq with
      limp := some cause, limpPath := none, limpSet24 := none, limpCells := limpCellCount nvm c, step := 15
      cfgEnd := some c.now, configTime := satR 32 ((since c c.seq.cfgStart : Nat) / 100000 : Rat), spursOn := true }
    gauge := { c.gauge with
      profSrc := if b.isNone then .generic else c.gauge.profSrc, source := if b.isNone then 6 else 1
      z := b.elim (1 / 2) fun b => (b.z : Rat) / 100000
      p := { c.gauge.p with zz := b.elim (1 / 4) fun b => (b.zSigma : Rat) / 100000 * ((b.zSigma : Rat) / 100000) }
      limpFcc := fcc, updAt := c.now, updN := c.gauge.cnt.n }
    learn := { c.learn with
      qFcc := fcc, varF := (rel * fcc) * (rel * fcc), cycles := b.elim 0 (·.cycles), dsg := b.elim 0 (fun b => (b.dsg : Rat))
      srcFcc := if b.isNone then 0 else 2, srcCyc := if b.isNone then 0 else 2, jrnAt := c.now, tagAt := c.now } }
  let c := countCycle c.learn.dsgNew c
  let c := takeCommands (canStart (limpReport { c with learn.dsgNew := 0 }))
  if anyFeed c then c else dueShut nvm c

/-- Step 5 has ended: no pack, or its path has left WAIT and PRECHARGE, or may not be pre-charged. -/
def prechargeOver (c : Chip) : Bool :=
  decide (c.seq.ts1Left = 0 ∧ c.seq.ts2Left = 0) && (!c.prs.present || !(c.pack.st == .wait || c.pack.st == .precharge)
    || (c.pack.st == .wait && !prechargePermitted c))

/-- Step 5: without a pre-charge it was skipped, and without a pack CONFIGURE goes on as for none (R163, Table 4.3). -/
def endPrecharge (nvm : Nvm) (c : Chip) : Chip :=
  if !prechargeOver c then c
  else
    let notes := BitVec.ofNat 5 (bitAt 1 (!c.seq.preRan) + bitAt 2 (!c.prs.present))
    let c := { c with seq.notes := c.seq.notes ||| notes }
    match c.seq.limpPath with
    | some cause => enterLimp cause nvm c
    | none => nextStep 6 c

/-- The exchange and adoption have ended (R570). -/
def identitySettled (c : Chip) : Bool := c.tag.stage == .idle && c.tag.probe != some .configure

/-- Step 7 has ended, and step 8 may begin (R570, R754). -/
def pairOver (c : Chip) : Bool := c.pair.done7 && identitySettled c

/-- Step 6, and step 7 of a single gauge with it. -/
def endGuests (nvm : Nvm) (c : Chip) : Chip :=
  let c := step7Start (nextStep 7 (fillRooms nvm (readmit c)))
  if pairOver c then nextStep 8 c else c

def endPair (c : Chip) : Chip := if pairOver c then nextStep 8 c else c

/-- Step 8 is held for a feed: its delay runs, or step 8 is held for it already and it is on its way (R128) (DESIGN CHOICE,
log entry 106). -/
def holdsStep8 (held : Bool) (x : Feed) : Bool := x.st == .delay || (held && (x.st == .held || x.st == .inrush))

/-- No source supplies VBUS yet. -/
def railBare (c : Chip) : Bool := !anyFeed c && !packSupplies c

/-- Step 8 is held for feed A. -/
def heldForA (c : Chip) : Bool := railBare c && holdsStep8 c.seq.holdA c.feedA

/-- Step 8 is held for feed B. -/
def heldForB (c : Chip) : Bool := railBare c && holdsStep8 c.seq.holdB c.feedB

/-- Step 8 is held: no source supplies VBUS yet, and a feed is on its way (R128). A feed in DELAY beside an accepted one does not
hold it (DESIGN CHOICE, log entry 106). -/
def step8Held (c : Chip) : Bool := heldForA c || heldForB c

/-- Step 8: first estimate, hand-over, and the mode that follows (Table 4.1, R129). -/
def endHandOver (nvm : Nvm) (c : Chip) : Chip :=
  if step8Held c then { c with seq := { c.seq with holdA := heldForA c, holdB := heldForB c } }
  else
    let c := innStart nvm (innHandOver nvm (firstEstimate nvm c))
    let c := { c with
      seq := { c.seq with
        step := 15, holdA := false, holdB := false, cfgEnd := some c.now
        configTime := satR 32 ((since c c.seq.cfgStart : Nat) / 100000 : Rat) }
      learn := { c.learn with jrnAt := c.now, tagAt := c.now }
      inn := { c.inn with ledgerAt := c.now } }
    let c := if anyFeed c then enterCoupled c else enterParked nvm c
    followRail nvm c

/-! ### Time limits (Table 4.2) -/

/-- The maximum of step 7: 60 ms, and for each record restored at the join 16 µs or its transfer on the NVM (R754)
(DEDUCED, log entry 45). -/
def pairMax (c : Chip) : Time := ms 60 + c.pair.restoredN * max 16000 (544000 / max 1 (cfg c).board.nvCk)

/-- A step has exceeded its maximum. -/
def stepOverrun (c : Chip) : Bool :=
  let past (d : Time) : Bool := decide (c.seq.stepStart + d < c.now)
  match c.seq.step with
  | 0 => past (ms 5)
  | 1 => past (ms 72)
  | 2 => past (ms 25)
  | 3 => past (ms 30)
  | 4 => past (ms 200)
  | 5 => past (ms ((cfg c).pack.preTime + 2))
  | 6 => past (ms 125)
  | 7 => !c.pair.done7 && past (pairMax c)
  | _ => !(c.seq.holdA || c.seq.holdB) && past (ms 10)

/-- CONFIGURE_STEP_COMPLETE: the input must be that of the present step. A step that has taken too long is a watchdog reset,
at whose release LK_ROLE is decoded anew (Table 4.3, R48). -/
def stepComplete (strap : Strap) (inp : StepInput) (nvm : Nvm) (c : Chip) : Chip :=
  if c.seq.mode ≠ .configure then c
  else if stepOverrun c then watchdogReset strap c
  else match c.seq.step, inp with
    | 0, .wakeUp hz => endWakeUp hz c
    | 1, .image vHold vTop vinA vinB => endImage vHold vTop vinA vinB nvm c
    | 2, .selfTest failed zero => endSelfTest failed zero c
    | 3, .mirage ties => endMirage ties nvm c
    | 4, .identity => endIdentity c
    | 5, .precharge => endPrecharge nvm c
    | 6, .guests => endGuests nvm c
    | 7, .pair => endPair c
    | 8, .handOver => endHandOver nvm c
    | _, _ => c

/-! ### LIMP: feed set and floor (Table 4.6) -/

/-- The first fitted feed that stays above 8.0 V for 50 ms after LIMP was entered decides the feed set (R66). The hysteresis of
the windows starts from what the thresholds in force before have left (DESIGN CHOICE, log entry 132). -/
def limpFeedSet (f : FeedId) (minMv : Int) (durNs : Nat) (vinA vinB : Int) (nvm : Nvm) (c : Chip) : Chip :=
  if c.seq.mode = .limp ∧ c.seq.limpSet24 = none ∧ (feed c f).st ≠ .absent ∧ 8000 < minMv ∧ ms 50 ≤ durNs
      ∧ c.seq.modeAt + ms 50 ≤ c.now then
    let c := { c with seq.limpSet24 := some (decide ((18000 : Int) ≤ match f with | .a => vinA | .b => vinB)) }
    windowCrossing .b vinB (us 50) nvm (windowCrossing .a vinA (us 50) nvm c)
  else c

/-- V_PACK has lain below the LIMP floor for 4 s (Table 4.6). -/
def limpFloor (nvm : Nvm) (c : Chip) : Chip :=
  if c.seq.mode = .limp && c.prs.present && heldFor c (sec 4) c.pack.hold.floor then startShut .limpFloor nvm c else c

/-! ### End of discharge and the periodic writes (R469 … R471, R523, R526) -/

/-- The second to be judged yields a compensated voltage. -/
def eodVolt (c : Chip) : Option Rat :=
  let ps := validPairs c (c.now - sec 1) c.now
  let i := meanPackMa c (ps.map (·.2))
  if ps.isEmpty || decide (i < 0) then none
  else some (meanCellV c (ps.map (·.1)) + i / 1000 * serOhm c c.gauge.z)

/-- The declaration of end of discharge (R470, R508, R540) (DEDUCED, log entry 55). -/
def declareEod (nvm : Nvm) (c : Chip) : Chip :=
  let c := tagEvent 2 (setSoc 0 { c with
    gauge := { c.gauge with eod := true, eodN0 := c.gauge.cnt.n }, learn := { c.learn with tte := 0, tteShed := 0 } })
  if c.seq.mode = .parked then startShut .empty nvm c else packPolicies c

/-- A second is judged for end of discharge (R469). -/
def eodSecond (nvm : Nvm) (c : Chip) : Chip :=
  if !(c.gauge.formed && c.prs.present && !inLimp c && c.pack.st != .charge) || decide (c.now < c.gauge.eodAt + sec 1) then c
  else
    let c := { c with gauge.eodAt := c.now }
    match eodVolt c with
    | none => c
    | some v =>
      let n := if v * 1000 < ((cfg c).pack.vShut : Rat) then satInc 7 c.gauge.eodN else 0
      let c := { c with gauge.vC := v, gauge.eodN := n }
      if 4 ≤ n ∧ c.gauge.eod = false then declareEod nvm c else c

/-- The 15 min of R523 have passed; changed records are written back beside (R633). -/
def periodicJournal (c : Chip) : Chip :=
  if running c && c.seq.mode != .configure && decide (c.learn.jrnAt + minutes 15 ≤ c.now) then
    periodicWriteBack (requestCommit { c with learn.jrnAt := c.now })
  else c

/-- The 4 h of R526 have passed. -/
def periodicTag (c : Chip) : Chip :=
  if running c && c.seq.mode != .configure && decide (c.learn.tagAt + minutes 240 ≤ c.now) then
    tagEvent 8 c
  else c

/-! ### Meanings -/

def execConfigureStepComplete (t : Time) (inp : StepEnd) (s : State) : Outcome :=
  run t (fun nvm c => stepComplete inp.strap inp.seen nvm c) s

def execOtpProgramStart (t : Time) (vHold vTop : Int) (s : State) : Outcome := run t (fun _ c => otpStart vHold vTop c) s

def execOtpProgramDone (t : Time) (s : State) : Outcome := run t (fun _ c => otpDone c) s

def execLimpFeedSetDecided (t : Time) (feed : FeedId) (minMv : Int) (durNs : Nat) (vinA vinB : Int) (s : State) : Outcome :=
  run t (fun nvm c => limpFeedSet feed minMv durNs vinA vinB nvm c) s

def execLimpFloor (t : Time) (_maxMv _durNs : FromWords) (s : State) : Outcome :=
  run t (fun nvm c => limpFloor nvm c) s

def execEndOfDischargeDeclared (t : Time) (s : State) : Outcome := run t (fun nvm c => eodSecond nvm c) s

def execPeriodicJournalCommit (t : Time) (s : State) : Outcome := run t (fun _ c => periodicJournal c) s

def execPeriodicTagWrite (t : Time) (s : State) : Outcome := run t (fun _ c => periodicTag c) s

end Sys2Proof.Machine
end

