-- ==== Sys2Proof/Machine/Host.lean ====
section
/-! DEFINITION. The host links (chapter 14): the SMBus slave, reception of Ruell frames, the state of the CAN bus, alerts
and the wake line. -/

namespace Sys2Proof.Machine

/-! ### SMBus (R667 … R673, R707) -/

/-- The address in use (R667). -/
def smbAddr (c : Chip) : Nat := (cfg c).device.smbAddr

/-- The slave answers: fitted, and the sequence has not reached step 6 (R66, R726). -/
def smbAnswers (c : Chip) : Bool := running c && fitted c 6 && c.host.answers

/-- A transfer addresses the gauge: it is counted, and the lines are free (R714, Table 14.13). -/
def smbTransfer (c : Chip) : Chip := { c with smb := { c.smb with counts := bump 65535 0 c.smb.counts, stuck := false } }

/-- The bytes of a block read, PEC included (R671). -/
def fetchBytes (c : Chip) (data : List Byte) : List Byte :=
  let out := u8B data.length ++ data
  let a := smbAddr c
  out ++ [pec (u8B (2 * a) ++ u8B 0xC1 ++ u8B (2 * a + 1) ++ out)]

/-- A FETCH returns the response, which is then no longer pending. -/
def answerFetch (c : Chip) : Chip :=
  { c with smb := { c.smb with
      out := fetchBytes c (c.smb.resp.elim [] (·.bytes)), resp := none, stretch := none } }

/-- SMBUS_FETCH: a response that is not ready stretches SMB_CLK (R672) (DEDUCED, log entry 48). -/
def smbFetch (c : Chip) : Chip :=
  if !smbAnswers c then c
  else
    let c := smbTransfer c
    if c.smb.resp.elim false fun r => decide (c.now < r.ready) then { c with smb.stretch := some c.now } else answerFetch c

/-- The PEC of a SEND: over the address byte, the command code, the byte count and the data (R668). -/
def sendPec (c : Chip) (x : SmbSend) : Byte := pec (u8B (2 * smbAddr c) ++ u8B 0xC0 ++ u8B x.count ++ x.data)

/-- A SEND that is discarded: its PEC is wrong or missing, and not acknowledged (R668), or its byte count is 0 (R669). The response
to an earlier SEND goes with it (DEDUCED, log entry 47). A good SEND is a request. -/
def smbDiscard (x : SmbSend) (c : Chip) : Chip :=
  let good := x.pec == some (sendPec c x)
  if !smbAnswers c || (good && x.count != 0) then c
  else
    let c := smbTransfer c
    let c := { c with smb := { c.smb with resp := none, acked := some good } }
    if good then { c with smb.zero := (c.smb.zero.1, satInc 65535 c.smb.zero.2) }
    else { c with smb.counts := bump 255 1 c.smb.counts }

/-- A read without a command code: a PEC over the address byte alone (R670). -/
def smbZeroRead (c : Chip) : Chip :=
  if !smbAnswers c then c
  else
    let c := smbTransfer c
    { c with smb := { c.smb with
        zero := (satInc 65535 c.smb.zero.1, c.smb.zero.2), out := [pec (u8B (2 * smbAddr c + 1))] } }

/-- The interface is reset: what it carried is gone. -/
def smbReset (c : Chip) : Chip := { c with smb := { c.smb with resp := none, out := [], stretch := none } }

/-- The master has held SMB_CLK low: from 35 ms on the interface is surely reset, from 25 ms on it may be (R673)
(DEDUCED, log entry 49). -/
def smbTimeout (lowNs : Nat) (c : Chip) : Chip :=
  if !smbAnswers c || decide (lowNs < ms 25) then c
  else
    let (acts, c) := if ms 35 ≤ lowNs then (true, c) else freePulse c
    if acts then { smbReset c with smb.counts := bump 255 2 c.smb.counts } else c

/-- Another device holds a line low (Table 14.13). -/
def smbStuck (lowNs : Nat) (c : Chip) : Chip :=
  if running c && fitted c 6 && decide (sec 1 ≤ lowNs) then
    let c := smbReset (setFault F.smbStuck c)
    { c with smb.stuck := true }
  else c

/-- The causes that were latched before a time. -/
def causesBefore (c : Chip) (t : Time) : BitVec 5 :=
  (List.range 5).foldl (fun m i => if c.alert.at_.getD i 0 < t then m ||| (1#5 <<< i) else m) 0

/-- The byte that answers the Alert Response Address: the gauge's address and a bit that SMBus leaves open (R707). -/
def alertByte (c : Chip) : List Byte := u8B (2 * smbAddr c + (if Config.alertBit c.now then 1 else 0))

/-- The Alert Response Address is read while ALERT_N is low: the gauge answers with its address (R707, R728) (DEDUCED, log entry
50). -/
def alertRead (startedAt : Time) (won : Bool) (c : Chip) : Chip :=
  if smbAnswers c && c.alert.causes != 0 && won then
    let c := smbTransfer c
    { c with smb.out := alertByte c, alert.causes := c.alert.causes &&& ~~~ (causesBefore c startedAt) }
  else c

/-! ### Reception of Ruell frames (R674 … R678, R727) -/

/-- The controller receives frames and the gauge takes them (R726). -/
def canTakes (c : Chip) : Bool := running c && canAwake c && c.host.answers

/-- A frame has been received. -/
def canSeen (c : Chip) : Chip := { c with can := { goodReceive c.can with frameAt := c.now } }

/-- A frame has been accepted. -/
def canAccept (c : Chip) : Chip := canSeen { c with can.rx := bump 65535 0 c.can.rx }

/-- What a REQUEST frame does. -/
inductive Segment
  | ignored | discarded | kept
  | message (bytes : List Byte)
  deriving DecidableEq, Repr

/-- The reassembly of a sender ends incomplete and is counted. -/
def dropReasm (addr : Nat) (c : Chip) : Chip :=
  if c.can.reasm.any (·.addr == addr) then
    { c with can := { c.can with
        reasm := c.can.reasm.filter (·.addr != addr), multi := (c.can.multi.1, satInc 65535 c.can.multi.2) } }
  else c

/-- Makes room for another reassembly: the oldest of four goes. -/
def roomReasm (c : Chip) : Chip :=
  match c.can.reasm with
  | r :: _ => if 4 ≤ c.can.reasm.length then dropReasm r.addr c else c
  | [] => c

/-- A first frame (R677, R678). Whatever it opens, it ends what its sender left incomplete here. -/
def firstSegment (f : RuellFrame) (c : Chip) : Segment × Chip :=
  let total := u8At f.data 0
  let body := f.data.drop 1
  let c := dropReasm f.device c
  if total = 0 then (.discarded, { c with can.multi := (satInc 65535 c.can.multi.1, c.can.multi.2) })
  else
    if u16At body 0 ≠ ownAddr c then (.ignored, c)
    else if total ≤ body.length then (.message (body.take total), c)
    else
      let c := roomReasm c
      let r : Reasm := { addr := f.device, total := total, got := body, next := 1, lastAt := c.now }
      (.kept, { c with can.reasm := c.can.reasm ++ [r] })

/-- A following frame (R678) (DEDUCED, log entry 51). -/
def nextSegment (f : RuellFrame) (c : Chip) : Segment × Chip :=
  match c.can.reasm.find? (·.addr == f.device) with
  | none => (.discarded, c)
  | some r =>
    if f.seq ≠ r.next ∨ r.lastAt + ms 50 < c.now then (.discarded, dropReasm f.device c)
    else
      let got := r.got ++ f.data
      if r.total ≤ got.length then
        (.message (got.take r.total), { c with can.reasm := c.can.reasm.filter (·.addr != f.device) })
      else
        (.kept, { c with can.reasm := c.can.reasm.map fun x =>
          if x.addr == f.device then { x with got := got, next := r.next + 1, lastAt := c.now } else x })

/-- A REQUEST frame from another device. -/
def requestFrame (f : RuellFrame) (c : Chip) : Segment × Chip :=
  if !canTakes c || f.kind != 0x01 || f.device == ownAddr c then (.ignored, c)
  else if f.seq = 0 then firstSegment f (canAccept c)
  else nextSegment f (canAccept c)

/-- RUELL_REQUEST_SEGMENT: the frame completes no message, and it is not discarded. -/
def requestSegment (f : RuellFrame) (c : Chip) : Chip :=
  match requestFrame f c with
  | (.kept, d) | (.ignored, d) => d
  | _ => c

/-- RUELL_SEGMENT_DISCARDED. -/
def segmentDiscarded (f : RuellFrame) (c : Chip) : Chip :=
  match requestFrame f c with
  | (.discarded, d) => d
  | _ => c

/-- More than 50 ms have passed since the last frame of a reassembly (R678). -/
def reasmTimeout (sender : Nat) (c : Chip) : Chip :=
  if running c && c.can.reasm.any (fun r => r.addr == sender && decide (r.lastAt + ms 50 < c.now)) then dropReasm sender c
  else c

/-- Frames that are counted and ignored (R674, Table 14.5). -/
def frameIgnored (kind : IgnoreKind) (c : Chip) : Chip :=
  if !canTakes c then c
  else
    let i := match kind with
      | .elevenBit | .remote => 1
      | .reservedKind => 2
    canSeen { c with can.rx := bump 255 i c.can.rx }

/-- A frame with the gauge's own address that it did not send (R727). -/
def ownAddress (f : RuellFrame) (c : Chip) : Chip :=
  if canTakes c && f.device == ownAddr c then canSeen (setFault F.addressConflict c) else c

/-! ### The CAN bus (R681, R709 … R712, R721, Table 14.13) -/

/-- The controller goes bus-off (DEDUCED, log entry 18). -/
def busOff (c : Chip) : Chip :=
  if running c && c.can.on && !c.can.off then
    let times := pushTime (sec 60) c.now c.can.offTimes
    setFault F.canBusOff { c with can := { canErrors 255 c.can.rxec c.can with
      off := true, busOffs := satInc 255 c.can.busOffs, offTimes := times
      recoverAt := if 3 ≤ times.length then c.now + sec 10 else c.now } }
  else c

def busRecovered (c : Chip) : Chip :=
  if c.can.off && decide (c.can.recoverAt ≤ c.now) then { c with can := { c.can with off := false, tec := 0, rxec := 0 } } else c

/-- CAN_RX is held low while CAN_STB is low. -/
def rxStuck (lowNs : Nat) (c : Chip) : Chip :=
  if running c && c.can.on && !c.can.stb && decide (ms 10 ≤ lowNs) then
    canOff (setFault F.canRxStuck { c with can.rxStuck := some c.now })
  else c

/-- The retry 10 s later (DEDUCED, log entry 52). -/
def rxStuckRetry (stillStuck : Bool) (c : Chip) : Chip :=
  match c.can.rxStuck with
  | some t =>
    if c.now < t + sec 10 then c
    else if stillStuck then setFault F.canRxStuck { c with can.rxStuck := some c.now }
    else
      let c := { c with can.rxStuck := none }
      if c.seq.mode = .parked then c else canStart c
  | none => c

/-- A frame that has waited for 10 ms is dropped (R721). -/
def frameDropped (c : Chip) : Chip :=
  match c.can.queue with
  | f :: fs =>
    if f.2 + ms 10 ≤ c.now then { c with can := { c.can with queue := fs, tx := (c.can.tx.1, satInc 65535 c.can.tx.2) } } else c
  | [] => c

/-- Another device wakes the gauge by WAKE_N: the domain starts once the line has been low for 1 ms, and the wake is counted once
(R709). -/
def wakeBy (c : Chip) : Chip :=
  let n := if c.can.wakeLow then c.alert.wakes else satInc 65535 c.alert.wakes
  canStart { c with alert.wakes := n, can.wakeHighAt := none, can.frameAt := c.now }

/-- WAKE_N does not wake: it was found stuck, or has not been high for 1 s since (Table 14.13). -/
def wakeIgnored (lowNs : Nat) (c : Chip) : Bool :=
  c.can.wakeStuck.isSome || c.can.wakeHighAt.elim false fun t => decide (c.now - lowNs < t + sec 1)

/-- WAKE_N is held low by another device, or was and is released, from when the bus stays awake for 10 s (R709). After it was stuck
it counts again once it has been high for 1 s (DEDUCED, log entry 53). -/
def wakeWake (low : WakeLow) (c : Chip) : Chip :=
  if !running c || decide (low.ns < ms 1) then c
  else if low.held then
    let c := if wakeIgnored low.ns c then c else wakeBy c
    { c with can.wakeLow := true }
  else if wakeIgnored low.ns c then
    { c with can := { c.can with wakeStuck := none, wakeHighAt := some c.now, frameAt := c.now, wakeLow := false } }
  else
    let c := wakeBy c
    { c with can := { c.can with awakeUntil := c.now + sec 10, wakeLow := false } }

def wakeStuck (lowNs : Nat) (c : Chip) : Chip :=
  if running c && c.can.wakeStuck.isNone && decide (sec 10 ≤ lowNs) then
    setFault F.wakeNStuck { c with can.wakeStuck := some c.now }
  else c

/-- The transceiver reports a wake-up pattern (R710). -/
def rxWake (lowNs : Nat) (c : Chip) : Chip :=
  if running c && c.can.stb && decide (us 5 ≤ lowNs) then
    let c := canStart c
    { c with can.frameAt := c.now }
  else c

/-- A slot that R619 covers starts within PROV_LEAD + 10 ms. -/
def beaconNear (c : Chip) : Bool :=
  c.inn.on && (List.finRange 8).any fun n => (spurInn c n).plan.any fun s =>
    s.st == .planned && decide (s.start ≤ c.inn.time + 4 * (cfg c).inn.provLead + 40)
      && (guestAt c s.pos).elim false (·.cfg.beacon)

/-- A session is open on CAN. -/
def canSession (c : Chip) : Bool := c.host.sess.any fun s => s.elim false fun x => x.link == .can && !x.half

/-- In PARKED the CAN domain stops after 5 s without anything that needs it (R711). -/
def domainStop (c : Chip) : Bool :=
  c.seq.mode == .parked && c.can.on && !canSession c && c.alert.pulse.isNone && c.can.wakeStuck.isNone && !c.can.wakeLow
    && !beaconNear c
    && decide (c.can.frameAt + sec 5 ≤ c.now) && decide (c.can.awakeUntil ≤ c.now)

/-- The WAKE frame of R712 is handed over 200 µs after CAN_STB was released. -/
def ownWake (c : Chip) : Chip :=
  match c.can.wakeAt with
  | some t =>
    if t + us 200 ≤ c.now then canHand (ownFrame c 0 0x0C 0 []) { c with can.wakeAt := none } else c
  | none => c

/-- A WAKE_N pulse has lasted 10 ms (R708). -/
def pulseEnd (c : Chip) : Chip :=
  match c.alert.pulse with
  | some t => if t + ms 10 ≤ c.now then { c with alert.pulse := none, can.frameAt := c.now } else c
  | none => c

/-! ### Meanings -/

def execSmbusSendDiscarded (t : Time) (x : SmbSend) (s : State) : Outcome := run t (fun _ c => smbDiscard x c) s

def execSmbusFetch (t : Time) (s : State) : Outcome := run t (fun _ c => smbFetch c) s

def execSmbusZeroLengthRead (t : Time) (s : State) : Outcome := run t (fun _ c => smbZeroRead c) s

def execSmbusClockTimeout (t : Time) (lowNs : Nat) (s : State) : Outcome := run t (fun _ c => smbTimeout lowNs c) s

def execSmbStuck (t : Time) (lowNs : Nat) (s : State) : Outcome := run t (fun _ c => smbStuck lowNs c) s

def execAlertResponseRead (t : Time) (startedAt : Time) (won : Bool) (s : State) : Outcome :=
  run t (fun _ c => alertRead startedAt won c) s

def execWakeNPulseEnd (t : Time) (s : State) : Outcome := run t (fun _ c => pulseEnd c) s

def execRuellSegmentDiscarded (t : Time) (f : RuellFrame) (s : State) : Outcome := run t (fun _ c => segmentDiscarded f c) s

def execRuellRequestSegment (t : Time) (f : RuellFrame) (s : State) : Outcome := run t (fun _ c => requestSegment f c) s

def execReassemblyTimeout (t : Time) (sender : Nat) (s : State) : Outcome := run t (fun _ c => reasmTimeout sender c) s

def execCanFrameIgnored (t : Time) (kind : IgnoreKind) (s : State) : Outcome := run t (fun _ c => frameIgnored kind c) s

def execOwnAddressFrame (t : Time) (f : RuellFrame) (s : State) : Outcome := run t (fun _ c => ownAddress f c) s

def execCanBusOff (t : Time) (s : State) : Outcome := run t (fun _ c => busOff c) s

def execBusOffRecovered (t : Time) (s : State) : Outcome := run t (fun _ c => busRecovered c) s

def execCanRxStuck (t : Time) (lowNs : Nat) (s : State) : Outcome := run t (fun _ c => rxStuck lowNs c) s

def execCanRxStuckRetry (t : Time) (stillStuck : Bool) (s : State) : Outcome := run t (fun _ c => rxStuckRetry stillStuck c) s

def execCanFrameDropped (t : Time) (s : State) : Outcome := run t (fun _ c => frameDropped c) s

def execWakeNWake (t : Time) (low : WakeLow) (s : State) : Outcome := run t (fun _ c => wakeWake low c) s

def execWakeNStuck (t : Time) (lowNs : Nat) (s : State) : Outcome := run t (fun _ c => wakeStuck lowNs c) s

def execCanRxWake (t : Time) (lowNs : Nat) (s : State) : Outcome := run t (fun _ c => rxWake lowNs c) s

def execCanDomainStop (t : Time) (s : State) : Outcome := run t (fun _ c => if domainStop c then canOff c else c) s

def execCanOwnWake (t : Time) (s : State) : Outcome := run t (fun _ c => ownWake c) s

end Sys2Proof.Machine
end

