-- ==== Sys2Proof/Machine/Caravan.lean ====
section
/-! DEFINITION. Caravan time (R703 … R706, R722): sending it as the source, following another source, and losing it. -/

namespace Sys2Proof.Machine

/-- Caravan time takes a new value from now on, with an offset that is still to be slewed out. -/
def setCaravan (us_ slew : Rat) (c : Chip) : Chip :=
  { c with ret := { c.ret with cvBase := us_, cvRef := c.now, cvSlew := slew } }

/-- The sources heard in the last 10 s (R704). -/
def heardNow (c : Chip) : List (Nat × Time) := c.caravan.heard.filter fun h => decide (c.now < h.2 + sec 10)

/-- A source with a lower address than this gauge's is heard. -/
def lowerHeard (c : Chip) : Bool := (heardNow c).any fun h => decide (h.1 < ownAddr c)

/-- TIME_SYNC is sent every 1 s; a stopped source resumes once the lower one has been silent for 10 s (R703, R722)
(DEDUCED, log entry 54). -/
def syncSend (c : Chip) : Chip :=
  if !(running c && timeDuty c && canAwake c) then c
  else
    let c := if c.caravan.stopped && !lowerHeard c then { c with caravan.stopped := false } else c
    if c.caravan.stopped || c.caravan.sendAt.elim false (fun t => decide (c.now < t + sec 1)) then c
    else
      let q := (c.caravan.sendSeq + 1) % 32
      canHand (ownFrame c 1 0x08 q []) { c with caravan := { c.caravan with sendSeq := q, sendAt := some c.now } }

/-- A TIME_SYNC is received: its start of frame is stamped, and a source that hears a lower one stops (R704, R722). -/
def syncReceived (src seq : Nat) (c : Chip) : Chip :=
  if !canTakes c || src == ownAddr c then c
  else
    let c := canAccept c
    let c := { c with caravan := { c.caravan with
      heard := (c.caravan.heard.filter (·.1 != src)) ++ [(src, c.now)]
      stamps := (c.caravan.stamps.filter (·.1 != src)) ++ [(src, seq, c.now, caravanAt c.ret c.now)] } }
    if actsAsSource c && decide (src < ownAddr c) then setFault F.caravanTime { c with caravan.stopped := true } else c

/-- The rate correction from two successive syncs, 0.1 ppm. -/
def rateFrom (prev : Option (Time × Rat)) (at_ : Time) (src : Rat) (old : Int) : Int :=
  match prev with
  | some (t0, s0) => if t0 < at_ then roundRat (((src - s0) * 1000 / ((at_ - t0 : Nat) : Rat) - 1) * 10000000) else old
  | none => old

/-- The offset of a sync takes effect: a step above 1 ms, otherwise a slew with a new rate (R704, Table 14.13). -/
def applyOffset (off : Rat) (at_ : Time) (src : Rat) (prev : Option (Time × Rat)) (c : Chip) : Chip :=
  let own := caravanAt c.ret c.now
  if 1000 < absRat off then
    let c := setFaultIf (c.caravan.synced && decide (1000000 < absRat off)) F.caravanTime c
    setCaravan (own + off) 0 { c with caravan.counts := bump 255 1 c.caravan.counts }
  else
    let c := setCaravan own off c
    { c with ret.cvRate := rateFrom prev at_ src c.ret.cvRate }

/-- The gauge follows only the source with the lowest address that it has heard in the last 10 s (R704). -/
def followed (c : Chip) : Option Nat :=
  match heardNow c with
  | [] => none
  | h :: hs => some (hs.foldl (fun m x => min m x.1) h.1)

/-- A TIME_FOLLOW is received. -/
def followReceived (src seq stampUs : Nat) (absolute : Bool) (c : Chip) : Chip :=
  if !canTakes c || src == ownAddr c then c
  else
    let c := canAccept c
    match c.caravan.stamps.find? fun x => x.1 == src && x.2.1 == seq with
    | some (_, _, at_, own) =>
      if actsAsSource c ∨ followed c ≠ some src then c
      else
        let off := (stampUs : Rat) - own
        let prev := if c.caravan.follow = some src then c.caravan.prev else none
        let c := applyOffset off at_ (stampUs : Rat) prev c
        { c with
          ret.cvSet := absolute
          caravan := { c.caravan with
            stamps := c.caravan.stamps.filter (·.1 != src), follow := some src, followAt := some c.now
            prev := some (at_, (stampUs : Rat)), synced := true
            offset := off, counts := bump 65535 0 c.caravan.counts } }
    | none => c

/-- No TIME_FOLLOW for 10 s (R705). -/
def sourceLost (c : Chip) : Chip :=
  if running c && c.caravan.synced && c.caravan.followAt.elim false (fun t => decide (t + sec 10 ≤ c.now)) then
    latchAlert 4 { c with caravan := { c.caravan with synced := false, prev := none, counts := bump 255 2 c.caravan.counts } }
  else c

/-! ### Meanings -/

def execTimeSyncSend (t : Time) (s : State) : Outcome := run t (fun _ c => syncSend c) s

def execTimeSync (t : Time) (src seq : Nat) (s : State) : Outcome := run t (fun _ c => syncReceived src seq c) s

def execTimeFollow (t : Time) (src seq stampUs : Nat) (absolute : Bool) (s : State) : Outcome :=
  run t (fun _ c => followReceived src seq stampUs absolute c) s

def execTimeSourceLost (t : Time) (s : State) : Outcome := run t (fun _ c => sourceLost c) s

end Sys2Proof.Machine
end

