-- ==== Sys2Proof/Machine/InnCmds.lean ====
section
/-! DEFINITION. The commands of the innkeeper (chapter 13): the slot tick, the decisions, the boundaries of slots, fills
and the ledger check. -/

namespace Sys2Proof.Machine

/-- A beacon of a provisional grant goes out (R619, R622). -/
def sendProvisional (n : Fin 8) (s : Slot) (g : Guest) (c : Chip) : Chip :=
  let start := startCaravan c s.start
  let e := s.epoch.getD 0
  let c := sendBeacon 0x10 g.cfg n e start 0 c
  let c := kMirror 5 (u32B e ++ beaconBytes g.cfg n start 0) c
  updSlot n s.start (fun x => { x with beacon := some start })
    { c with inn.beacons := (satInc 65535 c.inn.beacons.1, c.inn.beacons.2) }

/-- The first slot of a spur that waits for its provisional decision and has come within PROV_LEAD of its start. -/
def provisionalSlot (c : Chip) (n : Fin 8) : Option (Slot × Guest) :=
  let due (s : Slot) : Option (Slot × Guest) :=
    if s.st == .planned && s.prov.isNone && decide (s.start ≤ c.inn.time + 4 * (cfg c).inn.provLead) then
      match guestAt c s.pos with
      | some g => if g.cfg.beacon then some (s, g) else none
      | none => none
    else none
  (spurInn c n).plan.findSome? due

/-- The provisional decision (R619, R637). -/
def provisionalDecision (nvm : Nvm) (n : Fin 8) (c : Chip) : Chip :=
  if !(c.inn.on && canFitted c) then c
  else match provisionalSlot c n with
    | none => c
    | some (s, g) =>
      let r := decide13 nvm c n g
      let c := updSlot n s.start (fun x => { x with prov := some r }) c
      match r with
      | .granted => sendProvisional n s g c
      | _ => c

/-- SLOT_PROVISIONAL_DECISION (R619). -/
def execSlotProvisionalDecision (t : Time) (n : Fin 8) (s : State) : Outcome :=
  run t (fun nvm c => provisionalDecision nvm n c) s

/-- The modes in which inn time runs: after step 8 of CONFIGURE (R594), LIMP apart (R646). -/
def innRuns (c : Chip) : Bool :=
  match c.seq.mode with
  | .parked | .coupled | .depot => true
  | _ => false

/-- A slot tick (R594): inn time advances and the plan runs ahead (R618). -/
def slotTick (nvm : Nvm) (c : Chip) : Chip :=
  let c := sendHeartbeat c
  if !innRuns c then c
  else
    let c := { c with inn.time := c.inn.time + 1 }
    if c.inn.on then prearmAll nvm c else c

def execSlotTick (t : Time) (s : State) : Outcome := run t (fun nvm c => slotTick nvm c) s

/-- The CAN domain starts in good time for a beacon (R620). -/
def canForSlot (n : Fin 8) (c : Chip) : Chip :=
  let near (s : Slot) : Bool :=
    s.st == .planned && decide (s.start ≤ c.inn.time + 4 * (cfg c).inn.provLead + 40)
      && (guestAt c s.pos).elim false (·.cfg.beacon)
  if c.inn.on && (spurInn c n).plan.any near then canStartOwn c else c

def execCanStartForSlot (t : Time) (n : Fin 8) (s : State) : Outcome := run t (fun _ c => canForSlot n c) s

/-- The final decision at the planned start, with the command of the spur that follows from it (R613, R621). -/
def finalAtStart (nvm : Nvm) (n : Fin 8) (c : Chip) : Chip :=
  if (runningSlot c n).isSome then c else takeGroup n (finalDecision nvm n false c)

def execSlotFinalDecision (t : Time) (n : Fin 8) (s : State) : Outcome := run t (fun nvm c => finalAtStart nvm n c) s

/-- A slot on spur n ends by command: its end read is requested (R606), and unless a failure refunded it, the retries of the
spur and of those merged with it count anew (R402). -/
def endSlot (n : Fin 8) (s : Slot) (c : Chip) : Chip :=
  let c := updSpurInn n (fun x => { x with
    plan := x.plan.filter (·.start != s.start), ended := x.ended ++ [s], lastPos := some s.pos }) c
  let c := { c with aux.edges := c.aux.edges ++ [{ spur := n, kind := .stop }] }
  let c := updSpur n (fun x => { x with granted := false }) c
  if s.refund then c else (tieGroup c n).foldl (fun c m => updSpur m (fun x => { x with retries := 0 }) c) c

/-- The planned end of the running slot (R613, R614): the spur goes off unless the slot that begins here is granted. -/
def plannedEnd (nvm : Nvm) (n : Fin 8) (c : Chip) : Chip :=
  match runningSlot c n with
  | none => c
  | some s =>
    if c.inn.time < s.stop then c
    else takeGroup n (finalDecision nvm n true (endSlot n s c))

def execSlotPlannedEnd (t : Time) (n : Fin 8) (s : State) : Outcome := run t (fun nvm c => plannedEnd nvm n c) s

/-- A slot that has not started by its latest start is dropped (R615). -/
def dropLate (nvm : Nvm) (g : Nat) (c : Chip) : Chip :=
  match guestByIndex c g with
  | none => c
  | some gu =>
    let n := leadSpur c (guestSpur gu.cfg)
    match (spurInn c n).plan.find? fun s => s.pos == gu.pos && s.st == .planned && decide (s.latest < c.inn.time) with
    | none => c
    | some s =>
      let c := withhold nvm n s gu .late (setFault F.innLate c)
      { c with inn.late := satInc (2 ^ 32 - 1) c.inn.late }

def execSlotLate (t : Time) (g : Nat) (s : State) : Outcome := run t (fun nvm c => dropLate nvm g c) s

/-- A fill ends, and the port is free for what waited behind it (R631, R660); with the NVM domain stopped none ends. -/
def fillEnds (nvm : Nvm) (c : Chip) : Chip := if nvmRuns c then portFree nvm (fillDone nvm c) else c

def execCellarFillComplete (t : Time) (s : State) : Outcome := run t (fun nvm c => fillEnds nvm c) s

/-- The ledger difference of one spur, mJ: its energy against the metered slots and the house tab (R610). -/
def ledgerGap (c : Chip) (n : Fin 8) : Rat :=
  let s := spur c n
  absRat (s.energy - (((spurInn c n).metered : Nat) : Rat) - s.idle - s.slotE)

/-- The ledger check (R610). -/
def ledgerCheck (c : Chip) : Chip :=
  if c.inn.on && decide (c.inn.ledgerAt + minutes 15 ≤ c.now) then
    let bad := (List.finRange 8).any fun n => decide ((((spurInn c n).ends + 1 : Nat) : Rat) < ledgerGap c n)
    let worst := (List.finRange 8).foldl (fun m n => ratMax m (ledgerGap c n)) 0
    let c := setFaultIf bad F.innLedger c
    { c with inn := { c.inn with
        ledgerAt := c.now, ledger := (satR 16 worst, if bad then satInc 65535 c.inn.ledger.2 else c.inn.ledger.2) } }
  else c

def execLedgerCheck (t : Time) (s : State) : Outcome := run t (fun _ c => ledgerCheck c) s

/-- The hold of R644 ends at its inn second, and the spur is released under R405. A slot that the cut stopped stays off. -/
def cutRelease (n : Fin 8) (c : Chip) : Chip :=
  match (spurInn c n).hold with
  | none => c
  | some h =>
    if c.inn.time < 4000 * h then c
    else
      let c := updSpurInn n (fun x => { x with hold := none }) c
      let spent := (runningSlot c n).elim false (·.refund)
      let c := if spent then updSpur n (fun s => { s with granted := false }) c else c
      (tieGroup c n).foldl (fun c m =>
        takeCommand m (updSpur m (fun s => if s.st = .cut then { s with st := .off, retries := 0 } else s) c)) c

def execSpurCutRelease (t : Time) (n : Fin 8) (s : State) : Outcome := run t (fun _ c => cutRelease n c) s

end Sys2Proof.Machine
end

