-- ==== Sys2Proof/Machine/Telemetry.lean ====
section
/-! DEFINITION. The telemetry objects (R5, R701): the 32-bit word that each index reads as, group by group in the order of
their tables. -/

namespace Sys2Proof.Machine

/-! ### Fields -/

/-- A field at bit `lo` of `n` bits, saturating. -/
def fld (lo n v : Nat) : Nat := sat n v * 2 ^ lo

/-- A field of a rational, rounded to the nearest. -/
def fldR (lo n : Nat) (x : Rat) : Nat := satR n x * 2 ^ lo

/-- A signed field. -/
def fldI (lo n : Nat) (v : Int) : Nat := satI n v * 2 ^ lo

/-- A signed field of a rational. -/
def fldRI (lo n : Nat) (x : Rat) : Nat := satRI n x * 2 ^ lo

/-- A 48-bit or 64-bit object: its low word, then its high word. -/
def wide (v : Nat) : List Nat := [v % 2 ^ 32, v / 2 ^ 32 % 2 ^ 32]

/-- A byte string as `n` words, byte 0 in the least significant byte of the first. -/
def wordsOf (n : Nat) (bs : List Byte) : List Nat := (List.range n).map fun i => u32At bs (4 * i)

/-- The status field of a sample (R197). -/
def statusCode : Status → Nat
  | .valid => 1 | .settle => 2 | .overRange => 4 | .opn => 8 | .short => 16

/-- A cause and a sample time in ms, as the LAST objects hold them. -/
def lastWord (x : Nat × Nat) : Nat := fld 0 8 x.1 + x.2 % 2 ^ 24 * 256

/-- Minutes since a time, saturating at `n` bits; saturated when there is none (log entry 28). -/
def minutesSince (n : Nat) (c : Chip) (t : Option Time) : Nat := t.elim (2 ^ n - 1) fun t => sat n (since c t / minutes 1)

/-- Entry `i` of a list of counters. -/
def cnt (xs : List Nat) (i : Nat) : Nat := xs.getD i 0

/-- Four counters of 8 bits. -/
def fourBytes (xs : List Nat) : Nat := fld 0 8 (cnt xs 0) + fld 8 8 (cnt xs 1) + fld 16 8 (cnt xs 2) + fld 24 8 (cnt xs 3)

/-- Counters of 16, 8 and 8 bits. -/
def threeCounts (xs : List Nat) : Nat := fld 0 16 (cnt xs 0) + fld 16 8 (cnt xs 1) + fld 24 8 (cnt xs 2)

/-! ### Identity, modes and links (Tables 4.7, 14.11) -/

/-- The Ruell address comes from UID[15:0]. -/
def addrFromUid (c : Chip) : Bool := inLimp c || c.img.loaded.isNone || c.img.defaulted.getLsbD 0

/-- CAN state: 0 error-active, 1 error-passive, 2 bus-off. -/
def canState (c : Chip) : Nat := if c.can.off then 2 else if canPassive c.can then 1 else 0

/-- 0x000 … 0x007 (DEDUCED, log entry 12). -/
def partWords (c : Chip) : List Nat :=
  [0x01421024] ++ wordsOf 4 Config.uid ++
  [fld 0 16 (ownAddr c) + fld 16 7 (smbAddr c) + bitAt 24 (addrFromUid c),
   fld 0 2 (cfg c).links.smbSpeed + fld 2 3 (cfg c).links.nomRate + fld 5 3 (cfg c).links.dataRate + bitAt 8 (fitted c 5)
     + bitAt 9 (fitted c 6) + bitAt 10 c.can.on + bitAt 11 (stbPin c == .high) + fld 12 2 (canState c),
   if inLimp c then 0 else (cfg c).sequence]

def resetCode : ResetCause → Nat
  | .powerOn => 1 | .rstPin => 2 | .watchdog => 3 | .coreBrownout => 4 | .ramParity => 5 | .command => 6 | .shipWake => 7

def shutCode : ShutCause → Nat
  | .none => 0 | .shipN => 1 | .cmdShip => 2 | .empty => 3 | .limpFloor => 4 | .powerLoss => 5

def outcomeCode : ShutOutcome → Nat
  | .none => 0 | .completed => 1 | .aborted => 2 | .wokenAtOnce => 3

def limpCode : Option LimpCause → Nat
  | none => 0 | some .noImage => 1 | some .otp => 2 | some .selfTest => 3 | some .repeatedReset => 4

/-- 0x010 … 0x016. -/
def modeWords (c : Chip) : List Nat :=
  [modeCode c.seq.mode + fld 8 4 c.seq.step + bitAt 16 (armedStands c) + bitAt 17 (shutting c) + bitAt 18 c.seq.committed,
   resetCode c.ret.cause + fld 8 8 (c.ret.critical.filter fun t => decide (c.now < t + minutes 10)).length,
   c.seq.configTime,
   shutCode c.ret.shutCause + outcomeCode c.ret.shutOutcome * 256 + fld 16 16 c.ret.aborts,
   limpCode c.seq.limp + bitAt 8 (c.seq.limpSet24 == some true),
   c.seq.notes.toNat, c.seq.selfTest.toNat]

/-- 0x050 … 0x059. -/
def linkWords (c : Chip) : List Nat :=
  let used := (List.range 8).map fun i => bitAt i (c.host.sess.getD i none).isSome
  [threeCounts c.smb.counts, fld 0 16 c.smb.zero.1 + fld 16 16 c.smb.zero.2,
   fld 0 8 c.can.tec + fld 8 8 c.can.rxec + fld 16 8 c.can.busOffs + fld 24 8 c.can.passives,
   threeCounts c.can.rx, fld 0 16 c.can.multi.1 + fld 16 16 c.can.multi.2, fld 0 16 c.can.tx.1 + fld 16 16 c.can.tx.2,
   threeCounts c.host.auth, used.foldl (· + ·) 0, c.alert.causes.toNat, fld 0 16 c.alert.pulses + fld 16 16 c.alert.wakes]

/-- SESSION of a handle. -/
def sessionWord (c : Chip) : Option Sess → Nat
  | none => 0
  | some x =>
    let role := if x.half then 4 else match x.role with | .owner => 1 | .depot => 2 | .guest => 3
    role + bitAt 3 (x.link == .can) + fld 4 10 x.index + fld 16 16 (since c x.lastAt / sec 1)

/-- PENDING; handle 8 reads 0 in its three bits (log entry 29). -/
def pendingWord (c : Chip) : Nat :=
  match c.host.pend with
  | none => 0
  | some p => p.op + bitAt 8 p.outcome.isSome + p.handle % 8 * 512 + fld 16 16 (since c p.at_ / ms 1)

/-- 0x060 … 0x070. -/
def sessionWords (c : Chip) : List Nat :=
  (List.range 8).map (fun i => sessionWord c (c.host.sess.getD i none))
    ++ (List.range 8).map (fun i => (c.host.sess.getD i none).elim 0 (·.counter)) ++ [pendingWord c]

/-! ### Measurement and clocks (Table 5.9) -/

/-- The crypto engine has work: the signature checks of CONFIGURE step 1 and its known-answer tests of step 2 (Table 4.2), the
check of CMD_IMAGE_CHECK, one of pack identity, or the signing of a record. -/
def cryptBusy (c : Chip) : Bool :=
  (c.seq.mode == .configure && (c.seq.step == 1 || c.seq.step == 2)) || checkPending c || c.tag.job.isSome
    || c.tag.write.elim false fun w => w.sig.isNone && w.step != 0

/-- CORE has work in PARKED: a burst of R451, an on-window, a conversion of the auxiliary ADC (R195), or a write or
fill that the sequencer carries out. -/
def coreBusy (c : Chip) : Bool :=
  c.gauge.gov.burst.isSome || c.gauge.gov.win.isSome || (auxNow c).isSome || nvmBusy c || cryptBusy c

/-- The domains that run, in the order of Table 1.4 (R28) (DEDUCED, log entry 11): MOD, CORE, LPT, GATE, CAN, HOST, NVM,
LINK, CRYPT. -/
def domainsOn (c : Chip) : List Bool :=
  let parked := c.seq.mode == .parked
  let on := running c
  [on && c.meas.iP.running, on && (!parked || coreBusy c), c.seq.mode != .unpowered,
   on && gateRuns c && (match pumpPin c with
     | .off => false
     | .on => true
     | .bursts => Config.gateBurst c.now),
   if parked then c.can.on else crystalRuns c && c.clk.xtalOk, on && fitted c 6,
   on && nvmRuns c && (c.seq.mode == .configure || nvmBusy c), on && inPairStrap c && !inLimp c,
   on && cryptRuns c && cryptBusy c]

/-- 0x020 … 0x02F. In PARKED, where CORE keeps its last trim while the crystal stands, CLOCKS[18] stays as it is
(DESIGN CHOICE, log entry 136). -/
def measureWords (c : Chip) : List Nat :=
  let m := c.meas
  let k := c.cal
  [((domainsOn c).zipIdx.map fun p => bitAt p.2 p.1).foldl (· + ·) 0 + bitAt 16 (crystalHz c == 20000000)
     + bitAt 17 (c.clk.lptDisc && crystalRuns c) + bitAt 18 c.clk.coreTrimmed,
   satI 32 c.clk.lptCorr, satI 32 m.modError,
   satRI 32 (m.iA.offset * 1000), satRI 32 (m.iB.offset * 1000), satRI 32 (m.iP.offset * 1000),
   satRI 32 (m.vBus.offset * 1000), satRI 32 (m.vPack.offset * 1000),
   minutesSince 16 c m.lastPair + fld 16 16 m.pairs,
   fld 0 3 k.ch + bitAt 4 k.span + bitAt 5 k.done + bitAt 6 k.refused + fld 8 8 k.auxCh + fld 16 16 k.count,
   satI 32 k.mean, sat 32 k.spread] ++ wide (sampleUs c % 2 ^ 48) ++
  [fld 0 16 c.aux.longest + fld 16 16 c.aux.ranges,
   fld 0 6 m.iA.resets + fld 6 6 m.iB.resets + fld 12 6 m.iP.resets + fld 18 6 m.vBus.resets + fld 24 6 m.vPack.resets]

/-! ### Temperature (Table 6.7) -/

/-- DIE or TSk, with the auxiliary channel that converts it. -/
def sensorWord (c : Chip) (s : Sensor) (ch : Nat) : Nat :=
  fldI 0 16 s.temp + statusCode (auxCh c ch).status * 2 ^ 16 + bitAt 24 (sensorFailed s) + bitAt 25 s.failedSlew
    + bitAt 26 s.failedX

def tsWord (c : Chip) (k : TsId) : Nat := if tsFitted c k then sensorWord c (tsSensor c k) (tsChan k) else 0

/-- TSk_RATIO. -/
def ratioWord (c : Chip) (i : Nat) : Nat :=
  fld 0 16 (auxCh c (16 + i)).code + bitAt 16 (auxCh c (16 + i)).inLow + statusCode (auxCh c (16 + i)).status * 2 ^ 17

/-- A temperature with its source. -/
def sourcedTemp (t : Int) (src : Nat) : Nat := fldI 0 16 t + fld 16 3 src

/-- 0x400 … 0x411. DIE_EFFECTIVE has no code for a source that is missing and reads 7 (DESIGN CHOICE, log entry 121); while the
governor is stopped, GOVERNOR keeps its last rate (DESIGN CHOICE, log entry 122). -/
def tempWords (c : Chip) : List Nat :=
  let t := c.tmp
  let p := c.prs
  let (lim, prox) := dieProximity c
  [sensorWord c t.die 19, tsWord c .ts1, tsWord c .ts2, tsWord c .ts3,
   fldI 0 16 t.partner + bitAt 16 (partnerFresh c) + bitAt 17 t.partnerIso,
   sourcedTemp t.packHi t.packSrc, sourcedTemp t.packLo t.packSrc, sourcedTemp t.pack t.packSrc,
   sourcedTemp t.board t.boardSrc, sourcedTemp t.dieEff t.dieSrc,
   fld 0 2 t.rate + fld 2 2 lim + bitAt 4 (sensorFailed t.die) + fldR 16 16 ((prox : Rat) / 10),
   bitAt 0 t.chgClosed + bitAt 1 t.cold + bitAt 2 t.hot + bitAt 3 t.boardHot + bitAt 4 t.dieHot + bitAt 5 t.dieCrit
     + bitAt 6 (sensorInhibit c),
   t.dF % 256 + t.dS % 256 * 256, ratioWord c 0, ratioWord c 1, ratioWord c 2,
   bitAt 0 p.byTherm + bitAt 1 p.removed + bitAt 2 p.verdict.isSome + fld 8 8 p.singles + fld 16 16 p.removals,
   p.xPart.toNat + p.xOut.toNat * 256 + bitAt 13 p.xTwo + minutesSince 16 c p.xAt * 2 ^ 16]

/-! ### Feeds and rail (Tables 7.6, 7.8) -/

/-- The codes of Table 7.1. -/
def feedCode : FeedSt → Nat
  | .absent => 0 | .watch => 1 | .delay => 2 | .held => 3 | .inrush => 4 | .on => 5 | .blocking => 6 | .retryWait => 7
  | .latched => 8 | .reversed => 9 | .faultHold => 10

/-- A precise word in units of `scale` with its status. -/
def wordWord (value : Rat) (st : Status) : Nat := fldRI 0 24 value + statusCode st * 2 ^ 24

/-- The auxiliary channel of FA_IN or FB_IN. -/
def feedAux (c : Chip) : FeedId → AuxCh
  | .a => auxCh c 20
  | .b => auxCh c 21

/-- 0x100 … 0x10E for feed A, 0x140 … 0x14E for feed B. -/
def feedWords (f : FeedId) (c : Chip) : List Nat :=
  let x := feed c f
  let k := feedCfg c f
  let i := (chan c (feedChan f)).prec
  [feedCode x.st + fld 4 4 x.retries + bitAt 8 x.uvOk + bitAt 9 x.ovOk + bitAt 10 x.inr.isSome + fld 16 8 x.offCause,
   fldI 0 24 (2 * signed 16 (feedAux c f).code) + statusCode (feedAux c f).status * 2 ^ 24,
   wordWord (maOf k.rsns i.value) i.status, satR 32 x.peak, satRI 32 x.power] ++ wide (satR 48 x.energy) ++
  [satRI 32 x.charge,
   fld 0 8 x.vT + fldRI 16 16 ((feedInMv c f : Rat) - busMv c),
   fldR 0 16 (x.heat * 65536) + fldR 16 16 (fuseUv c k.fuseSlow),
   fld 0 16 x.cEst + fld 16 16 x.eLast, fld 0 16 x.durLast + fld 16 16 x.limLast,
   fourBytes x.trips, threeCounts x.evs, lastWord x.lastFail]

/-- 0x180 … 0x184. -/
def railWords (c : Chip) : List Nat :=
  let v := c.meas.vBus.prec
  let a := feedCarrying c .a
  let b := feedCarrying c .b
  [wordWord v.value v.status, bitAt 0 a + bitAt 1 b + bitAt 2 (a && b), satI 32 (roundRat c.feedA.power + roundRat c.feedB.power),
   sat 32 c.rail.cEst, fld 0 16 c.rail.bleed + c.rail.bleedFlags.toNat * 2 ^ 16]

/-! ### Pack path and charging (Tables 8.7, 8.9) -/

/-- 0x200 … 0x20F. -/
def packWords (c : Chip) : List Nat :=
  let p := c.pack
  let v := c.meas.vPack.prec
  let i := c.meas.iP.prec
  [packCode p.st + fld 4 4 p.retries + bitAt 8 c.prs.present + bitAt 9 (authentic c) + bitAt 10 (authorised c)
     + bitAt 11 (reenableInhibited c) + bitAt 12 p.cpLow + fld 16 8 p.offCause,
   wordWord v.value v.status, wordWord (packMa c i) i.status, satR 32 p.peak, satRI 32 p.power]
  ++ wide (satR 48 p.eOut) ++ wide (satR 48 p.eIn) ++
  [fldR 0 16 p.vTp + fldRI 16 16 (packMv c - c.meas.iP.precHeld / 1000 - busMv c),
   fldR 0 16 (p.heat * 65536) + fldR 16 16 (fuseUv c (cfg c).pack.fuseSlow),
   fld 0 16 p.preLast + fldR 16 16 p.iPre0, fourBytes p.trips,
   fldR 0 12 (c.pair.drive.getD c.share.vD) + fldR 12 12 c.share.vB + bitAt 24 c.share.active
     + bitAt 25 (decide (500 ≤ p.vTp) && p.st != .charge)
     + bitAt 26 (shareDriven c),
   fldR 0 16 (c.share.w * 256), lastWord p.lastFail]

/-- A term of I_CMD sets it below I_MAX. -/
def reducedBy (c : Chip) (term : Rat) : Bool :=
  charging c && !c.chg.spanPoint && decide (term < ((cfg c).charger.iMax : Rat)) && decide (term = iCmd c)

/-- 0x280 … 0x287 (DEDUCED, log entry 14). -/
def chargeWords (c : Chip) : List Nat :=
  let g := c.chg
  let on := charging c
  [bitAt 0 (pinsOf c).chgEn + fld 4 4 (chargeReason c) + bitAt 8 (reducedBy c (iLow c)) + bitAt 9 (reducedBy c g.iFeed)
     + bitAt 10 (reducedBy c g.iCv) + bitAt 11 (trimAtLimit c),
   if on then satR 32 (iCmd c) else 0, satRI 32 (iMeas c),
   fld 0 12 (pinsOf c).chgSet + fldR 16 16 (trimNow c * 32768), satR 32 (cellsTimes c (cfg c).charger.vChg),
   satR 32 g.session, threeCounts g.counts, lastWord g.lastEnd]

/-! ### Spurs (Tables 9.5, 9.6) -/

/-- The codes of Table 9.1. -/
def spurCode : SpurSt → Nat
  | .absent => 0 | .off => 1 | .rampUp => 2 | .on => 3 | .rampDown => 4 | .retryWait => 5 | .cut => 6 | .faulted => 7
  | .blocked => 8 | .tiedOff => 9 | .faultHold => 10

/-- The block of one spur at 0x500 + 16 n (DEDUCED, log entry 104). -/
def spurWords (c : Chip) (n : Fin 8) : List Nat :=
  let s := spur c n
  let ch := auxCh c n.val
  let cv := auxCh c (8 + n.val)
  [spurCode s.st + fld 4 4 s.retries + bitAt 8 s.cmd + bitAt 9 s.limiting + bitAt 10 s.merged + bitAt 11 s.openLoad
     + fld 16 8 s.offCause,
   fldR 0 24 (spurMa ch.code * 1000) + statusCode ch.status * 2 ^ 24, fld 0 24 cv.code + statusCode cv.status * 2 ^ 24,
   fld 0 16 s.tR + fld 16 16 s.cEst] ++ wide (satR 48 s.energy) ++ wide (satR 48 s.idle) ++
  [fld 0 9 (s.cover.filter id).length + fld 16 16 s.findings, fourBytes s.counts,
   s.tied.toNat + bitAt 8 s.tieCfg + bitAt 9 s.tieRun + bitAt 10 s.tieUnsure + bitAt 11 s.merged, lastWord s.lastFail]

/-- 0x580 … 0x582. -/
def spurTotalWords (c : Chip) : List Nat :=
  [fldR 0 16 (spurSum c (List.finRange 8)), fldR 0 16 (spurSum c [0, 1, 2, 3]) + fldR 16 16 (spurSum c [4, 5, 6, 7]),
   fldR 0 16 (700 * (c.tmp.dS : Rat) / 256) + fldR 16 16 (spurAllowance c)]

/-! ### The gauge (Tables 10.7, 11.5, 11.6) -/

def govCode : GovSt → Nat
  | .full => 0 | .duty2 => 1 | .duty05 => 2

def profCode : ProfSrc → Nat
  | .image => 0 | .tag => 1 | .generic => 2 | .rom => 3

/-- Volts as µV in a signed field. -/
def microV (n : Nat) (v : Rat) : Nat := satRI n (v * 1000000)

/-- A fraction in 0.001 %. -/
def milliPct (x : Rat) : Nat := satR 17 (x * 100000)

/-- 0x300 … 0x311. -/
def gaugeWords (c : Chip) : List Nat :=
  let g := c.gauge
  [govCode g.gov.st + bitAt 2 g.gov.burst.isSome + bitAt 3 g.rest + bitAt 4 g.voltUsed + bitAt 5 g.eocPend + bitAt 6 g.eoc
     + bitAt 7 g.eod + profCode g.profSrc * 256 + fld 10 1 g.chem + bitAt 11 g.formed + fld 12 4 g.source
     + fld 16 8 g.eocN + fld 24 3 g.eodN + bitAt 27 g.cnt.gap,
   milliPct g.z, milliPct (sqrtRat g.p.zz), satRI 32 ((g.cnt.n : Rat) / 1048576), microV 32 g.uF, microV 32 g.uS,
   microV 32 (ocvOf c g.z), fldR 0 16 (sqrtRat g.r * 1000000) + fldR 16 5 g.alpha,
   microV 24 g.nu + bitAt 24 g.skipped + fld 25 7 g.outliers,
   fld 0 16 g.fT + fldR 16 16 (serOhm c g.z * 1000000), fld 0 16 (g.qualS / 60) + fldR 16 16 (g.tRest / 60),
   milliPct g.zA + bitAt 24 g.anchorUsed, sat 32 g.anchorTime, microV 32 g.vC, threeCounts g.counts,
   fld 0 16 g.gov.qual + fld 16 16 g.gov.bursts, fldR 0 16 g.gov.iSelf + fld 16 16 g.gov.duty,
   milliPct (g.z0 / 100000 : Rat) + fld 24 8 g.ageDays]

/-- 0x340 … 0x34F. -/
def reportWords (c : Chip) : List Nat :=
  let l := c.learn
  [fldR 0 14 (l.soc * 10000) + bitAt 16 l.spread + bitAt 17 l.held + bitAt 18 l.ceilFree, fldR 0 14 (l.target * 10000),
   milliPct l.zE, satR 32 l.fccR, satR 32 l.rm] ++ wide (satR 48 l.eRem) ++ wide (satR 48 l.eAvail) ++
  [sat 16 l.soh, sat 32 l.tte, sat 32 l.tteShed, sat 32 l.ttf, satR 32 l.pBase, satR 32 l.pPlan, sat 32 l.tteFlags]

/-- A held anchor, and its age in minutes. -/
def anchorWords2 (c : Chip) : Option HeldAnchor → List Nat
  | none => [0, 0]
  | some a => [milliPct a.z + bitAt 24 true + bitAt 25 a.full, sat 32 (since c a.at_ / minutes 1)]

/-- Hundredths of the next cycle (R520). -/
def cyclePart (c : Chip) : Nat := min 99 (natOfRat (qdiv (c.learn.dsg * 100) (c.learn.qFcc * 9 / 10)))

/-- 0x380 … 0x390. -/
def learnWords (c : Chip) : List Nat :=
  let l := c.learn
  [satR 32 l.qFcc, fldR 0 16 (qdiv (sqrtRat l.varF) l.qFcc * 10000) + fld 16 16 l.capUpdates,
   fld 0 16 l.cycles + cyclePart c * 65536, satR 32 l.dsg, fld 0 2 l.srcFcc + fld 2 2 l.srcCyc + l.srcBits.toNat * 16]
  ++ anchorWords2 c l.low ++ anchorWords2 c l.high ++
  [sat 32 l.lastCap, fld 0 8 l.capResult + fld 16 16 l.capSigma, l.impBits.toNat + fld 16 16 l.impUpdates,
   fld 0 2 l.impLast.1 + fld 4 4 l.impLast.2.1 + fld 16 16 l.impLast.2.2, tagWriteWord c, sat 32 c.tag.seq,
   sat 32 c.tag.wTime, sat 32 l.recordTime]

/-- 0x3A0 … 0x3EF: the value in use and whether it is learned. -/
def impWords (c : Chip) : List Nat :=
  (List.range 80).map fun i => fldR 0 16 (impPoint c (i / 5) (i % 5)) + bitAt 16 (c.learn.impBits.getLsbD (i / 5))

/-! ### Pack identity (Table 12.10) -/

def verdictCode : Verdict → Nat
  | .none => 0 | .authenticated => 1 | .notAuthenticated => 2 | .silent => 3

/-- 0x030 … 0x046. -/
def identityWords (c : Chip) : List Nat :=
  let t := c.tag
  let slot (k : Nat) : Nat := t.slotSt.getD k 0 % 4 * 2 ^ (8 * k) + (t.slotBits.getD k 0).toNat * 2 ^ (8 * k + 2)
  [verdictCode t.verdict + bitAt 2 t.answered + bitAt 3 t.adopted + fld 4 4 t.reason + fld 8 4 (u8At t.header 6)
     + fld 12 1 (u8At t.header 5) + bitAt 13 (c.gauge.profSrc == .tag) + bitAt 14 t.profSkip
     + fld 16 2 (t.record.elim 0 (·.1)) + bitAt 18 t.record.isSome + bitAt 19 t.trusted]
  ++ wordsOf 4 (packUid c) ++ [u32At t.header 24, slot 0 + slot 1 + slot 2 + slot 3]
  ++ (List.range 4).map (fun k => sat 32 (t.slotSeq.getD k 0))
  ++ [threeCounts t.bus, fld 0 16 t.times.1 + fld 16 16 t.times.2]
  ++ wordsOf 9 (Crypto.compress (Crypto.publicKey Config.recordScalar))
  ++ [bitAt 0 ((cfg c).cert != []) + bitAt 1 t.certOk]

/-! ### The innkeeper (Table 13.8) -/

/-- NEXT_SLOT. -/
def nextSlotWord (c : Chip) : Nat :=
  let all := (List.finRange 8).flatMap fun n => (plannedSlots (spurInn c n)).map fun s => (n, s)
  match all with
  | [] => 0
  | x :: xs =>
    let (n, s) := xs.foldl (fun b y => if y.2.start < b.2.start then y else b) x
    fld 0 10 ((guestAt c s.pos).elim 0 (·.cfg.index)) + n.val * 1024 + fld 16 16 (s.start - c.inn.time)

/-- 0x600 … 0x60F. -/
def innWords (nvm : Nvm) (c : Chip) : List Nat :=
  let own := ownGuests c
  let i := c.inn
  [bitAt 0 (i.on && innRuns c) + bitAt 1 own.isEmpty + bitAt 2 (!aboveFence c) + servedMask c * 8 + bitAt 11 i.persist
     + bitAt 12 i.paging,
   fld 0 11 own.length + fld 16 11 (own.filter fun g => (recordOf nvm c g).revoked).length]
  ++ wide (satR 48 (innA c)) ++ wide (sat 48 i.fenced) ++
  [fld 0 7 i.rooms.length + fld 8 6 (own.filter (·.resident)).length + fld 16 7 i.mostPinned,
   fld 0 16 i.paged.1 + fld 16 16 i.paged.2, fld 0 16 i.beacons.1 + fld 16 16 i.beacons.2, i.epoch % 2 ^ 32,
   i.time % 2 ^ 32, fld 0 16 i.ledger.1 + fld 16 16 i.ledger.2]
  ++ (List.range 4).map fun k => fourBytes ((List.range 4).map fun j => if k = 0 ∧ j = 0 then 0 else cnt i.withheld (4 * k + j))

/-- The block of one spur at 0x610 + 8 s. -/
def spurInnWords (c : Chip) (n : Fin 8) : List Nat :=
  let x := spurInn c n
  wide (sat 48 x.charged) ++ wide (sat 48 x.metered) ++ wide (satR 48 (spur c n).idle) ++
  [satI 32 ((x.chargedMetered : Int) - (x.charged : Int)),
   fld 0 8 (spurGuests c n).length + bitAt 8 x.hold.isSome + bitAt 9 x.derated
     + fld 16 16 (x.hold.elim 0 fun h => (4000 * h - c.inn.time + 3999) / 4000)]

/-- The block of one class at 0x650 + 4 c; zero at and above C.INN.CLASSES. -/
def classWords (c : Chip) (k : Nat) : List Nat :=
  if (cfg c).inn.classes ≤ k then [0, 0, 0, 0]
  else
    [satR 32 (c.inn.pClass.getD k 0)] ++ wide (sat 48 (c.inn.eClass.getD k 0)) ++
    [fld 0 11 ((ownGuests c).filter fun g => g.cfg.cls == k).length + bitAt 16 (classServed c k)]

/-- 0x670 … 0x673. -/
def innLastWords (c : Chip) : List Nat :=
  let (g, r, t) := c.inn.last
  [fld 0 10 g + fld 10 4 r + t % 65536 * 65536, fld 0 11 c.inn.restored.1 + fld 16 11 c.inn.restored.2,
   sat 32 c.inn.late, nextSlotWord c]

/-! ### The sticky record (Table 16.5) -/

/-- FIRST or LAST. -/
def firstWord (x : Option (Nat × Nat)) : Nat := x.elim 0 fun p => fld 0 8 p.1 + bitAt 8 true

/-- Word k of the sticky record. -/
def stickyWord (m : BitVec 160) (k : Nat) : Nat := m.toNat / 2 ^ (32 * k) % 2 ^ 32

/-- 0x700 … 0x70C. -/
def stickyWords (c : Chip) : List Nat :=
  let j := c.jrn
  (List.range 5).map (stickyWord c.ret.sticky) ++
  [firstWord c.ret.first, c.ret.first.elim 0 (·.2), firstWord c.ret.last, c.ret.last.elim 0 (·.2),
   fld 0 16 j.clears + fld 16 2 j.clearRole + fld 24 8 j.clearBits, j.head.elim 0 (·.2),
   fld 0 11 (j.head.elim 0 (·.1)) + bitAt 16 j.head.isNone + bitAt 17 j.torn + bitAt 18 j.restored + fld 24 8 j.failed,
   fld 0 16 j.commits + fld 16 16 j.longest]

/-- 0x780 … 0x7A7: four counts of T.EVENT (R806). -/
def eventWord (c : Chip) (k : Nat) : Nat := fourBytes (c.jrn.events.drop (4 * k))

/-! ### The pair (Table 15.7) -/

def pairCode : PairSt → Nat
  | .single => 0 | .joined => 1 | .lost => 2 | .singles => 3

/-- 0x800 … 0x813; the whole group reads zero while LK_ROLE is open (R769). -/
def pairWords (c : Chip) : List Nat :=
  let p := c.pair
  let t := p.them
  if !inPairStrap c then []
  else
    [pairCode p.st + bitAt 2 (ownSide c) + bitAt 3 p.standIn + bitAt 4 p.split + bitAt 5 p.leaving + bitAt 6 p.fresh
       + bitAt 7 p.restored + bitAt 8 p.probe.isSome + bitAt 9 p.timeSource + fld 12 2 p.verdict]
    ++ wordsOf 4 t.uid ++
    [fld 0 3 t.mode + fld 8 4 t.packSt + t.flags.toNat * 65536, p.hbAt.elim (2 ^ 32 - 1) fun h => sat 32 (since c h / us 1),
     bitAt 0 p.lock + fld 8 8 p.losses + fld 16 8 p.unacked.length + fld 24 8 p.occ.2.2,
     fld 0 16 p.errs.1 + fld 16 16 p.errs.2, fld 0 16 p.commit.1 + fld 16 16 p.commit.2, t.epoch.getD 0 % 2 ^ 32,
     fld 0 8 (t.epochs.filter fun e => !e.2.2).length + fld 8 16 p.dropped, fld 0 12 p.delta.toNat + fld 16 8 p.probes,
     fld 0 14 t.soc + t.sumAt.elim (65535 * 65536) fun s => fld 16 16 (since c s / sec 1)]
    ++ wide (sat 48 t.eAvail) ++
    [sat 32 t.tte, sat 32 t.qFcc, fldI 0 16 t.temps.1 + fldI 16 16 t.temps.2,
     fld 0 11 p.copies.length + fld 16 11 p.restoredN]

/-! ### Caravan time (Table 14.12) -/

/-- Caravan time runs on LPT: the CAN domain's crystal does not run (R29, R223). -/
def onLpt (c : Chip) : Bool := !(crystalRuns c && c.clk.xtalOk)

/-- Two sources are heard, a gauge with the duty of the source counting itself (R722) (DEDUCED, log entry 15). -/
def otherSource (c : Chip) : Bool := decide (2 ≤ (heardNow c).length + (if timeDuty c then 1 else 0))

/-- 0x900 … 0x907. -/
def caravanWords (c : Chip) : List Nat :=
  wide (caravanUs c) ++
  [writeTime c,
   bitAt 0 (actsAsSource c) + bitAt 1 c.caravan.synced + bitAt 2 c.ret.cvSet + bitAt 3 (otherSource c)
     + bitAt 4 (onLpt c),
   if actsAsSource c then ownAddr c else c.caravan.follow.getD 0, satRI 32 c.caravan.offset, satI 32 c.ret.cvRate,
   threeCounts c.caravan.counts]

/-! ### T.CONFIG_ECHO (Table 3.21) -/

def otpCode : OtpSlot → Nat
  | .blank => 0 | .fixed _ => 1 | .damaged => 2

def resultWord (r : CopyResult) : Nat := r.reason.code + r.tag % 65536 * 65536

/-- 0xA00 … 0xA27. -/
def echoWords (c : Chip) : List Nat :=
  let g := c.inn.guests
  let m := c.img
  let first := (g.filter (·.reject.isSome)).foldl (fun (b : Option Guest) x =>
    match b with
    | some y => if x.cfg.index < y.cfg.index then some x else b
    | none => some x) none
  let on := if inLimp c then none else m.loaded
  [(match on with | none => 0 | some .a => 1 | some .b => 2) + bitAt 2 m.keyFixed + bitAt 3 (on.isSome && m.cfg.fleet),
   if on.isSome then m.cfg.sequence else 0, resultWord m.resultA, resultWord m.resultB, m.resultA.offset, m.resultB.offset,
   fld 0 11 (g.filter (·.reject.isNone)).length + fld 16 11 (g.filter (·.reject.isSome)).length,
   first.elim 0 fun x => fld 0 10 x.cfg.index + x.reject.elim 0 (·.code) * 65536,
   otpCode c.otp.slot1 + otpCode c.otp.slot2 * 4 + bitAt 4 c.otp.pending.isSome, m.echo.toNat + bitAt 4 m.backup,
   m.defaulted.toNat, sat 32 m.floor, 0, 0, 0, 0]
  ++ wordsOf 8 m.digest ++ wordsOf 8 m.pairDigest ++ wordsOf 8 m.partnerDigest

/-- 0xA40 … 0xA5F. -/
def rejectWord (c : Chip) (k : Nat) : Nat :=
  ((List.range 32).map fun b =>
    bitAt b (c.inn.guests.any fun g => g.cfg.index == 32 * k + b && g.reject.isSome)).foldl (· + ·) 0

/-! ### The index space (Table 14.9) -/

/-- The word at offset `i` of a group's table, 0 past its end. -/
def at0 (ws : List Nat) (i : Nat) : Nat := ws.getD i 0

/-- The telemetry object at an index; indices that no table assigns read as zero (R701). -/
def object (nvm : Nvm) (c : Chip) (i : Nat) : Nat :=
  if i < 0x010 then at0 (partWords c) i
  else if i < 0x020 then at0 (modeWords c) (i - 0x010)
  else if i < 0x030 then at0 (measureWords c) (i - 0x020)
  else if i < 0x050 then at0 (identityWords c) (i - 0x030)
  else if i < 0x060 then at0 (linkWords c) (i - 0x050)
  else if i < 0x100 then at0 (sessionWords c) (i - 0x060)
  else if i < 0x140 then at0 (feedWords .a c) (i - 0x100)
  else if i < 0x180 then at0 (feedWords .b c) (i - 0x140)
  else if i < 0x200 then at0 (railWords c) (i - 0x180)
  else if i < 0x280 then at0 (packWords c) (i - 0x200)
  else if i < 0x300 then at0 (chargeWords c) (i - 0x280)
  else if i < 0x340 then at0 (gaugeWords c) (i - 0x300)
  else if i < 0x380 then at0 (reportWords c) (i - 0x340)
  else if i < 0x3A0 then at0 (learnWords c) (i - 0x380)
  else if i < 0x400 then at0 (impWords c) (i - 0x3A0)
  else if i < 0x500 then at0 (tempWords c) (i - 0x400)
  else if i < 0x580 then at0 (spurWords c ⟨(i - 0x500) / 16 % 8, Nat.mod_lt _ (by decide)⟩) (i % 16)
  else if i < 0x600 then at0 (spurTotalWords c) (i - 0x580)
  else if i < 0x610 then at0 (innWords nvm c) (i - 0x600)
  else if i < 0x650 then at0 (spurInnWords c ⟨(i - 0x610) / 8 % 8, Nat.mod_lt _ (by decide)⟩) (i % 8)
  else if i < 0x670 then at0 (classWords c ((i - 0x650) / 4)) (i % 4)
  else if i < 0x700 then at0 (innLastWords c) (i - 0x670)
  else if i < 0x780 then at0 (stickyWords c) (i - 0x700)
  else if i < 0x7A8 then eventWord c (i - 0x780)
  else if i < 0x800 then 0
  else if i < 0x900 then at0 (pairWords c) (i - 0x800)
  else if i < 0xA00 then at0 (caravanWords c) (i - 0x900)
  else if i < 0xA40 then at0 (echoWords c) (i - 0xA00)
  else if i < 0xA60 then rejectWord c (i - 0xA40)
  else if 0xF00 ≤ i ∧ i < 0xF03 then (Config.vendorWord (i - 0xF00)).toNat
  else 0

/-- The bytes that CMD_READ returns: `n` objects from `i` on, each least significant byte first (R5, R693). -/
def objectBytes (nvm : Nvm) (c : Chip) (i n : Nat) : List Byte :=
  (List.range n).flatMap fun k => u32B (object nvm c (i + k))

end Sys2Proof.Machine
end

