-- ==== Sys2Proof/Machine/Commands.lean ====
section
/-! DEFINITION. Requests (chapter 14): their delivery, the checks of Table 14.7 in their order, responses and their release,
sessions, and the commands of Table 14.6. -/

namespace Sys2Proof.Machine

/-! ### Requests and responses (Tables 14.1, 14.2) -/

/-- A request message with the link and the sender that brought it. -/
structure Request where
  link : LinkId
  addr : Nat
  prio : Nat
  msg  : List Byte
  deriving DecidableEq, Repr

def Request.op (r : Request) : Nat := u8At r.msg 2
def Request.sid (r : Request) : Nat := u8At r.msg 3
def Request.ctr (r : Request) : Nat := u32At r.msg 4

/-- The message without its MAC, which a request in a session carries. -/
def Request.body (r : Request) : List Byte := if r.sid = 0 then r.msg else r.msg.take (r.msg.length - 8)

def Request.mac (r : Request) : List Byte := r.msg.drop (r.msg.length - 8)

def Request.params (r : Request) : List Byte := r.body.drop 8

/-- A request arrives whole: a SEND, which drops the response to the SEND before it, or the last frame of a message. -/
def receive (d : Delivery) (c : Chip) : Option Request × Chip :=
  match d with
  | .smbus msg =>
    if smbAnswers c && !msg.isEmpty then
      let c := smbTransfer c
      (some { link := .smbus, addr := 0, prio := 0, msg := msg }, { c with smb := { c.smb with resp := none, acked := some true } })
    else (none, c)
  | .can f =>
    match requestFrame f c with
    | (.message m, d) => (some { link := .can, addr := f.device, prio := f.prio, msg := m }, d)
    | _ => (none, c)

/-- The first 8 bytes of the AES-CMAC of R683. -/
def sessionMac (ks : List Byte) (dir : Nat) (link : LinkId) (sender : Nat) (bytes : List Byte) : List Byte :=
  (Crypto.aesCmac ks (u8B dir ++ u8B (match link with | .smbus => 1 | .can => 2) ++ u16B sender ++ bytes)).take 8

/-- The handle of a request, when it is in use and bound to the request's link and address (R686). -/
def sessOf (r : Request) (c : Chip) : Option Sess :=
  if r.sid = 0 then none
  else (c.host.sess.getD (r.sid - 1) none).filter fun x => x.link == r.link && (r.link == .smbus || x.addr == r.addr)

/-- Statuses whose response carries no MAC (R684): NO_SESSION, AUTH, LENGTH (DEDUCED, log entry 36). -/
def bareStatus (s : Nat) : Bool := s == 0x0A || s == 0x08 || s == 0x04

/-- The bytes of a response (Table 14.2). -/
def responseBytes (r : Request) (ks : Option (List Byte)) (status : Nat) (data : List Byte) (c : Chip) : List Byte :=
  let dst := match r.link with | .smbus => 0 | .can => r.addr
  let own := match r.link with | .smbus => 0 | .can => ownAddr c
  let b := u16B dst ++ slice r.msg 2 6 ++ u8B status ++ [0, 0, 0] ++ data
  match ks with
  | some k => if bareStatus status then b else b ++ sessionMac k 0x52 r.link own b
  | none => b

/-- Makes a response ready: in a session after its fixed time, otherwise at once (R672, R690). -/
def reply (r : Request) (ks : Option (List Byte)) (status : Nat) (data : List Byte) (c : Chip) : Chip :=
  let b := responseBytes r ks status data c
  match r.link with
  | .smbus => { c with smb.resp := some { ready := if r.sid = 0 then c.now else c.now + us 1000, bytes := b, prio := 0 } }
  | .can =>
    if r.sid = 0 then canMessage r.prio 0x02 b c
    else { c with can.resp := c.can.resp ++ [{ ready := c.now + us 800, bytes := b, prio := r.prio }] }

/-- SESSION_RESPONSE_RELEASE. -/
def releaseResponses (link : LinkId) (c : Chip) : Chip :=
  if !(running c && c.host.answers) then c
  else match link with
    | .smbus =>
      if c.smb.stretch.isSome && c.smb.resp.elim false (fun r => decide (r.ready ≤ c.now)) then answerFetch c else c
    | .can =>
      let (now, later) := c.can.resp.partition fun r => decide (r.ready ≤ c.now)
      now.foldl (fun c r => canMessage r.prio 0x02 r.bytes c) { c with can.resp := later }

/-! ### Sessions (R683 … R689, R723) -/

/-- The session on handle `h` ends; a DEPOT session that ends in DEPOT brings COUPLED back (Table 4.1). -/
def endSession (byGauge : Bool) (h : Nat) (c : Chip) : Chip :=
  let depot := (c.host.sess.getD (h - 1) none).elim false fun x => x.role == .depot && !x.half
  let c := dropSession byGauge h c
  if depot && c.seq.mode == .depot && anyFeed c then enterCoupled c else c

/-- Changes the session on handle `h`. -/
def updSess (h : Nat) (f : Sess → Sess) (c : Chip) : Chip :=
  { c with host.sess := updAt c.host.sess (h - 1) fun o => o.map f }

/-- Who sends a request: nobody known, or the session on a handle. -/
inductive Who
  | pub
  | sess (h : Nat) (x : Sess)
  deriving DecidableEq, Repr

/-- A confirm has failed: 16 of them within 10 s, on whatever handles, bring the lockout (R689). -/
def confirmFails (c : Chip) : Chip :=
  let times := pushTime (sec 10) c.now c.host.failed
  if 16 ≤ times.length then
    { c with host := { c.host with failed := [], lockUntil := some (c.now + sec 10), auth := bump 255 2 c.host.auth } }
  else { c with host.failed := times }

/-- What an answer does to the counts of R688 and R689: any but AUTH ends a run of AUTH answers in its session, and a confirm that is
not answered OK has failed, one that CONFIGURE answers with BUSY apart (DEDUCED, log entry 97). -/
def noteAnswer (r : Request) (status : Nat) (c : Chip) : Chip :=
  let c := if status ≠ 0x08 ∧ (sessOf r c).isSome then updSess r.sid (fun x => { x with fails := 0 }) c else c
  if r.op = 0x09 ∧ status ≠ 0x00 ∧ status ≠ 0x02 then confirmFails c else c

/-- A request whose MAC does not verify (order 4): a half-open handle ends at once, a session at the eighth (R688). -/
def macFails (r : Request) (x : Sess) (c : Chip) : Chip :=
  let h := r.sid
  let c := { c with host.auth := bump 65535 0 c.host.auth }
  if x.half || decide (8 ≤ x.fails + 1) then endSession true h c
  else updSess h (fun x => { x with fails := x.fails + 1 }) c

/-- The opcodes of Table 14.6. -/
def knownOps : List Nat :=
  [0x01, 0x02, 0x03, 0x04, 0x08, 0x09, 0x0A, 0x10, 0x11, 0x12, 0x13, 0x14, 0x20, 0x21, 0x22, 0x23, 0x24, 0x25, 0x28, 0x29,
   0x2A]

/-- The commands whose answer is PENDING. -/
def pendingOp (op : Nat) : Bool := [0x23, 0x24, 0x25, 0x2A].contains op

/-- A pending command is outstanding for this request: any but one whose ready outcome its own session now gives up (R692). -/
def pendBlocks (r : Request) (c : Chip) : Bool :=
  c.host.pend.elim false fun p => !(p.outcome.isSome && (sessOf r c).isSome && p.handle == r.sid)

/-- Order 1: BUSY. -/
def busy (r : Request) (c : Chip) : Bool :=
  c.seq.mode == .configure || (pendingOp r.op && pendBlocks r c)
    || (r.op == 0x08 && c.host.lockUntil.elim false fun t => decide (c.now < t))

/-- A session's request is accepted (R685): its counter advances, and another command gives up a ready outcome (R692). The 1 s of
a half-open handle runs on from its opening (R688). -/
def acceptRequest (r : Request) (c : Chip) : Chip :=
  let c := updSess r.sid (fun x => { x with counter := r.ctr, lastAt := if x.half then x.lastAt else c.now }) c
  if r.op ≠ 0x04 ∧ (c.host.pend.elim false fun p => p.outcome.isSome && p.handle == r.sid) then { c with host.pend := none }
  else c

/-- Orders 1 … 6 of Table 14.7: a status, or who sends an accepted request (DEDUCED, log entry 30). -/
def admitRequest (r : Request) (c : Chip) : Except Nat Who × Chip :=
  let known (w : Who) : Except Nat Who := if knownOps.contains r.op then .ok w else .error 0x03
  if busy r c then (.error 0x02, c)
  else if r.msg.length < 8 ∨ (r.sid ≠ 0 ∧ r.msg.length < 16) then (.error 0x04, c)
  else if r.sid = 0 then (known .pub, c)
  else match sessOf r c with
    | none => (.error 0x0A, c)
    | some x =>
      if x.half && r.op != 0x09 then (.error 0x0A, c)
      else if r.mac ≠ sessionMac x.ks 0x51 r.link r.addr r.body then (.error 0x08, macFails r x c)
      else if r.ctr ≤ x.counter then (.error 0x09, { c with host.auth := bump 255 1 c.host.auth })
      else (known (.sess r.sid x), acceptRequest r c)

/-! ### A command of Table 14.6 -/

/-- A check on the parameters of a request. -/
abbrev Check := Nvm → Chip → Who → List Byte → Bool

/-- What Tables 14.6 and 14.7 say of one command: who may send it, in which modes, the remaining checks in their order, and
what it does: its status, its data and the gauge after it; `after` acts once the response is formed
(DESIGN CHOICE, log entry 38). -/
structure Command where
  op       : Nat
  role     : Check
  mode     : Chip → Bool := fun _ => true
  noKey    : Check := fun _ _ _ _ => false
  len      : List Byte → Bool
  range    : Check := fun _ _ _ _ => false
  order    : Check := fun _ _ _ _ => false
  stale    : Check := fun _ _ _ _ => false
  refused  : Check := fun _ _ _ _ => false
  noResult : Check := fun _ _ _ _ => false
  act      : Nvm → Request → Who → Chip → Nat × List Byte × Chip
  after    : Request → Chip → Chip := fun _ c => c

/-- The first status of orders 7 … 15 that applies (R700). -/
def Command.fault (k : Command) (nvm : Nvm) (c : Chip) (w : Who) (p : List Byte) : Option Nat :=
  if !k.role nvm c w p then some 0x06
  else if !k.mode c then some 0x07
  else if k.noKey nvm c w p then some 0x11
  else if !k.len p then some 0x04
  else if k.range nvm c w p then some 0x05
  else if k.order nvm c w p then some 0x0D
  else if k.stale nvm c w p then some 0x0C
  else if k.refused nvm c w p then some 0x10
  else if k.noResult nvm c w p then some 0x12
  else none

/-- The counter of a session is used up: the session ends after its response (R685). -/
def counterSpent (r : Request) (c : Chip) : Chip := if r.ctr = 0xFFFFFFFF then endSession true r.sid c else c

/-- A request with the opcode of `k` is served (DEDUCED, log entry 20). -/
def serve (k : Command) (d : Delivery) (nvm : Nvm) (c0 : Chip) : Chip :=
  match receive d c0 with
  | (none, _) => c0
  | (some r, c) =>
    if r.op ≠ k.op then c0
    else
      let ks := (sessOf r c).map (·.ks)
      match admitRequest r c with
      | (.error s, c) => reply r ks s [] (noteAnswer r s c)
      | (.ok w, c) =>
        let c :=
          match k.fault nvm c w r.params with
          | some s => reply r ks s [] (noteAnswer r s c)
          | none =>
            let (s, data, c) := k.act nvm r w c
            k.after r (reply r ks s data (noteAnswer r s c))
        match w with
        | .pub => c
        | .sess .. => counterSpent r c

/-- A request with a reserved opcode: whatever order it fails at, at the latest UNKNOWN_OPCODE. -/
def serveUnknown (d : Delivery) (c0 : Chip) : Chip :=
  match receive d c0 with
  | (none, _) => c0
  | (some r, c) =>
    if knownOps.contains r.op then c0
    else
      let ks := (sessOf r c).map (·.ks)
      match admitRequest r c with
      | (.error 0x03, c) => let c := reply r ks 0x03 [] (noteAnswer r 0x03 c); if r.sid = 0 then c else counterSpent r c
      | (.error s, c) => reply r ks s [] (noteAnswer r s c)
      | (.ok _, c) => c

/-! ### Roles and modes -/

/-- Any session with one of these roles. -/
def Who.isRole (w : Who) (rs : List Role) : Bool :=
  match w with
  | .pub => false
  | .sess _ x => rs.contains x.role

def ownerOrDepot : Check := fun _ _ w _ => w.isRole [.owner, .depot]
def depotOnly : Check := fun _ _ w _ => w.isRole [.depot]

/-- PARKED, COUPLED or DEPOT. -/
def innMode (c : Chip) : Bool := workingMode c.seq.mode

def inDepot (c : Chip) : Bool := c.seq.mode == .depot

/-- OWNER, DEPOT, or GUEST(n) whose own index stands at the head of the parameters (DEDUCED, log entry 31). -/
def guestRole (ok : List Byte → Bool) : Check := fun _ _ w p =>
  w.isRole [.owner, .depot] || (match w with
    | .sess _ x => x.role == .guest && decide (u16At p 0 = x.index) && ok p
    | .pub => false)

/-- A command with no data and status OK. -/
def okDone (c : Chip) : Nat × List Byte × Chip := (0x00, [], c)

/-- A pending command begins (R692). -/
def pendStart (op h : Nat) (c : Chip) : Chip :=
  { c with host.pend := some { op := op, handle := h, at_ := c.now, orphan := false, done := none, outcome := none } }

/-- PENDING. -/
def pendDoneNow (c : Chip) : Nat × List Byte × Chip := (0x01, [], c)

/-! ### Reads (R693, R702, R747) -/

/-- The range of a read includes T.INN or T.CONFIG_ECHO (Table 14.9). -/
def readsClosed (i n : Nat) : Bool :=
  (List.range n).any fun k => (decide (0x600 ≤ i + k) && decide (i + k < 0x700)) || (decide (0xA00 ≤ i + k) && decide (i + k < 0xB00))

def cmdRead : Command where
  op := 0x01
  role := fun _ _ w p => w.isRole [.owner, .depot] || decide (p.length ≠ 4) || !readsClosed (u16At p 0) (u8At p 2)
  len := fun p => p.length == 4
  range := fun _ _ _ p =>
    u8At p 2 == 0 || decide (48 < u8At p 2) || u8At p 3 != 0 || decide (0x1000 < u16At p 0 + u8At p 2)
  act := fun nvm r _ c => (0x00, objectBytes nvm c (u16At r.params 0) (u8At r.params 2), c)

/-- The record that CMD_GUEST_READ returns: the guest's own, or the copy of one of the other side (DEDUCED, log entry 32). -/
def guestRecord (nvm : Nvm) (c : Chip) (i : Nat) : Option (List Byte) :=
  match guestByIndex c i with
  | some g => if g.own then some (encodeRec (recordOf nvm c g)) else (c.pair.copies.find? (·.1 == i)).map (·.2)
  | none => none

def cmdGuestRead : Command where
  op := 0x02
  role := guestRole fun _ => true
  mode := innMode
  len := fun p => p.length == 2
  range := fun nvm c _ p => (guestRecord nvm c (u16At p 0)).isNone
  act := fun nvm r _ c => (0x00, (guestRecord nvm c (u16At r.params 0)).getD [], c)

/-- Inserts a journal record by its sequence number. -/
def insertSeq (b : List Byte) : List (List Byte) → List (List Byte)
  | [] => [b]
  | x :: xs => if u32At b 0 < u32At x 0 then b :: x :: xs else x :: insertSeq b xs

/-- The committed records of the ring with sequence numbers at or above `from_`, ascending. -/
def journalFrom (nvm : Nvm) (c : Chip) (from_ : Nat) : List (List Byte) :=
  match c.img.map with
  | none => []
  | some m =>
    (((List.range (journalSlots m)).map fun i => journalSlot nvm m i).filter fun b =>
      committedRec b && decide (from_ ≤ u32At b 0)).foldl (fun acc b => insertSeq b acc) []

def cmdJournalRead : Command where
  op := 0x03
  role := ownerOrDepot
  len := fun p => p.length == 5
  range := fun _ _ _ p => u8At p 4 == 0 || decide (3 < u8At p 4)
  act := fun nvm r _ c => (0x00, ((journalFrom nvm c (u32At r.params 0)).take (u8At r.params 4)).flatMap id, c)

/-- The pending command of this session. -/
def ownPend (c : Chip) (w : Who) : Option Pend :=
  match w with
  | .pub => none
  | .sess h _ => c.host.pend.filter fun p => p.handle == h && !p.orphan

def cmdResult : Command where
  op := 0x04
  role := fun _ _ w _ => w.isRole [.owner, .depot, .guest]
  len := fun p => p.isEmpty
  noResult := fun _ c w _ => (ownPend c w).isNone
  act := fun _ _ w c =>
    match (ownPend c w).bind (·.outcome) with
    | some (s, data) => (s, data, { c with host.pend := none })
    | none => (0x01, [], c)

/-! ### Opening and closing sessions (R682, R683, R687) -/

def roleOf : Nat → Option Role
  | 1 => some .owner
  | 2 => some .depot
  | 3 => some .guest
  | _ => none

/-- The key of a role and index: that of the image; in LIMP only DEPOT's, or K_LIMP (R682, Table 4.6). -/
def roleKey (c : Chip) (role : Role) (index : Nat) : Option (List Byte) :=
  let stored := (c.img.cfg.keys.find? fun k => k.role == role && k.index == index).map (·.key)
  if c.seq.mode = .limp then
    if role ≠ .depot then none
    else if c.img.loaded.isSome then stored
    else if index = 0 then
      some (Crypto.aesCmac Config.kDev (u8B 0x03 ++ ascii [0x53, 0x4B, 0x50, 0x2D, 0x4C, 0x49, 0x4D, 0x50] ++ Config.uid))
    else none
  else if role = .guest ∧ (guestByIndex c index).isNone then none
  else stored

/-- K_S (R683). -/
def sessionKey (kRole nH nG : List Byte) (h : Nat) : List Byte :=
  Crypto.aesCmac kRole (u8B 0x04 ++ ascii [0x53, 0x4B, 0x50, 0x2D, 0x53, 0x45, 0x53, 0x53] ++ Config.uid ++ nH ++ nG ++ u8B h)

/-- The handles in use that a new session may take, with the time since which each has been idle. -/
def idleHandles (c : Chip) : List (Nat × Time) :=
  c.host.sess.zipIdx.filterMap fun p => p.1.bind fun x => if x.role == .depot then none else some (p.2 + 1, x.lastAt)

/-- The handle that a new session gets: the first free one, or the one that has been idle longest. -/
def takeHandle (c : Chip) : Option Nat :=
  match c.host.sess.findIdx? (·.isNone) with
  | some i => some (i + 1)
  | none =>
    match idleHandles c with
    | [] => none
    | x :: xs => some (xs.foldl (fun b y => if y.2 < b.2 then y else b) x).1

/-- CMD_SESSION_OPEN. -/
def openSession (r : Request) (c : Chip) : Nat × List Byte × Chip :=
  let p := r.params
  match roleOf (u8At p 0), takeHandle c with
  | some role, some h =>
    match roleKey c role (u16At p 2) with
    | some k =>
      let c := endSession true h c
      let (nG, c) := randomBytes 8 c
      let x : Sess := {
        role := role, index := u16At p 2, half := true, link := r.link, addr := r.addr, counter := 0, lastAt := c.now
        fails := 0, ks := sessionKey k (slice p 4 8) nG h, limp := c.seq.mode == .limp }
      (0x00, u8B h ++ [0] ++ nG, { c with host.sess := updAt c.host.sess (h - 1) fun _ => some x })
    | none => (0x11, [], c)
  | _, _ => (0x10, [], c)

/-- A DEPOT session exists, open or half-open. -/
def depotExists (c : Chip) : Bool := c.host.sess.any fun s => s.elim false fun x => x.role == .depot

def cmdSessionOpen : Command where
  op := 0x08
  role := fun _ _ w _ => w == .pub
  noKey := fun _ c _ p =>
    p.length == 12 && (roleOf (u8At p 0)).elim false fun role => (roleKey c role (u16At p 2)).isNone
  len := fun p => p.length == 12
  range := fun _ _ _ p => (roleOf (u8At p 0)).isNone || u8At p 1 != 0
  refused := fun _ c _ p => (roleOf (u8At p 0) == some .depot && depotExists c) || (takeHandle c).isNone
  act := fun _ r _ c => openSession r c

def cmdSessionConfirm : Command where
  op := 0x09
  role := fun _ _ w _ => match w with | .pub => false | .sess _ x => x.half
  len := fun p => p.isEmpty
  act := fun _ r _ c => okDone (updSess r.sid (fun x => { x with half := false, lastAt := c.now }) c)

def cmdSessionClose : Command where
  op := 0x0A
  role := fun _ _ w _ => w.isRole [.owner, .depot, .guest]
  len := fun p => p.isEmpty
  act := fun _ _ _ c => okDone c
  after := fun r c => endSession false r.sid c

/-! ### Time, SHIP and sticky bits (R698, R132, R694) -/

def cmdSetTime : Command where
  op := 0x10
  role := ownerOrDepot
  mode := innMode
  len := fun p => p.length == 8
  range := fun _ _ _ p => u8At p 7 != 0
  refused := fun _ c _ _ => !actsAsSource c
  act := fun _ r _ c =>
    let c := setCaravan ((leNat (slice r.params 0 8) : Nat) : Rat) 0 c
    okDone { c with ret.cvRate := 0, ret.cvSet := true }

def cmdShip : Command where
  op := 0x11
  role := ownerOrDepot
  mode := fun c => innMode c || c.seq.mode == .limp
  len := fun p => p.isEmpty
  act := fun nvm _ _ c => okDone (shipRequest false nvm c)

/-- The mask that the words of CMD_CLEAR_STICKY spell (R807). -/
def clearMask (p : List Byte) : BitVec 160 :=
  (List.range (u8At p 2)).foldl (fun m k =>
    let i := u16At p 0 + k - 0x700
    if i < 5 then m ||| BitVec.ofNat 160 (u32At p (4 + 4 * k) * 2 ^ (32 * i)) else m) 0

/-- The words that are still set (DEDUCED, log entry 33). -/
def stillSet (p : List Byte) (c : Chip) : List Byte :=
  (List.range (u8At p 2)).flatMap fun k =>
    let i := u16At p 0 + k - 0x700
    u32B (if i < 5 then stickyWord c.ret.sticky i else 0)

/-- The role of a session. -/
def Who.role (w : Who) : Role :=
  match w with
  | .pub => .guest
  | .sess _ x => x.role

def cmdClearSticky : Command where
  op := 0x12
  role := ownerOrDepot
  len := fun p => decide (4 ≤ p.length) && p.length == 4 + 4 * u8At p 2
  range := fun _ _ _ p =>
    decide (u16At p 0 < 0x700) || u8At p 2 == 0 || decide (32 < u8At p 2) || decide (0x780 < u16At p 0 + u8At p 2) || u8At p 3 != 0
  act := fun _ r w c =>
    let c := clearSticky w.role (clearMask r.params) c
    (0x00, stillSet r.params c, c)

/-! ### Revocation (R638 … R641, R748, Table 13.6) -/

/-- A contract of the other side of the pair (R748). -/
def otherSide (c : Chip) (i : Nat) : Bool :=
  inPairStrap c && c.inn.guests.any fun g => g.cfg.index == i && g.cfg.side != ownSide c

/-- The admitted guest of this side with this index. -/
def ownGuest (c : Chip) (i : Nat) : Option Guest := (guestByIndex c i).filter (·.own)

/-- The switch of a spur opens without a ramp-down (R435). -/
def cutSwitch (m : Fin 8) (c : Chip) : Chip :=
  updSpur m (fun s =>
    match s.st with
    | .rampUp | .rampDown => openSwitch c.now 0x01 (dropSlotEnergy s)
    | .on => openSwitch c.now 0x01 s
    | _ => s) c

/-- A safety cut ends the running slot of spur n at once: its end read is requested (DEDUCED, log entry 34). -/
def safetyCut (n : Fin 8) (s : Slot) (c : Chip) : Chip :=
  (tieGroup c n).foldl (fun c m => takeCommand m (cutSwitch m c)) (endSlot n s c)

/-- A safety cut of the guest whose slot ended last opens a switch that is still ramping down from it (R399, R435). -/
def cutRampDown (n : Fin 8) (c : Chip) : Chip :=
  (tieGroup c n).foldl (fun c m => if (spur c m).st = .rampDown then cutSwitch m c else c) c

/-- The running slot of a revoked guest: charged by the ticks elapsed; a safety cut stops it. -/
def stopRevoked (safety : Bool) (n : Fin 8) (p : Nat) (c : Chip) : Chip :=
  match runningSlot c n with
  | none => if safety && (spurInn c n).lastPos == some p then cutRampDown n c else c
  | some s =>
    if s.pos ≠ p then c
    else
      let s := { s with revoked := some (s.revoked.getD (c.inn.time - s.start)) }
      let c := updSlot n s.start (fun _ => s) c
      if safety then safetyCut n s c else c

/-- A guest is revoked. -/
def revokeGuest (safety : Bool) (g : Guest) (nvm : Nvm) (c : Chip) : Chip :=
  let n := leadSpur c (guestSpur g.cfg)
  let c := modRecord nvm true g.pos (fun r => { r with revoked := true, safety := r.safety || safety }) c
  recheckSpur nvm n (stopRevoked safety n g.pos c)

def cmdGuestRevoke : Command where
  op := 0x13
  role := guestRole fun p => u8At p 2 == 0
  mode := innMode
  len := fun p => p.length == 4
  range := fun _ c _ p =>
    decide (1 < u8At p 2) || u8At p 3 != 0 || ((ownGuest c (u16At p 0)).isNone && !otherSide c (u16At p 0))
  refused := fun _ c _ p => otherSide c (u16At p 0)
  act := fun nvm r _ c =>
    okDone ((ownGuest c (u16At r.params 0)).elim c fun g => revokeGuest (u8At r.params 2 == 1) g nvm c)

def cmdGuestRestore : Command where
  op := 0x14
  role := ownerOrDepot
  mode := innMode
  len := fun p => p.length == 2
  range := fun _ c _ p => (ownGuest c (u16At p 0)).isNone && !otherSide c (u16At p 0)
  refused := fun _ c _ p => otherSide c (u16At p 0)
  act := fun nvm r _ c =>
    okDone ((ownGuest c (u16At r.params 0)).elim c fun g =>
      modRecord nvm true g.pos (fun x => { x with revoked := false, safety := false }) c)

/-! ### DEPOT and restart (R122, R697, R699) -/

def cmdDepot : Command where
  op := 0x20
  role := depotOnly
  mode := fun c => c.seq.mode == .coupled
  len := fun p => p.isEmpty
  act := fun _ _ _ c => okDone (packPolicies (setMode .depot c))

def cmdDepotExit : Command where
  op := 0x21
  role := depotOnly
  mode := fun c => inDepot c && anyFeed c
  len := fun p => p.isEmpty
  act := fun _ _ _ c => okDone (enterCoupled c)

def cmdRestart : Command where
  op := 0x22
  role := depotOnly
  len := fun p => p.isEmpty
  act := fun _ _ _ c => okDone { dropCheck c with seq.restartAt := some c.now }
  after := fun _ c => sendLeaving 2 c

/-! ### Calibration points (R185, R186, R389) -/

/-- R186: a ZERO point on an accepted feed, or a SPAN point on I_P that may not run the charger: outside STANDBY, or without what
R847 and Table 12.9 ask of a charge (R389, R577). -/
def calRefused (c : Chip) (p : List Byte) : Bool :=
  match u8At p 0, u8At p 1 with
  | 0, 0 => feedAccepted c.feedA
  | 1, 0 => feedAccepted c.feedB
  | 2, 1 => c.pack.st != .standby || !chargeKeeps c
  | _, _ => false

/-- A point begins; on I_P CHG_EN is held low, or a SPAN point runs the charger (DEDUCED, log entry 39). -/
def calStart (p : List Byte) (c0 : Chip) : Chip :=
  let c := leaveDuty c0
  let c := { c with cal := { c.cal with
    run := true, ch := u8At p 0, auxCh := u8At p 2, span := u8At p 1 == 1, done := false, refused := false, count := 0
    sum := 0, sumSq := 0, start := c.now } }
  if u8At p 0 = 2 then (if u8At p 1 = 1 then enterCharge true c else endCharge 0x01 .standby c) else c

/-- A point that R186 refuses stands in CAL_STATUS as refused (R213). -/
def calNoted (p : List Byte) (c : Chip) : Chip :=
  { c with cal := { c.cal with
      ch := u8At p 0, auxCh := u8At p 2, span := u8At p 1 == 1, done := false, refused := true, count := 0 } }

/-- CMD_CAL_POINT; REFUSED is the last order that can apply to it. -/
def cmdCalPoint : Command where
  op := 0x23
  role := depotOnly
  mode := inDepot
  len := fun p => p.length == 4
  range := fun _ _ _ p =>
    decide (5 < u8At p 0) || decide (1 < u8At p 1) || (u8At p 0 == 5 && decide (23 < u8At p 2)) || u8At p 3 != 0
  act := fun _ r _ c =>
    if calRefused c r.params then (0x10, [], calNoted r.params c)
    else pendDoneNow (calStart r.params (pendStart 0x23 r.sid c))

/-! ### Tag service (R579) -/

def cmdTagRead : Command where
  op := 0x24
  role := depotOnly
  mode := inDepot
  len := fun p => p.length == 4
  range := fun _ _ _ p => u16At p 2 == 0 || decide (192 < u16At p 2) || decide (0x800 < u16At p 0 + u16At p 2)
  act := fun _ r _ c =>
    let c := pendStart 0x24 r.sid c
    pendDoneNow (kickTool { c with tag.tool := some { handle := r.sid, addr := u16At r.params 0, len := u16At r.params 2 } })

/-- CMD_TAG_WRITE is a tag-write event of cause 7; one that is skipped is over at once. -/
def tagWriteAsked (c : Chip) : Chip :=
  let c := tagEvent 7 c
  if c.tag.due.getLsbD 7 then c else pendDone 0x25 (0x00, u32B (tagWriteWord c)) c

def cmdTagWrite : Command where
  op := 0x25
  role := depotOnly
  mode := inDepot
  len := fun p => p.isEmpty
  act := fun _ r _ c => pendDoneNow (tagWriteAsked (pendStart 0x25 r.sid c))

/-! ### Reprovisioning (R103 … R106, R695, R696) -/

/-- The header offered fails one of checks 1 … 5, or its IMAGE_LEN exceeds COPY_LEN (R696). -/
def headerRefused (c : Chip) (h : List Byte) : Bool :=
  slice h 0 4 != magic || c.img.map.elim true fun m => (headerFault m.copyLen Config.uid h).isSome

/-- Writes bytes to the target copy for a command. The first part tells whether the NVM completes the write, which the spec leaves open
and a stopped NVM domain prevents; a failed write leaves free bytes (log entries 20 and 140). -/
def writeTarget (off : Nat) (bs : List Byte) (c : Chip) : Bool × Chip :=
  let done := nvmRuns c && !Config.nvmWriteFails c.free
  let cells := if done then bs else if nvmRuns c then (spoiled bs c).1 else []
  (done, putTarget off cells { c with free := c.free + bs.length + 1 })

/-- Status OK, or NVM for a write that the NVM did not complete (Table 14.7). -/
def writeStatus (done : Bool) : Nat := if done then 0x00 else 0x0E

def cmdImageBegin : Command where
  op := 0x28
  role := depotOnly
  mode := inDepot
  len := fun p => p.length == 64
  range := fun _ c _ p => headerRefused c p
  stale := fun _ c _ p => decide (u32At p 12 ≤ c.img.cfg.sequence)
  act := fun _ r _ c =>
    let (done, c) := writeTarget 0 [0, 0, 0, 0] c
    (writeStatus done, [], { c with img.reprov := if done then some { header := r.params, nextOff := 4 } else none })

/-- The chunk's bytes at offsets 4 … 63 differ from the header given to CMD_IMAGE_BEGIN (DEDUCED, log entry 37). -/
def headerDiffers (x : Reprov) (off : Nat) (bs : List Byte) : Bool :=
  bs.zipIdx.any fun b => decide (4 ≤ off + b.2) && decide (off + b.2 < 64) && x.header.getD (off + b.2) 0 != b.1

/-- The chunk is out of order or runs past IMAGE_LEN, or no reprovisioning is under way. -/
def chunkOrder (c : Chip) (off n : Nat) : Bool :=
  c.img.reprov.elim true fun x => off != x.nextOff || decide (u32At x.header 8 < off + n)

def cmdImageWrite : Command where
  op := 0x29
  role := depotOnly
  mode := inDepot
  len := fun p => decide (5 ≤ p.length) && decide (p.length ≤ 228)
  range := fun _ c _ p => c.img.reprov.elim false fun x => headerDiffers x (u32At p 0) (p.drop 4)
  order := fun _ c _ p => chunkOrder c (u32At p 0) (p.length - 4)
  act := fun _ r _ c =>
    let off := u32At r.params 0
    let bs := r.params.drop 4
    let (done, c) := writeTarget off bs c
    (writeStatus done, [], { c with img.reprov := c.img.reprov.map fun x =>
      { x with nextOff := if done then off + bs.length else x.nextOff } })

def cmdImageCheck : Command where
  op := 0x2A
  role := depotOnly
  mode := inDepot
  len := fun p => p.isEmpty
  order := fun _ c _ _ => c.img.reprov.elim true fun x => decide (x.nextOff < u32At x.header 8)
  act := fun _ r _ c =>
    let (done, d) := writeTarget 0 magic c
    (if done then 0x01 else 0x0E, [], { d with host.pend := if done then (pendStart 0x2A r.sid d).host.pend else c.host.pend })

/-- The check of the target copy (R106): when it fails, MAGIC is zeroed again. -/
def imageChecked (nvm : Nvm) (c : Chip) : Chip :=
  match c.img.map with
  | none => c
  | some m =>
    match checkCopy (checkEnv m c) (copyBytes m (targetCopy c) nvm) with
    | .ok _ => pendDone 0x2A (0x00, List.replicate 8 0) { c with img.reprov := none }
    | .error e =>
      pendDone 0x2A (0x0F, u8B e.reason.code ++ [0] ++ u16B e.tag ++ u32B e.offset) (putTarget 0 [0, 0, 0, 0] c)

/-! ### Timers -/

/-- PENDING_OUTCOME_READY (R692, R723). No check passes once CMD_RESTART has arrived (R117), or while the NVM domain is stopped
(log entry 140). -/
def pendingReady (nvm : Nvm) (c : Chip) : Chip :=
  let c := if checkPending c && nvmRuns c && c.seq.restartAt.isNone then imageChecked nvm c else c
  match c.host.pend with
  | none => c
  | some p =>
    if p.done.isNone || p.outcome.isSome then c
    else if p.orphan then { c with host.pend := none }
    else latchAlert 2 { c with host.pend := some { p with outcome := p.done } }

/-- 60 s without an accepted request (R688). -/
def idleTimeout (h : Nat) (c : Chip) : Chip :=
  if (c.host.sess.getD (h - 1) none).elim false fun x => !x.half && decide (x.lastAt + sec 60 ≤ c.now) then endSession true h c
  else c

/-- A half-open handle has not been confirmed within 1 s (R688) (DEDUCED, log entry 97). -/
def halfOpenTimeout (h : Nat) (c : Chip) : Chip :=
  if (c.host.sess.getD (h - 1) none).elim false fun x => x.half && decide (x.lastAt + sec 1 ≤ c.now) then endSession true h c
  else c

def lockoutEnd (c : Chip) : Chip :=
  if c.host.lockUntil.elim false fun t => decide (t ≤ c.now) then { c with host.lockUntil := none } else c

/-! ### Meanings -/

def execSessionResponseRelease (t : Time) (link : LinkId) (s : State) : Outcome := run t (fun _ c => releaseResponses link c) s

def execSessionIdleTimeout (t : Time) (h : Nat) (s : State) : Outcome := run t (fun _ c => idleTimeout h c) s

def execSessionHalfOpenTimeout (t : Time) (h : Nat) (s : State) : Outcome := run t (fun _ c => halfOpenTimeout h c) s

def execSessionLockoutEnd (t : Time) (s : State) : Outcome := run t (fun _ c => lockoutEnd c) s

def execPendingOutcomeReady (t : Time) (s : State) : Outcome := run t (fun nvm c => pendingReady nvm c) s

def execCmdRead (t : Time) (d : Delivery) (s : State) : Outcome := run t (fun nvm c => serve cmdRead d nvm c) s

def execCmdGuestRead (t : Time) (d : Delivery) (s : State) : Outcome := run t (fun nvm c => serve cmdGuestRead d nvm c) s

def execCmdJournalRead (t : Time) (d : Delivery) (s : State) : Outcome := run t (fun nvm c => serve cmdJournalRead d nvm c) s

def execCmdResult (t : Time) (d : Delivery) (s : State) : Outcome := run t (fun nvm c => serve cmdResult d nvm c) s

def execCmdSessionOpen (t : Time) (d : Delivery) (s : State) : Outcome := run t (fun nvm c => serve cmdSessionOpen d nvm c) s

def execCmdSessionConfirm (t : Time) (d : Delivery) (s : State) : Outcome :=
  run t (fun nvm c => serve cmdSessionConfirm d nvm c) s

def execCmdSessionClose (t : Time) (d : Delivery) (s : State) : Outcome := run t (fun nvm c => serve cmdSessionClose d nvm c) s

def execCmdSetTime (t : Time) (d : Delivery) (s : State) : Outcome := run t (fun nvm c => serve cmdSetTime d nvm c) s

def execCmdShip (t : Time) (d : Delivery) (s : State) : Outcome := run t (fun nvm c => serve cmdShip d nvm c) s

def execCmdClearSticky (t : Time) (d : Delivery) (s : State) : Outcome := run t (fun nvm c => serve cmdClearSticky d nvm c) s

def execCmdGuestRevoke (t : Time) (d : Delivery) (s : State) : Outcome := run t (fun nvm c => serve cmdGuestRevoke d nvm c) s

def execCmdGuestRestore (t : Time) (d : Delivery) (s : State) : Outcome := run t (fun nvm c => serve cmdGuestRestore d nvm c) s

def execCmdDepot (t : Time) (d : Delivery) (s : State) : Outcome := run t (fun nvm c => serve cmdDepot d nvm c) s

def execCmdDepotExit (t : Time) (d : Delivery) (s : State) : Outcome := run t (fun nvm c => serve cmdDepotExit d nvm c) s

def execCmdRestart (t : Time) (d : Delivery) (s : State) : Outcome := run t (fun nvm c => serve cmdRestart d nvm c) s

def execCmdCalPoint (t : Time) (d : Delivery) (s : State) : Outcome := run t (fun nvm c => serve cmdCalPoint d nvm c) s

def execCmdTagRead (t : Time) (d : Delivery) (s : State) : Outcome := run t (fun nvm c => serve cmdTagRead d nvm c) s

def execCmdTagWrite (t : Time) (d : Delivery) (s : State) : Outcome := run t (fun nvm c => serve cmdTagWrite d nvm c) s

def execCmdImageBegin (t : Time) (d : Delivery) (s : State) : Outcome := run t (fun nvm c => serve cmdImageBegin d nvm c) s

def execCmdImageWrite (t : Time) (d : Delivery) (s : State) : Outcome := run t (fun nvm c => serve cmdImageWrite d nvm c) s

def execCmdImageCheck (t : Time) (d : Delivery) (s : State) : Outcome := run t (fun nvm c => serve cmdImageCheck d nvm c) s

def execUnknownOpcode (t : Time) (d : Delivery) (s : State) : Outcome := run t (fun _ c => serveUnknown d c) s

end Sys2Proof.Machine
end

