-- ==== Sys2Proof/Machine/Dispatch.lean ====
section
/-! DEFINITION. The dispatch: one arm per command, each one direct call of its meaning. -/

namespace Sys2Proof.Machine

def exec (i : Instr) (s : State) : Host.Outcome State Fault Refusal :=
  match i with
  | .powerOnResetRelease t vTop vcoreOk strap => Sys2Proof.Machine.execPowerOnResetRelease t vTop vcoreOk strap s
  | .powerOnResetAssert t vHold vTop => Sys2Proof.Machine.execPowerOnResetAssert t vHold vTop s
  | .rstNLow t lowNs => Sys2Proof.Machine.execRstNLow t lowNs s
  | .watchdogTimeout t unservedNs strap => Sys2Proof.Machine.execWatchdogTimeout t unservedNs strap s
  | .coreBrownout t outNs strap => Sys2Proof.Machine.execCoreBrownout t outNs strap s
  | .ramParityError t strap => Sys2Proof.Machine.execRamParityError t strap s
  | .supplyCollapse t vSup writesDone => Sys2Proof.Machine.execSupplyCollapse t vSup writesDone s
  | .configureStepComplete t inp => Sys2Proof.Machine.execConfigureStepComplete t inp s
  | .otpProgramStart t vHold vTop => Sys2Proof.Machine.execOtpProgramStart t vHold vTop s
  | .otpProgramDone t => Sys2Proof.Machine.execOtpProgramDone t s
  | .shipNRequest t lowNs => Sys2Proof.Machine.execShipNRequest t lowNs s
  | .shipRequestLapse t shipNHigh => Sys2Proof.Machine.execShipRequestLapse t shipNHigh s
  | .shutdownStepComplete t => Sys2Proof.Machine.execShutdownStepComplete t s
  | .shipWake t feed minMv highNs strap => Sys2Proof.Machine.execShipWake t feed minMv highNs strap s
  | .wakeLockoutRelease t maxA maxB lowNs => Sys2Proof.Machine.execWakeLockoutRelease t maxA maxB lowNs s
  | .limpFeedSetDecided t feed minMv durNs vinA vinB => Sys2Proof.Machine.execLimpFeedSetDecided t feed minMv durNs vinA vinB s
  | .limpFloor t maxMv durNs => Sys2Proof.Machine.execLimpFloor t maxMv durNs s
  | .fastWord t ch code run hi modOk => Sys2Proof.Machine.execFastWord t ch code run hi modOk s
  | .preciseWord t ch code run hi modOk => Sys2Proof.Machine.execPreciseWord t ch code run hi modOk s
  | .modulatorReset t ch run => Sys2Proof.Machine.execModulatorReset t ch run s
  | .fastTripFire t tc uv => Sys2Proof.Machine.execFastTripFire t tc uv s
  | .fastTripVerdict t tc sum => Sys2Proof.Machine.execFastTripVerdict t tc sum s
  | .slowChopBlockPair t ch plus minus => Sys2Proof.Machine.execSlowChopBlockPair t ch plus minus s
  | .auxConversionComplete t code overRange => Sys2Proof.Machine.execAuxConversionComplete t code overRange s
  | .tsBiasFault t ts ppm => Sys2Proof.Machine.execTsBiasFault t ts ppm s
  | .spurTotalOverload t => Sys2Proof.Machine.execSpurTotalOverload t s
  | .crystalFail t freqHz badNs => Sys2Proof.Machine.execCrystalFail t freqHz badNs s
  | .modClockFault t freqHz badNs => Sys2Proof.Machine.execModClockFault t freqHz badNs s
  | .coreTrimExhausted t ppm badNs => Sys2Proof.Machine.execCoreTrimExhausted t ppm badNs s
  | .domainClockFault t dom khz badNs => Sys2Proof.Machine.execDomainClockFault t dom khz badNs s
  | .queueOverflow t ch precise => Sys2Proof.Machine.execQueueOverflow t ch precise s
  | .lptCalibration t corr modErr => Sys2Proof.Machine.execLptCalibration t corr modErr s
  | .calPointComplete t => Sys2Proof.Machine.execCalPointComplete t s
  | .calPointTimeout t => Sys2Proof.Machine.execCalPointTimeout t s
  | .isothermalCheck t => Sys2Proof.Machine.execIsothermalCheck t s
  | .feedWindowCrossing t feed mv durNs => Sys2Proof.Machine.execFeedWindowCrossing t feed mv durNs s
  | .insertionDelayExpiry t feed => Sys2Proof.Machine.execInsertionDelayExpiry t feed s
  | .inrushStart t feed => Sys2Proof.Machine.execInrushStart t feed s
  | .inrushGovernorUpdate t feed => Sys2Proof.Machine.execInrushGovernorUpdate t feed s
  | .inrushTimeout t feed => Sys2Proof.Machine.execInrushTimeout t feed s
  | .inrushComplete t feed maxUv maxDropMv durNs => Sys2Proof.Machine.execInrushComplete t feed maxUv maxDropMv durNs s
  | .feedFastReverse t feed uv => Sys2Proof.Machine.execFeedFastReverse t feed uv s
  | .feedReenableStart t feed minDropMv durNs => Sys2Proof.Machine.execFeedReenableStart t feed minDropMv durNs s
  | .dropTargetAdapt t feed => Sys2Proof.Machine.execDropTargetAdapt t feed s
  | .feedRetryWaitExpiry t feed => Sys2Proof.Machine.execFeedRetryWaitExpiry t feed s
  | .feedRetryCountReset t feed => Sys2Proof.Machine.execFeedRetryCountReset t feed s
  | .feedUncoupled t feed maxMv durNs => Sys2Proof.Machine.execFeedUncoupled t feed maxMv durNs s
  | .feedReversed t feed maxMv durNs => Sys2Proof.Machine.execFeedReversed t feed maxMv durNs s
  | .feedReversalClear t feed minMv durNs => Sys2Proof.Machine.execFeedReversalClear t feed minMv durNs s
  | .feedMirageCheck t feed => Sys2Proof.Machine.execFeedMirageCheck t feed s
  | .kelvinTestStart t pair => Sys2Proof.Machine.execKelvinTestStart t pair s
  | .kelvinTestEnd t pair uvP uvN => Sys2Proof.Machine.execKelvinTestEnd t pair uvP uvN s
  | .chargePumpLow t aboveMv durNs => Sys2Proof.Machine.execChargePumpLow t aboveMv durNs s
  | .chargePumpReady t aboveMv durNs => Sys2Proof.Machine.execChargePumpReady t aboveMv durNs s
  | .prechargeStart t => Sys2Proof.Machine.execPrechargeStart t s
  | .prechargeComplete t maxBandMv maxMa durNs => Sys2Proof.Machine.execPrechargeComplete t maxBandMv maxMa durNs s
  | .prechargeTimeout t => Sys2Proof.Machine.execPrechargeTimeout t s
  | .packReenable t minMv durNs => Sys2Proof.Machine.execPackReenable t minMv durNs s
  | .packStandDown t sunkNs => Sys2Proof.Machine.execPackStandDown t sunkNs s
  | .packFastReverse t uv => Sys2Proof.Machine.execPackFastReverse t uv s
  | .chargeStart t => Sys2Proof.Machine.execChargeStart t s
  | .chargeSetpointUpdate t => Sys2Proof.Machine.execChargeSetpointUpdate t s
  | .chargeLimitStep t term => Sys2Proof.Machine.execChargeLimitStep t term s
  | .chargeTrim t => Sys2Proof.Machine.execChargeTrim t s
  | .chargeHandBack t drivenNs => Sys2Proof.Machine.execChargeHandBack t drivenNs s
  | .chargerFault t kind extreme durNs => Sys2Proof.Machine.execChargerFault t kind extreme durNs s
  | .shareLoopUpdate t code => Sys2Proof.Machine.execShareLoopUpdate t code s
  | .shareFault t code durNs => Sys2Proof.Machine.execShareFault t code durNs s
  | .packMirageCheck t => Sys2Proof.Machine.execPackMirageCheck t s
  | .packMirageFeedStop t minMv durNs => Sys2Proof.Machine.execPackMirageFeedStop t minMv durNs s
  | .packReversed t maxMv durNs => Sys2Proof.Machine.execPackReversed t maxMv durNs s
  | .packReversalClear t minMv durNs => Sys2Proof.Machine.execPackReversalClear t minMv durNs s
  | .packRetryWaitExpiry t => Sys2Proof.Machine.execPackRetryWaitExpiry t s
  | .packRetryCountReset t => Sys2Proof.Machine.execPackRetryCountReset t s
  | .spurRampComplete t n others => Sys2Proof.Machine.execSpurRampComplete t n others s
  | .spurRampdownComplete t n mv => Sys2Proof.Machine.execSpurRampdownComplete t n mv s
  | .spurCurrentLimit t n inLimit => Sys2Proof.Machine.execSpurCurrentLimit t n inLimit s
  | .spurLimitHeld t n durNs => Sys2Proof.Machine.execSpurLimitHeld t n durNs s
  | .spurRampDeadline t n mv => Sys2Proof.Machine.execSpurRampDeadline t n mv s
  | .spurThermalShutdown t n tjDeg => Sys2Proof.Machine.execSpurThermalShutdown t n tjDeg s
  | .spurThermalCooled t n tjDeg => Sys2Proof.Machine.execSpurThermalCooled t n tjDeg s
  | .spurBackfeedOn t n overMv => Sys2Proof.Machine.execSpurBackfeedOn t n overMv s
  | .spurBlockedRelease t n => Sys2Proof.Machine.execSpurBlockedRelease t n s
  | .spurRetryWaitExpiry t n => Sys2Proof.Machine.execSpurRetryWaitExpiry t n s
  | .spurRetryCountReset t n => Sys2Proof.Machine.execSpurRetryCountReset t n s
  | .spurFaultedProbe t n => Sys2Proof.Machine.execSpurFaultedProbe t n s
  | .spurProbeSuccess t n => Sys2Proof.Machine.execSpurProbeSuccess t n s
  | .spurOffStateTestEnd t n mv => Sys2Proof.Machine.execSpurOffStateTestEnd t n mv s
  | .spurContinuousDiagnosis t n mv => Sys2Proof.Machine.execSpurContinuousDiagnosis t n mv s
  | .governorOnWindow t start => Sys2Proof.Machine.execGovernorOnWindow t start s
  | .governorSecond t => Sys2Proof.Machine.execGovernorSecond t s
  | .wakeComparatorCrossing t uv => Sys2Proof.Machine.execWakeComparatorCrossing t uv s
  | .burstEnd t maxMa durNs => Sys2Proof.Machine.execBurstEnd t maxMa durNs s
  | .countGap t => Sys2Proof.Machine.execCountGap t s
  | .restSecond t => Sys2Proof.Machine.execRestSecond t s
  | .anchorDue t => Sys2Proof.Machine.execAnchorDue t s
  | .estimatorUpdate t => Sys2Proof.Machine.execEstimatorUpdate t s
  | .endOfChargeDeclared t => Sys2Proof.Machine.execEndOfChargeDeclared t s
  | .endOfDischargeDeclared t => Sys2Proof.Machine.execEndOfDischargeDeclared t s
  | .firstEstimate t => Sys2Proof.Machine.execFirstEstimate t s
  | .impedancePhaseEnd t => Sys2Proof.Machine.execImpedancePhaseEnd t s
  | .periodicJournalCommit t => Sys2Proof.Machine.execPeriodicJournalCommit t s
  | .periodicTagWrite t => Sys2Proof.Machine.execPeriodicTagWrite t s
  | .tagTransactionComplete t res => Sys2Proof.Machine.execTagTransactionComplete t res s
  | .tagProbe t answered => Sys2Proof.Machine.execTagProbe t answered s
  | .getResponsePoll t => Sys2Proof.Machine.execGetResponsePoll t s
  | .signatureVerified t => Sys2Proof.Machine.execSignatureVerified t s
  | .exchangeAbandon t => Sys2Proof.Machine.execExchangeAbandon t s
  | .adoptionAbandon t => Sys2Proof.Machine.execAdoptionAbandon t s
  | .tagWriteStart t => Sys2Proof.Machine.execTagWriteStart t s
  | .tagRecordSigned t => Sys2Proof.Machine.execTagRecordSigned t s
  | .tagCommitWaitExpiry t => Sys2Proof.Machine.execTagCommitWaitExpiry t s
  | .pkIdPinFault t outOfRange lowNs => Sys2Proof.Machine.execPkIdPinFault t outOfRange lowNs s
  | .pkIdDriverResume t => Sys2Proof.Machine.execPkIdDriverResume t s
  | .slotTick t => Sys2Proof.Machine.execSlotTick t s
  | .slotProvisionalDecision t n => Sys2Proof.Machine.execSlotProvisionalDecision t n s
  | .canStartForSlot t n => Sys2Proof.Machine.execCanStartForSlot t n s
  | .slotFinalDecision t n => Sys2Proof.Machine.execSlotFinalDecision t n s
  | .slotPlannedEnd t n => Sys2Proof.Machine.execSlotPlannedEnd t n s
  | .slotEndRead t n code overRange => Sys2Proof.Machine.execSlotEndRead t n code overRange s
  | .slotLate t g => Sys2Proof.Machine.execSlotLate t g s
  | .cellarFillComplete t => Sys2Proof.Machine.execCellarFillComplete t s
  | .ledgerCheck t => Sys2Proof.Machine.execLedgerCheck t s
  | .spurCutRelease t n => Sys2Proof.Machine.execSpurCutRelease t n s
  | .smbusSendDiscarded t kind => Sys2Proof.Machine.execSmbusSendDiscarded t kind s
  | .smbusFetch t => Sys2Proof.Machine.execSmbusFetch t s
  | .smbusZeroLengthRead t => Sys2Proof.Machine.execSmbusZeroLengthRead t s
  | .smbusClockTimeout t lowNs => Sys2Proof.Machine.execSmbusClockTimeout t lowNs s
  | .smbStuck t lowNs => Sys2Proof.Machine.execSmbStuck t lowNs s
  | .alertResponseRead t startedAt won => Sys2Proof.Machine.execAlertResponseRead t startedAt won s
  | .wakeNPulseEnd t => Sys2Proof.Machine.execWakeNPulseEnd t s
  | .ruellSegmentDiscarded t f => Sys2Proof.Machine.execRuellSegmentDiscarded t f s
  | .reassemblyTimeout t sender => Sys2Proof.Machine.execReassemblyTimeout t sender s
  | .canFrameIgnored t kind => Sys2Proof.Machine.execCanFrameIgnored t kind s
  | .ownAddressFrame t f => Sys2Proof.Machine.execOwnAddressFrame t f s
  | .sessionResponseRelease t link => Sys2Proof.Machine.execSessionResponseRelease t link s
  | .sessionIdleTimeout t h => Sys2Proof.Machine.execSessionIdleTimeout t h s
  | .sessionHalfOpenTimeout t h => Sys2Proof.Machine.execSessionHalfOpenTimeout t h s
  | .sessionLockoutEnd t => Sys2Proof.Machine.execSessionLockoutEnd t s
  | .pendingOutcomeReady t => Sys2Proof.Machine.execPendingOutcomeReady t s
  | .cmdRead t d => Sys2Proof.Machine.execCmdRead t d s
  | .cmdGuestRead t d => Sys2Proof.Machine.execCmdGuestRead t d s
  | .cmdJournalRead t d => Sys2Proof.Machine.execCmdJournalRead t d s
  | .cmdResult t d => Sys2Proof.Machine.execCmdResult t d s
  | .cmdSessionOpen t d => Sys2Proof.Machine.execCmdSessionOpen t d s
  | .cmdSessionConfirm t d => Sys2Proof.Machine.execCmdSessionConfirm t d s
  | .cmdSessionClose t d => Sys2Proof.Machine.execCmdSessionClose t d s
  | .cmdSetTime t d => Sys2Proof.Machine.execCmdSetTime t d s
  | .cmdShip t d => Sys2Proof.Machine.execCmdShip t d s
  | .cmdClearSticky t d => Sys2Proof.Machine.execCmdClearSticky t d s
  | .cmdGuestRevoke t d => Sys2Proof.Machine.execCmdGuestRevoke t d s
  | .cmdGuestRestore t d => Sys2Proof.Machine.execCmdGuestRestore t d s
  | .cmdDepot t d => Sys2Proof.Machine.execCmdDepot t d s
  | .cmdDepotExit t d => Sys2Proof.Machine.execCmdDepotExit t d s
  | .cmdRestart t d => Sys2Proof.Machine.execCmdRestart t d s
  | .restartAfterResponse t sent strap => Sys2Proof.Machine.execRestartAfterResponse t sent strap s
  | .cmdCalPoint t d => Sys2Proof.Machine.execCmdCalPoint t d s
  | .cmdTagRead t d => Sys2Proof.Machine.execCmdTagRead t d s
  | .cmdTagWrite t d => Sys2Proof.Machine.execCmdTagWrite t d s
  | .cmdImageBegin t d => Sys2Proof.Machine.execCmdImageBegin t d s
  | .cmdImageWrite t d => Sys2Proof.Machine.execCmdImageWrite t d s
  | .cmdImageCheck t d => Sys2Proof.Machine.execCmdImageCheck t d s
  | .unknownOpcode t d => Sys2Proof.Machine.execUnknownOpcode t d s
  | .canBusOff t => Sys2Proof.Machine.execCanBusOff t s
  | .canRxStuck t lowNs => Sys2Proof.Machine.execCanRxStuck t lowNs s
  | .canFrameDropped t => Sys2Proof.Machine.execCanFrameDropped t s
  | .wakeNWake t lowNs => Sys2Proof.Machine.execWakeNWake t lowNs s
  | .wakeNStuck t lowNs => Sys2Proof.Machine.execWakeNStuck t lowNs s
  | .canRxWake t lowNs => Sys2Proof.Machine.execCanRxWake t lowNs s
  | .canDomainStop t => Sys2Proof.Machine.execCanDomainStop t s
  | .canOwnWake t => Sys2Proof.Machine.execCanOwnWake t s
  | .timeSyncSend t => Sys2Proof.Machine.execTimeSyncSend t s
  | .timeSync t src seq => Sys2Proof.Machine.execTimeSync t src seq s
  | .timeFollow t src seq stampUs absolute => Sys2Proof.Machine.execTimeFollow t src seq stampUs absolute s
  | .timeSourceLost t => Sys2Proof.Machine.execTimeSourceLost t s
  | .kersorLockAcquired t commas withinNs => Sys2Proof.Machine.execKersorLockAcquired t commas withinNs s
  | .kersorLockLost t bad => Sys2Proof.Machine.execKersorLockLost t bad s
  | .kersorFrameDiscarded t => Sys2Proof.Machine.execKersorFrameDiscarded t s
  | .kersorRetransmit t => Sys2Proof.Machine.execKersorRetransmit t s
  | .heartbeat t f => Sys2Proof.Machine.execHeartbeat t f s
  | .join t f => Sys2Proof.Machine.execJoin t f s
  | .summary t f => Sys2Proof.Machine.execSummary t f s
  | .guestRecord t f => Sys2Proof.Machine.execGuestRecord t f s
  | .provisional t f => Sys2Proof.Machine.execProvisional t f s
  | .close t f => Sys2Proof.Machine.execClose t f s
  | .leaving t f => Sys2Proof.Machine.execLeaving t f s
  | .restore t f => Sys2Proof.Machine.execRestore t f s
  | .recordsEnd t f => Sys2Proof.Machine.execRecordsEnd t f s
  | .pairLinkLost t => Sys2Proof.Machine.execPairLinkLost t s
  | .pairProbePhase t phase code => Sys2Proof.Machine.execPairProbePhase t phase code s
  | .pairProbeDecision t => Sys2Proof.Machine.execPairProbeDecision t s
  | .pairSplitProbeRepeat t => Sys2Proof.Machine.execPairSplitProbeRepeat t s
  | .pairJoinSend t => Sys2Proof.Machine.execPairJoinSend t s
  | .pairJoinTimeout t => Sys2Proof.Machine.execPairJoinTimeout t s
  | .journalCommitStart t => Sys2Proof.Machine.execJournalCommitStart t s
  | .nvmWriteComplete t ok => Sys2Proof.Machine.execNvmWriteComplete t ok s
  | .journalWriteTimeout t => Sys2Proof.Machine.execJournalWriteTimeout t s
  | .stickyReassert t => Sys2Proof.Machine.execStickyReassert t s
  | .rstNRelease t strap => Sys2Proof.Machine.execRstNRelease t strap s
  | .retentionLoss t mv => Sys2Proof.Machine.execRetentionLoss t mv s
  | .busOffRecovered t => Sys2Proof.Machine.execBusOffRecovered t s
  | .canRxStuckRetry t stillStuck => Sys2Proof.Machine.execCanRxStuckRetry t stillStuck s
  | .ruellRequestSegment t f => Sys2Proof.Machine.execRuellRequestSegment t f s

end Sys2Proof.Machine
end

