-- ==== Sys2Proof/Machine/Idle.lean ====
section
/-! DEFINITION. What the gauge does on an empty queue: its CAN controller sends the waiting frame that wins arbitration
(log entry 10). Nothing else happens, and no time passes. -/

namespace Sys2Proof.Machine

/-- Of two frames the one with the lower identifier goes first; of equals the older. -/
def wins (a b : RuellFrame × Time) : RuellFrame × Time := if frameId b.1 < frameId a.1 then b else a

/-- The frame that the controller sends next, while the bus is awake and no WAKE frame is still owed; a WAKE frame goes
before any other (R712). -/
def nextFrame (c : Chip) : Option (RuellFrame × Time) :=
  if canAwake c && c.can.wakeAt.isNone then
    match c.can.queue.find? (·.1.kind == 0x0C), c.can.queue with
    | some f, _ => some f
    | none, [] => none
    | none, f :: fs => some (fs.foldl wins f)
  else none

/-- TIME_FOLLOW carries the caravan time at the start of frame of its TIME_SYNC (R703). -/
def followBytes (c : Chip) : List Byte := leBytes 7 (caravanUs c) ++ u8B (bitAt 0 c.ret.cvSet)

/-- Sends one waiting frame, an FD frame with ESI by the error state (R679); a TIME_SYNC brings its TIME_FOLLOW. -/
def sendFrame (c : Chip) : Chip :=
  match nextFrame c with
  | none => c
  | some f =>
    let m := busErrors c.can
    let sent := { f.1 with esi := f.1.fd && canPassive m }
    let c := { c with can := { goodSend c.can with
      queue := c.can.queue.erase f, last := some sent, tx := (satInc 65535 c.can.tx.1, c.can.tx.2), frameAt := c.now } }
    if f.1.kind = 0x08 then canHand (ownFrame c 1 0x09 f.1.seq (followBytes c)) c else c

/-- The state after a step on an empty queue. -/
def idle (s : State) : State := { s with chip := settle (sendFrame s.chip) }

end Sys2Proof.Machine
end

