-- ==== Sys2Proof/Safety.lean ====
section
/-! DEFINITION. What counts as a sound state, and the terms the statements use: the state after a step whose effect is
given, the kinds of state, and what a step keeps. -/

namespace Sys2Proof

open Machine

/-- What every step keeps: the NVM contents are in their canonical form, the NVM interface is idle between commands, and the
output pins stand as the state of the gauge has them (R45). -/
def Sound (s : State) : Prop := Nvm.wf s.nvm = true ∧ s.chip.spi = [] ∧ s.chip.pins = pinsOf s.chip

/-- The state after a step at time `t` whose effect on the gauge is `f`, and which writes nothing to the NVM: time has passed
to `t`, and the pins follow. The NVM and the queue are unchanged. -/
def after (t : Time) (f : Chip → Chip) (s : State) : State := { s with chip := settle (f (tick t s.chip)) }

/-- The kinds of state. The time, the mark of an internal reset, the output pins and the idle NVM interface are none of them:
every step sets them. -/
inductive Part
  | nvm | seq | ret | otp | img | jrn | meas | cal | aux | clk | tmp | prs | feedA | feedB | rail | pack | chg | share | alert
  | free | spurs | totals | gauge | learn | tag | inn | smb | can | host | caravan | pair
  deriving DecidableEq, Repr

/-- A kind of state is the same in two states. -/
def Part.same (p : Part) (a b : State) : Prop :=
  match p with
  | .nvm => b.nvm = a.nvm
  | .seq => b.chip.seq = a.chip.seq
  | .ret => b.chip.ret = a.chip.ret
  | .otp => b.chip.otp = a.chip.otp
  | .img => b.chip.img = a.chip.img
  | .jrn => b.chip.jrn = a.chip.jrn
  | .meas => b.chip.meas = a.chip.meas
  | .cal => b.chip.cal = a.chip.cal
  | .aux => b.chip.aux = a.chip.aux
  | .clk => b.chip.clk = a.chip.clk
  | .tmp => b.chip.tmp = a.chip.tmp
  | .prs => b.chip.prs = a.chip.prs
  | .feedA => b.chip.feedA = a.chip.feedA
  | .feedB => b.chip.feedB = a.chip.feedB
  | .rail => b.chip.rail = a.chip.rail
  | .pack => b.chip.pack = a.chip.pack
  | .chg => b.chip.chg = a.chip.chg
  | .share => b.chip.share = a.chip.share
  | .alert => b.chip.alert = a.chip.alert
  | .free => b.chip.free = a.chip.free
  | .spurs => b.chip.spurs = a.chip.spurs
  | .totals => b.chip.totals = a.chip.totals
  | .gauge => b.chip.gauge = a.chip.gauge
  | .learn => b.chip.learn = a.chip.learn
  | .tag => b.chip.tag = a.chip.tag
  | .inn => b.chip.inn = a.chip.inn
  | .smb => b.chip.smb = a.chip.smb
  | .can => b.chip.can = a.chip.can
  | .host => b.chip.host = a.chip.host
  | .caravan => b.chip.caravan = a.chip.caravan
  | .pair => b.chip.pair = a.chip.pair

/-- The step from `a` to `b` leaves every kind of state but those of `ps` unchanged, and the queue too. -/
def Keeps (ps : List Part) (a b : State) : Prop := b.pending = a.pending ∧ ∀ p, p ∉ ps → p.same a b

/-- A step that may lose the last feed changes the NVM and the image store in DEPOT at most, where a reprovisioning is given up
(R115). -/
def KeepsImage (a b : State) : Prop := a.chip.seq.mode ≠ .depot → b.nvm = a.nvm ∧ b.chip.img = a.chip.img

/-- The gauge that a reset leaves: the retention store `ret`, the OTP without a programming that waits or runs, and the requests
for a commit with their spacing are kept (Table 4.5, R789, R799); V_TOP is the one last known (R46, log entry 143), the gates have
been commanded off (R46), the target copy of an image check that is given up loses its MAGIC (R115, R117), and everything else has
its reset value. -/
def clearedChip (ret : Retention) (c : Chip) : Chip :=
  { now := c.now, free := c.free, ret := ret, otp := { c.otp with pending := none, busy := none }, spi := (abandonCheck c).spi
    jrn := { request := c.jrn.request, bitRequest := c.jrn.bitRequest, lastStart := c.jrn.lastStart, lastBit := c.jrn.lastBit }
    vTop := vTopMv c
    feedA.offAt := c.now, feedB.offAt := c.now, pack.offAt := c.now
    seq := { wokeFromShip := c.seq.wokeFromShip, fedSinceWake := c.seq.fedSinceWake } }

/-- The gauge at the beginning of CONFIGURE: what a reset leaves, with step 0 beginning (Table 4.2), the strap decoded, and the
spurs' conversions counted from here. -/
def freshChip (ret : Retention) (strap : Strap) (c : Chip) : Chip :=
  { clearedChip ret c with
    spurs := Vector.replicate 8 { readAt := c.now }
    seq := { mode := .configure, modeAt := c.now, step := 0, cfgStart := c.now, stepStart := c.now, strap := strap
             wokeFromShip := c.seq.wokeFromShip, fedSinceWake := c.seq.fedSinceWake } }

/-- The state that a step leaves when its effect brings the gauge to `c`: the pins follow, and the NVM takes what stands on its
interface. -/
def became (c : Chip) (s : State) : State := { chip := settle c, nvm := s.nvm.apply c.spi, pending := s.pending }

/-- The step of CONFIGURE whose end carries an input (Table 4.2). -/
def StepInput.step : StepInput → Nat
  | .wakeUp _ => 0
  | .image .. => 1
  | .selfTest .. => 2
  | .mirage .. => 3
  | .identity => 4
  | .precharge => 5
  | .guests => 6
  | .pair => 7
  | .handOver => 8

/-- A request arrives whole and passes orders 1 … 6 of Table 14.7 (R700): `w` sent it, `ks` is the key of its session's responses,
and the links and the session have moved on to `c'`. -/
def Accepted (d : Delivery) (c : Chip) (r : Request) (w : Who) (ks : Option (List Byte)) (c' : Chip) : Prop :=
  ∃ c0, receive d c = (some r, c0) ∧ ks = (sessOf r c0).map (·.ks) ∧ admitRequest r c0 = (.ok w, c')

/-- The gauge `c` after the response to a request is ready, which counts for R688 and R689; the session of a used-up counter has ended
(R685). -/
def answered (r : Request) (w : Who) (ks : Option (List Byte)) (status : Nat) (data : List Byte) (c : Chip) : Chip :=
  match w with
  | .pub => reply r ks status data (noteAnswer r status c)
  | .sess .. => counterSpent r (reply r ks status data (noteAnswer r status c))

/-- The command that carries requests with opcode `op` (Table 14.6). -/
def commandOf (t : Time) (d : Delivery) : Nat → Option Instr
  | 0x01 => some (.cmdRead t d) | 0x02 => some (.cmdGuestRead t d) | 0x03 => some (.cmdJournalRead t d)
  | 0x04 => some (.cmdResult t d) | 0x08 => some (.cmdSessionOpen t d) | 0x09 => some (.cmdSessionConfirm t d)
  | 0x0A => some (.cmdSessionClose t d) | 0x10 => some (.cmdSetTime t d) | 0x11 => some (.cmdShip t d)
  | 0x12 => some (.cmdClearSticky t d) | 0x13 => some (.cmdGuestRevoke t d) | 0x14 => some (.cmdGuestRestore t d)
  | 0x20 => some (.cmdDepot t d) | 0x21 => some (.cmdDepotExit t d) | 0x22 => some (.cmdRestart t d)
  | 0x23 => some (.cmdCalPoint t d) | 0x24 => some (.cmdTagRead t d) | 0x25 => some (.cmdTagWrite t d)
  | 0x28 => some (.cmdImageBegin t d) | 0x29 => some (.cmdImageWrite t d) | 0x2A => some (.cmdImageCheck t d)
  | _ => none

end Sys2Proof
end

