-- ==== Sys2Proof/Certificates/Slice0/Obligations.lean ====
section
/-! DEFINITION. The statements for the provers. Each is about every state; where a state no run reaches could break one, the
statement says what it supposes. -/

section

open Sys2Proof Sys2Proof.Machine

/-- State after reset (chapter 4): nothing is powered, nothing is stored, every pin is at its state in reset (Table 2.3), and
no command waits. That the NVM and the OTP are blank and the sticky record clear is the model's choice (log entries 6 and 7). -/
def Obligations.ResetIsTheUnpoweredGauge : Prop :=
  State.reset.chip.seq.mode = .unpowered ∧ State.reset.nvm = [] ∧ State.reset.pending = [] ∧
    State.reset.chip.otp.slot1 = .blank ∧ State.reset.chip.otp.slot2 = .blank ∧ State.reset.chip.ret.sticky = 0 ∧
    State.reset.chip.pins.faultN = .low ∧ State.reset.chip.pins.chgEn = false ∧ State.reset.chip.pins.spurs = 0 ∧
    State.reset.chip.pins.gateA = .sunk ∧ State.reset.chip.pins.gateB = .sunk ∧ State.reset.chip.pins.gateD = .sunk ∧
    State.reset.chip.pins.canTx = false ∧ Sound State.reset

/-- A step takes the command at the front of the queue and runs it on the state with the rest of the queue. -/
def Obligations.StepRunsTheFrontCommand : Prop :=
  ∀ (i : Instr) (rest : List Instr) (s : State), step { s with pending := i :: rest } = exec i { s with pending := rest }

/-- Every step of a sound state answers a next state, which is sound (R45 for the pins): the NVM contents stay in their canonical form, the
NVM interface is idle between commands, and the pins stand as the state of the gauge has them. Time does not run back, and the front
command alone leaves the queue. -/
def Obligations.EveryStepKeepsSound : Prop :=
  ∀ s : State, Sound s → ∃ u, step s = .next u ∧ Sound u ∧ s.chip.now ≤ u.chip.now ∧ u.pending = s.pending.tail

/-- With no command waiting the gauge sends one waiting frame of its CAN controller, or does nothing (log entry 10; R712:
a WAKE frame goes before any other; otherwise none that waits has a lower identifier than the one that is sent). -/
def Obligations.AnEmptyQueueSendsTheWinningFrame : Prop :=
  ∀ s : State, s.pending = [] → s.chip.spi = [] →
    (nextFrame s.chip = none → step s = .next { s with chip := settle s.chip }) ∧
    (∀ f, nextFrame s.chip = some f → f ∈ s.chip.can.queue ∧
      ((∃ g ∈ s.chip.can.queue, g.1.kind = 0x0C) → f.1.kind = 0x0C) ∧
      ((∀ g ∈ s.chip.can.queue, g.1.kind ≠ 0x0C) → ∀ g ∈ s.chip.can.queue, frameId f.1 ≤ frameId g.1) ∧
      ∃ u, step s = .next u ∧ u.chip.can.last = some f.1 ∧ Keeps [.can] s u)

/-- Power-on reset (R142, Table 4.5): its release, with V_TOP at 4.5 V and VCORE in regulation, begins CONFIGURE; its assertion
keeps the OTP, damaging a slot that is being programmed, and of the retention store all but the note of the pack, the sticky
record, the reset history, an armed SHIP request and LPT time; the store itself goes below 2.0 V (what it keeps above is the
model's reading, log entry 46). The values of the fields that begin anew and of which the spec states none are the model's choice
(log entry 7), here and in the resets that follow.

RST_N (R47): low for 5 µs or more resets a gauge that runs, shorter than 2 µs does nothing, and between the two the free
value of the pulse decides (log entry 95); its release begins CONFIGURE with the strap decoded (R48).

The sequencer watchdog (R143): a core that has not served it for 50 ms is reset, with F.WATCHDOG; and the core brown-out
(R144) and the RAM parity error reset it likewise, with their own causes and bits (Table 4.8). The reset joins those of the
critical class (R121), decodes the strap anew (R48), and takes the pins through their Reset column (R46, log entry 112).

The restart of CMD_RESTART (R697): CONFIGURE begins once the response has gone, or 10 ms after the command. -/
def Obligations.GaugeResetsRestartIt : Prop :=
  (∀ (s : State) (t : Time),
     (∀ vTop strap, s.chip.seq.mode = .unpowered → 4500 ≤ vTop →
       exec (.powerOnResetRelease t vTop true strap) s =
         .next (became { freshChip { s.chip.ret with cause := .powerOn, aborts := 0 } strap (tick t s.chip) with vTop := (vTop : Rat) } s)) ∧
     (∀ vTop ok strap, s.chip.spi = [] → s.chip.seq.mode ≠ .unpowered ∨ vTop < 4500 ∨ ok = false →
       exec (.powerOnResetRelease t vTop ok strap) s = .next (after t (fun c => c) s)) ∧
     (∀ vHold vTop, s.chip.seq.mode ≠ .ship → s.chip.seq.mode ≠ .unpowered → vHold < 3600 → vTop < 3600 →
       exec (.powerOnResetAssert t vHold vTop) s = .next (became { clearedChip
         { s.chip.ret with packKept := false, critical := [], armed := none, sticky := 0, restoreDue := true, first := none
                           last := none, cvBase := 0
                           cvRef := max s.chip.now t, cvRate := 0, cvSlew := 0, cvSet := false }
         { tick t s.chip with otp := spoilSlot s.chip.otp } with jrn := {}, seq := {}, vTop := (vTop : Rat) } s)) ∧
     (∀ vHold vTop, s.chip.spi = [] → 3600 ≤ vHold ∨ 3600 ≤ vTop ∨ s.chip.seq.mode = .ship ∨ s.chip.seq.mode = .unpowered →
       exec (.powerOnResetAssert t vHold vTop) s = .next (after t (fun c => c) s)) ∧
     (∀ mv, s.chip.spi = [] → mv < 2000 → s.chip.seq.mode = .unpowered ∨ s.chip.seq.mode = .ship →
       exec (.retentionLoss t mv) s = .next (after t (fun c => { c with ret := {} }) s)) ∧
     (∀ mv, s.chip.spi = [] → 2000 ≤ mv ∨ (s.chip.seq.mode ≠ .unpowered ∧ s.chip.seq.mode ≠ .ship) →
       exec (.retentionLoss t mv) s = .next (after t (fun c => c) s))) ∧
  (∀ (s : State) (t : Time), s.chip.spi = [] →
     (∀ lowNs, running s.chip = true → us 5 ≤ lowNs →
       exec (.rstNLow t lowNs) s = .next (became { clearedChip { s.chip.ret with cause := .rstPin } (tick t s.chip) with
         seq := { mode := .reset, modeAt := max s.chip.now t, wokeFromShip := s.chip.seq.wokeFromShip
                  fedSinceWake := s.chip.seq.fedSinceWake } } s)) ∧
     (∀ lowNs, running s.chip = true → us 2 ≤ lowNs → lowNs < us 5 → ∃ u, exec (.rstNLow t lowNs) s = .next u ∧
       u.chip.free = s.chip.free + 1 ∧ (u.chip.seq.mode = .reset ↔ Config.pulseActs s.chip.free = true) ∧
       (Config.pulseActs s.chip.free = true ∨ Keeps [.free] s u)) ∧
     (∀ lowNs, lowNs < us 2 ∨ running s.chip = false → exec (.rstNLow t lowNs) s = .next (after t (fun c => c) s)) ∧
     (∀ strap, s.chip.seq.mode = .reset → exec (.rstNRelease t strap) s =
         .next (became (freshChip { s.chip.ret with cause := .rstPin } strap (tick t s.chip)) s)) ∧
     (∀ strap, s.chip.seq.mode ≠ .reset → exec (.rstNRelease t strap) s = .next (after t (fun c => c) s))) ∧
  (∀ (s : State) (t : Time) (strap : Strap), (running s.chip = false → s.chip.spi = [] → ∀ ns,
       let idle (i : Instr) : Prop := exec i s = .next (after t (fun c => c) s)
       idle (.watchdogTimeout t ns strap) ∧ idle (.coreBrownout t ns strap) ∧ idle (.ramParityError t strap)) ∧
     (running s.chip = true →
     let reset (cause : ResetCause) (bit : Nat) : Chip := { setFault bit (freshChip
       { s.chip.ret with cause := cause, critical := pushTime (minutes 10) (max s.chip.now t) s.chip.ret.critical } strap
       (tick t s.chip)) with atReset := true }
     (∀ ns, ms 50 ≤ ns → exec (.watchdogTimeout t ns strap) s = .next (became (reset .watchdog F.watchdog) s)) ∧
     (∀ ns, s.chip.spi = [] → ns < ms 50 → exec (.watchdogTimeout t ns strap) s = .next (after t (fun c => c) s)) ∧
     (∀ ns, us 10 < ns → exec (.coreBrownout t ns strap) s = .next (became (reset .coreBrownout F.coreBrownout) s)) ∧
     (∀ ns, s.chip.spi = [] → ns ≤ us 10 → exec (.coreBrownout t ns strap) s = .next (after t (fun c => c) s)) ∧
     exec (.ramParityError t strap) s = .next (became (reset .ramParity F.ramParity) s))) ∧
  (∀ (s : State) (t t0 : Time) (strap : Strap), (s.chip.spi = [] → running s.chip = false ∨ s.chip.seq.restartAt = none →
       ∀ sent, exec (.restartAfterResponse t sent strap) s = .next (after t (fun c => c) s)) ∧
     (running s.chip = true → s.chip.seq.restartAt = some t0 →
     let anew := became { freshChip { s.chip.ret with cause := .command } strap (tick t s.chip) with atReset := true } s
     (exec (.restartAfterResponse t true strap) s = .next anew) ∧
     (t0 + ms 10 ≤ max s.chip.now t → exec (.restartAfterResponse t false strap) s = .next anew) ∧
     (s.chip.spi = [] → max s.chip.now t < t0 + ms 10 →
       exec (.restartAfterResponse t false strap) s = .next (after t (fun c => c) s))))

/-- SHIP requests (R131, R133, R134): SHIP_N low for 10 ms arms a request by its pin; outside PARKED, and in LIMP with a feed
accepted, that is all; a low pulse shorter than 1 ms is ignored, and for one between the two the free value of the pulse decides
(log entry 95). A request stands while the pin is low or its 10 min run, and lapses when neither holds it.

A SHIP request in PARKED, and in LIMP with no feed accepted (R133), starts the sequence at once with its step 1, unless one runs:
every slot that is not running is dropped, and nothing else but the links' beacons and the partner's records follows. Between 1 ms
and 10 ms the free value of the pulse decides whether the pin requests (log entry 95). -/
def Obligations.ShipRequestsAreTakenArmedAndLapse : Prop :=
  (∀ (s : State) (t : Time), s.chip.spi = [] →
     let arm (c : Chip) : Chip := { c with ret.armed := some { byPin := true, until_ := (c.ret.armed.getD ⟨false, 0⟩).until_ } }
     (∀ ns, running s.chip = true → ms 10 ≤ ns → s.chip.seq.mode ≠ .parked → (s.chip.seq.mode = .limp → anyFeed s.chip = true) →
       exec (.shipNRequest t ns) s = .next (after t arm s)) ∧
     (∀ ns, running s.chip = true → ms 1 ≤ ns → ns < ms 10 → s.chip.seq.mode ≠ .parked →
       (s.chip.seq.mode = .limp → anyFeed s.chip = true) → exec (.shipNRequest t ns) s = .next (after t (fun c =>
         let d : Chip := { c with free := c.free + 1 }
         if Config.pulseActs c.free then arm d else d) s)) ∧
     (∀ ns, ns < ms 1 ∨ running s.chip = false → exec (.shipNRequest t ns) s = .next (after t (fun c => c) s)) ∧
     (∀ a, s.chip.ret.armed = some a → ∀ high, exec (.shipRequestLapse t high) s = .next (after t (fun c =>
       { c with ret.armed := if (a.byPin && !high) = true ∨ c.now ≤ a.until_ then some { a with byPin := a.byPin && !high }
                             else none }) s)) ∧
     (∀ high, s.chip.ret.armed = none → exec (.shipRequestLapse t high) s = .next (after t (fun c => c) s))) ∧
  (∀ (s : State) (t : Time) (ns : Nat), s.chip.spi = [] →
     s.chip.seq.mode = .parked ∨ (s.chip.seq.mode = .limp ∧ anyFeed s.chip = false) → ms 1 ≤ ns →
     let acts : Prop := ms 10 ≤ ns ∨ Config.pulseActs s.chip.free = true
     ∃ u, exec (.shipNRequest t ns) s = .next u ∧ u.chip.free = (if ms 10 ≤ ns then s.chip.free else s.chip.free + 1) ∧
       (acts ∨ Keeps [.free] s u) ∧ (acts → (u.chip.ret.armed.elim false (·.byPin)) = true ∧
         (s.chip.seq.shutStep = 0 → u.chip.seq = { s.chip.seq with
           shutStep := 1, shutNow := .shipN, shutStart := max s.chip.now t, committed := false } ∧
           Keeps [.seq, .ret, .inn, .can, .pair, .free] s u) ∧
         (s.chip.seq.shutStep ≠ 0 → Keeps [.ret, .free] s u)))

/-- The steps of a shut-down sequence (R139, Table 4.4): a step that has ended gives way to the next; the commit point (R138)
is the beginning of step 5; changed guest records are written back before step 3, LEAVING is sent at step 4, the spurs go off
and the links fall silent at step 6; step 8 ends in SHIP, with the cause and outcome noted and everything but the retention store, the
OTP and the requests for a commit reset (to the values of log entry 7 where the spec states none). -/
def Obligations.ShutdownStepsRunInOrder : Prop :=
  ∀ (s : State) (t : Time), s.chip.spi = [] →
    (s.chip.seq.shutStep = 1 → exec (.shutdownStepComplete t) s = .next (after t (fun c => { c with seq.shutStep := 2 }) s)) ∧
    (s.chip.seq.shutStep = 7 → exec (.shutdownStepComplete t) s = .next (after t (fun c => { c with seq.shutStep := 8 }) s)) ∧
    (s.chip.seq.shutStep = 6 → exec (.shutdownStepComplete t) s =
      .next (after t (fun c => shutFeed .b (shutFeed .a (packOff .off 0x0D { c with seq.shutStep := 7 }))) s)) ∧
    (s.chip.seq.shutStep = 0 → exec (.shutdownStepComplete t) s = .next (after t (fun c => c) s)) ∧
    (∀ k, s.chip.seq.shutStep = k → 1 ≤ k → k ≤ 7 → shutOver k (tick t s.chip) = false →
      exec (.shutdownStepComplete t) s = .next (after t (fun c => c) s)) ∧
    (s.chip.seq.shutStep = 4 → ∃ u, exec (.shutdownStepComplete t) s = .next u ∧ u.chip.seq.shutStep = 5 ∧
      u.chip.seq.committed = true ∧ Keeps [.seq, .ret, .jrn, .alert] s u) ∧
    (s.chip.seq.shutStep = 2 → slotsOver s.chip = true → ∃ u, exec (.shutdownStepComplete t) s = .next u ∧
      u.chip.seq = { s.chip.seq with shutStep := 3 } ∧ (∀ r ∈ u.chip.inn.rooms, r.dirty = false) ∧
      u.chip.feedA = s.chip.feedA ∧ u.chip.feedB = s.chip.feedB ∧ u.chip.pack = s.chip.pack ∧ u.chip.spurs = s.chip.spurs) ∧
    (s.chip.seq.shutStep = 3 → shutWriteOver (tick t s.chip) = true → ∃ u, exec (.shutdownStepComplete t) s = .next u ∧
      u.chip.seq = { s.chip.seq with shutStep := 4 } ∧ (linkRuns s.chip = true → u.chip.pair.ownLeaving = true) ∧
      Keeps [.seq, .pair] s u) ∧
    (s.chip.seq.shutStep = 5 → shutOver 5 s.chip = true → ∃ u, exec (.shutdownStepComplete t) s = .next u ∧
      u.chip.seq = { s.chip.seq with shutStep := 6 } ∧ u.chip.host = { s.chip.host with answers := false } ∧
      u.chip.pins.spurs = 0 ∧ u.chip.pins.chgEn = false ∧ Keeps [.seq, .gauge, .chg, .host, .spurs] s u) ∧
    (s.chip.seq.shutStep = 8 → ∃ u, exec (.shutdownStepComplete t) s = .next u ∧ u.chip.seq.mode = .ship ∧
      u.chip.seq.shipSince = max s.chip.now t ∧ u.chip.ret.shutCause = s.chip.seq.shutNow ∧ u.chip.ret.shutOutcome = .completed ∧
      u.chip.ret.armed = none ∧ u.chip.ret.wakeArmed = !lockoutDue s.chip) ∧
    (s.chip.seq.shutStep = 8 → lockoutDue s.chip = false → exec (.shutdownStepComplete t) s = .next (became { clearedChip
      { s.chip.ret with shutCause := s.chip.seq.shutNow, shutOutcome := .completed, armed := none, wakeArmed := true }
      (tick t s.chip) with
        seq := { mode := .ship, modeAt := max s.chip.now t, shipSince := max s.chip.now t
                 wokeFromShip := s.chip.seq.wokeFromShip, fedSinceWake := s.chip.seq.fedSinceWake } } s))

/-- SHIP ends by the wake watcher alone (R136, R137): an input that stays above 8.0 V for 50 ms, counted from the entry of SHIP at the
earliest, leads to CONFIGURE, with the cause and an immediate wake noted; a lower or shorter one does nothing; and no other command
ends SHIP. -/
def Obligations.OnlyTheWakeWatcherEndsShip : Prop :=
  (∀ (s : State) (t : Time) (feed : FeedId) (mv : Int) (ns : Nat) (strap : Strap), s.chip.spi = [] → s.chip.seq.mode = .ship →
    (s.chip.ret.wakeArmed = true → 8000 < mv → ms 50 ≤ min ns (max s.chip.now t - s.chip.seq.shipSince) →
      ∃ u, exec (.shipWake t feed mv ns strap) s = .next u ∧ u.chip.seq.mode = .configure ∧ u.chip.seq.step = 0 ∧
        u.chip.seq.strap = strap ∧ u.nvm = s.nvm ∧ u.pending = s.pending ∧ u.chip.ret = { s.chip.ret with
          cause := .shipWake
          shutOutcome := if max s.chip.now t - s.chip.seq.shipSince ≤ ns ∧ s.chip.ret.shutOutcome = .completed
            then .wokenAtOnce else s.chip.ret.shutOutcome }) ∧
    (mv ≤ 8000 ∨ min ns (max s.chip.now t - s.chip.seq.shipSince) < ms 50 →
      exec (.shipWake t feed mv ns strap) s = .next (after t (fun c => c) s))) ∧
  ∀ (i : Instr) (s u : State), s.chip.seq.mode = .ship → exec i s = .next u → u.chip.seq.mode ≠ .ship →
    ∃ t feed mv ns strap, i = .shipWake t feed mv ns strap ∧ 8000 < mv ∧ ms 50 ≤ ns ∧ u.chip.seq.mode = .configure

/-- The wake watcher's lockout (R162): a watcher that a lockout has disarmed is armed again by 1 s below 8.0 V on both inputs, timed
from the entry of SHIP at the earliest (log entry 93); anything less leaves it.

The supplies collapse (R141, R164): outside a shut-down sequence the power-loss commit runs, as far as the first `n` writes reach,
and within one the writes of the commit that runs; the gauge is unpowered, and of the store the power-on part of Table 4.5 is lost: the
reset history, an armed SHIP request, caravan time and the sticky record. Before the journal has been opened nothing is written but a MAGIC
that a check gives up. With VSUP at 4.5 V or more, or in SHIP or without power, nothing happens. -/
def Obligations.LockoutReleaseAndSupplyCollapse : Prop :=
  (∀ (s : State) (t : Time), s.chip.spi = [] → s.chip.seq.mode = .ship →
     (∀ strap feed mv ns, s.chip.ret.wakeArmed = false → exec (.shipWake t feed mv ns strap) s = .next (after t (fun c => c) s)) ∧
     (∀ mA mB ns, mA < 8000 → mB < 8000 → sec 1 ≤ min ns (max s.chip.now t - s.chip.seq.shipSince) →
       exec (.wakeLockoutRelease t mA mB ns) s = .next (after t (fun c => { c with ret.wakeArmed := true }) s)) ∧
     (∀ mA mB ns, 8000 ≤ mA ∨ 8000 ≤ mB ∨ min ns (max s.chip.now t - s.chip.seq.shipSince) < sec 1 →
       exec (.wakeLockoutRelease t mA mB ns) s = .next (after t (fun c => c) s))) ∧
  (∀ (s : State) (t : Time) (v : Int) (n : Nat), s.chip.spi = [] →
     (running s.chip = true → v < 4500 → ∃ u, exec (.supplyCollapse t v n) s = .next u ∧ u.chip.seq.mode = .unpowered ∧ u.chip.seq = {} ∧
       u.chip.jrn = {} ∧ u.chip.ret.packKept = false ∧
       u.chip.ret.critical = [] ∧ u.chip.ret.armed = none ∧ u.chip.ret.cvSet = false ∧
       u.chip.otp = { spoilSlot s.chip.otp with pending := none, busy := none } ∧ u.pending = s.pending ∧
       u.chip.ret.sticky = 0 ∧ (shutting s.chip = false → u.chip.ret.shutCause = .powerLoss) ∧
       (shutting s.chip = true → u.chip.ret.shutCause = s.chip.ret.shutCause) ∧
       (s.chip.host.pend = none → s.chip.jrn.opened = false → s.chip.jrn.run = none → s.chip.inn.rooms = [] → u.nvm = s.nvm) ∧
       (s.chip.host.pend = none → shutting s.chip = false → s.chip.jrn.opened = true → seqSpent s.chip = false →
         (cfg s.chip).board.fram = false → linkRuns s.chip = false →
         u.nvm = s.nvm.apply (((beginCommit false (max s.chip.now t) s.nvm { tick t s.chip with jrn.run := none }).jrn.run.elim []
           (·.writes)).take n)) ∧
       (s.chip.host.pend = none → shutting s.chip = true → (cfg s.chip).board.fram = false →
         u.nvm = s.nvm.apply ((s.chip.jrn.run.elim [] (·.writes)).take n))) ∧
     (4500 ≤ v ∨ running s.chip = false → exec (.supplyCollapse t v n) s = .next (after t (fun c => c) s)))

/-- CONFIGURE runs its steps in the order of Table 4.2 (R123): outside CONFIGURE, and with the result of another step than the
present one, nothing happens; a step that exceeds its maximum is a watchdog reset at which the strap is decoded anew (Table 4.3);
each step gives way to the next once it has ended.

Step 2 (Table 4.3): the four block pairs of each channel set its tracked offset, here that of V_BUS (R179); a self-test without
a failed bit leads to step 3; one with a failed bit sets F.SELF_TEST and leads towards LIMP.

The end of step 8 (Table 4.1, R129): while it is held for a feed on its way, the feeds it is held for are noted (log entry
106); a gauge with a feed accepted is COUPLED; one without ends CONFIGURE in PARKED, and one whose pack does not supply VBUS
leaves its spurs and its paths untouched. No step runs any longer. -/
def Obligations.ConfigureRunsItsStepsToTheHandOver : Prop :=
  (∀ (s : State) (t : Time) (strap : Strap), s.chip.spi = [] →
     let done (inp : StepInput) : Outcome := exec (.configureStepComplete t ⟨strap, inp⟩) s
     let idle : State := after t (fun c => c) s
     (∀ inp, s.chip.seq.mode ≠ .configure → done inp = .next idle) ∧
     (s.chip.seq.mode = .configure → stepOverrun (tick t s.chip) = true → ∀ inp,
       done inp = .next (became (watchdogReset strap (tick t s.chip)) s)) ∧
     (s.chip.seq.mode = .configure → stepOverrun (tick t s.chip) = false →
       (∀ inp, inp.step ≠ s.chip.seq.step → done inp = .next idle) ∧
       (∀ hz, s.chip.seq.step = 0 → ∃ u, done (.wakeUp hz) = .next u ∧ u.chip.seq.step = 1 ∧
         u.chip.seq.stepStart = max s.chip.now t ∧ u.chip.clk.measured20 = decide (hz < 30000000) ∧
         u.chip.meas.iP.running = true ∧ Keeps [.seq, .meas, .clk, .gauge] s u) ∧
       (∀ vH vT a b, s.chip.seq.step = 1 → ∃ u, done (.image vH vT a b) = .next u ∧ u.chip.seq.step = 2 ∧
         u.chip.seq.stepStart = max s.chip.now t ∧
         u.chip.img.loaded = (loadImage vH vT s.nvm (tick t s.chip)).img.loaded ∧
         (∀ k, limpAfterImage (loadImage vH vT s.nvm (tick t s.chip)) = some k → u.chip.seq.limpPath = some k) ∧
         (limpAfterImage (loadImage vH vT s.nvm (tick t s.chip)) = none → u.chip.seq.limpPath = s.chip.seq.limpPath) ∧
         (fitted u.chip 0 = false → u.chip.feedA.st = .absent) ∧ (fitted u.chip 1 = false → u.chip.feedB.st = .absent) ∧
         u.nvm = s.nvm) ∧
       (∀ ties, s.chip.seq.step = 3 → ∃ u, done (.mirage ties) = .next u ∧
         u.chip.seq.step = (if s.chip.seq.limpPath.isSome then 5 else 4) ∧ u.chip.seq.stepStart = max s.chip.now t ∧
         (2000 ≤ s.chip.seq.bus3.getD (busFastMv s.chip) → u.chip.seq.notes = s.chip.seq.notes ||| 1 ∧ u.chip.rail = s.chip.rail) ∧
         (s.chip.seq.bus3.getD (busFastMv s.chip) < 2000 → u.chip.seq.notes = s.chip.seq.notes ∧
           u.chip.rail.bleed = satR 16 (busMv s.chip))) ∧
       (s.chip.seq.step = 4 → identityOver (tick t s.chip) = false → done .identity = .next idle) ∧
       (s.chip.seq.step = 4 → identityOver (tick t s.chip) = true → ∃ u, done .identity = .next u ∧
         u.chip.seq.step = (if prechargeRuns s.chip then 5 else 6) ∧ u.chip.seq.stepStart = max s.chip.now t ∧ Keeps [.seq] s u) ∧
       (s.chip.seq.step = 5 → prechargeOver s.chip = false → done .precharge = .next idle) ∧
       (s.chip.seq.step = 5 → prechargeOver s.chip = true → s.chip.seq.limpPath = none → ∃ u, done .precharge = .next u ∧
         u.chip.seq.step = 6 ∧ u.chip.seq.stepStart = max s.chip.now t ∧ Keeps [.seq] s u) ∧
       (s.chip.seq.step = 5 → prechargeOver s.chip = true → ∀ k, s.chip.seq.limpPath = some k → ∃ u, done .precharge = .next u ∧
         u.chip.seq.mode = .limp ∧ u.chip.seq.limp = some k ∧ u.chip.seq.limpPath = none ∧ u.chip.seq.step = 15 ∧
         u.chip.pins.faultN = .low) ∧
       (s.chip.seq.step = 6 → ∃ u, done .guests = .next u ∧ u.chip.seq.step = (if pairOver u.chip then 8 else 7) ∧
         u.chip.seq.stepStart = max s.chip.now t) ∧
       (s.chip.seq.step = 7 → pairOver s.chip = false → done .pair = .next idle) ∧
       (s.chip.seq.step = 7 → pairOver s.chip = true → done .pair =
         .next (after t (fun c => { c with seq := { c.seq with step := 8, stepStart := c.now } }) s)))) ∧
  (∀ (s : State) (t : Time) (strap : Strap) (failed : BitVec 15) (zero : ZeroPhase), s.chip.spi = [] →
     s.chip.seq.mode = .configure → s.chip.seq.step = 2 → stepOverrun (tick t s.chip) = false →
     ∃ u, exec (.configureStepComplete t ⟨strap, .selfTest failed zero⟩) s = .next u ∧ u.chip.seq.selfTest = failed ∧
       u.chip.seq.step = 3 ∧ u.chip.meas.vBus.offset = zeroOffset .vBus zero.vBus ∧
       (failed = 0 → u.chip.seq.limpPath = s.chip.seq.limpPath) ∧
       (failed ≠ 0 → u.chip.ret.sticky.getLsbD F.selfTest = true ∧
         u.chip.seq.limpPath = some (s.chip.seq.limpPath.getD .selfTest)) ∧
       Keeps [.seq, .ret, .jrn, .meas, .feedA, .feedB, .alert, .spurs, .inn] s u) ∧
  (∀ (s : State) (t : Time) (strap : Strap), s.chip.spi = [] → s.chip.seq.mode = .configure → s.chip.seq.step = 8 →
     stepOverrun (tick t s.chip) = false →
     (step8Held s.chip = true → exec (.configureStepComplete t ⟨strap, .handOver⟩) s =
       .next (after t (fun c => { c with seq := { c.seq with holdA := heldForA c, holdB := heldForB c } }) s)) ∧
     (anyFeed s.chip = true → ∃ u, exec (.configureStepComplete t ⟨strap, .handOver⟩) s = .next u ∧ u.chip.seq.mode = .coupled ∧
       u.chip.seq.step = 15 ∧ u.chip.seq.cfgEnd = some (max s.chip.now t) ∧ Keeps [.nvm, .seq, .ret, .jrn, .meas, .pack, .chg,
         .share, .alert, .spurs, .gauge, .learn, .tag, .inn, .can, .host, .pair] s u) ∧
     (anyFeed s.chip = false → step8Held s.chip = false → ∃ u, exec (.configureStepComplete t ⟨strap, .handOver⟩) s = .next u ∧
       u.chip.seq.mode = .parked ∧ u.chip.seq.step = 15 ∧ u.chip.seq.cfgEnd = some (max s.chip.now t)) ∧
     (anyFeed s.chip = false → packConnected s.chip.pack.st = false → step8Held s.chip = false →
       ∃ u, exec (.configureStepComplete t ⟨strap, .handOver⟩) s = .next u ∧ u.chip.seq.mode = .parked ∧ u.chip.seq.step = 15 ∧
         u.chip.seq.spursOn = s.chip.seq.spursOn ∧ u.chip.spurs = s.chip.spurs ∧ Keeps [.nvm, .seq, .ret, .jrn, .meas, .pack,
           .chg, .share, .alert, .gauge, .learn, .tag, .inn, .can, .host, .pair] s u))

/-- OTP programming (R94, R95): a pending hash goes to the lowest-numbered blank slot once VHOLD is within 0.5 V of its charge
level, and not before; its end fixes that slot. Where nothing is pending or is being programmed nothing happens. -/
def Obligations.OtpProgrammingFixesTheLowestBlankSlot : Prop :=
  ∀ (s : State) (t : Time), s.chip.spi = [] →
    (∀ vHold vTop h, running s.chip = true → s.chip.otp.pending = some h → s.chip.otp.busy = none →
      vHoldClose vHold vTop = true → exec (.otpProgramStart t vHold vTop) s = .next (after t (fun c =>
        { c with otp.busy := if c.otp.slot1 = .blank then some 1 else if c.otp.slot2 = .blank then some 2 else none }) s)) ∧
    (∀ vHold vTop, running s.chip = false ∨ s.chip.otp.pending = none ∨ s.chip.otp.busy ≠ none ∨ vHoldClose vHold vTop = false →
      exec (.otpProgramStart t vHold vTop) s = .next (after t (fun c => c) s)) ∧
    (s.chip.otp.pending = none ∨ s.chip.otp.busy = none → exec (.otpProgramDone t) s = .next (after t (fun c => c) s)) ∧
    (∀ h, s.chip.otp.pending = some h → s.chip.otp.busy = some 1 → exec (.otpProgramDone t) s =
      .next (after t (fun c => { c with otp := { slot1 := .fixed h, slot2 := c.otp.slot2 } }) s)) ∧
    (∀ h, s.chip.otp.pending = some h → s.chip.otp.busy = some 2 → exec (.otpProgramDone t) s =
      .next (after t (fun c => { c with otp := { slot1 := c.otp.slot1, slot2 := .fixed h } }) s))

/-- The OTP's invariant: what is pending or being programmed goes with two slots of which none is fixed, and a slot that is
being programmed is blank. -/
def Obligations.FixedOtpSlotsNeverChange : Prop :=
  let Ok (o : Otp) : Prop := (o.busy.isSome = true → o.pending.isSome = true) ∧
    (o.pending.isSome = true → fixedHash o.slot1 o.slot2 = none) ∧
    (o.busy = some 1 → o.slot1 = .blank) ∧ (∀ k, o.busy = some k → k ≠ 1 → o.slot2 = .blank)
  ∀ (s u : State), Ok s.chip.otp → step s = .next u →
    Ok u.chip.otp ∧ ((fixedHash s.chip.otp.slot1 s.chip.otp.slot2).isSome = true →
      u.chip.otp.slot1 = s.chip.otp.slot1 ∧ u.chip.otp.slot2 = s.chip.otp.slot2)

/-- LIMP (Table 4.6): the first feed above 8.0 V for 50 ms decides the feed set by 18 V, once; V_PACK below the floor for 4 s
starts a shut-down, unless one runs, and nothing else does there. -/
def Obligations.LimpDecidesItsFeedSetAndFloor : Prop :=
  ∀ (s : State) (t : Time), s.chip.spi = [] →
    (∀ feed mv ns a b, s.chip.seq.mode = .limp → s.chip.seq.limpSet24 = none → 8000 < mv → ms 50 ≤ ns →
      s.chip.seq.modeAt + ms 50 ≤ max s.chip.now t → ∃ u, exec (.limpFeedSetDecided t feed mv ns a b) s = .next u ∧
        u.chip.seq.limpSet24 = some (decide ((18000 : Int) ≤ match feed with | .a => a | .b => b)) ∧
        Keeps [.seq, .ret, .jrn, .meas, .feedA, .feedB, .rail, .pack, .chg, .alert, .spurs, .gauge, .learn, .tag, .inn, .can,
          .host, .pair] s u) ∧
    (∀ feed mv ns a b, s.chip.seq.mode ≠ .limp ∨ s.chip.seq.limpSet24 ≠ none ∨ mv ≤ 8000 ∨ ns < ms 50 ∨
        max s.chip.now t < s.chip.seq.modeAt + ms 50 →
      exec (.limpFeedSetDecided t feed mv ns a b) s = .next (after t (fun c => c) s)) ∧
    (∀ t0, s.chip.seq.mode = .limp → s.chip.prs.present = true → s.chip.seq.shutStep = 0 →
      s.chip.pack.hold.floor = some t0 → t0 + sec 4 ≤ max s.chip.now t → ∃ u, exec (.limpFloor t () ()) s = .next u ∧
        u.chip.seq.shutStep = 1 ∧ u.chip.seq.shutNow = .limpFloor ∧ Keeps [.seq, .inn, .can, .pair] s u) ∧
    (s.chip.seq.mode ≠ .limp ∨ s.chip.prs.present = false ∨ s.chip.seq.shutStep ≠ 0 ∨ (∀ t0, s.chip.pack.hold.floor = some t0 →
      max s.chip.now t < t0 + sec 4) → exec (.limpFloor t () ()) s = .next (after t (fun c => c) s))

/-- End of discharge (R469, R470, R508): the fourth second in a row below V_SHUT declares it, with SOC 0; a second above it
begins the count anew, one that yields no compensated voltage leaves it, and before its second is over nothing is judged.

End of charge (R467, R468): the 180th taper second in a row declares it: charging ends with cause 0x02, SOC is 1 and charging
does not start again while it holds; a second that fails the test starts the count anew, and one without a word counts neither way.
Out of CHARGE, in LIMP, during a SPAN point and before its second is over nothing is judged. -/
def Obligations.EndsOfDischargeAndOfCharge : Prop :=
  (∀ (s : State) (t : Time), s.chip.spi = [] →
     let g := s.chip.gauge
     let now := max s.chip.now t
     let judged : Prop := g.formed = true ∧ s.chip.prs.present = true ∧ inLimp s.chip = false ∧ s.chip.pack.st ≠ .charge ∧
       g.eodAt + sec 1 ≤ now
     let volt := eodVolt { tick t s.chip with gauge.eodAt := now }
     (¬judged → exec (.endOfDischargeDeclared t) s = .next (after t (fun c => c) s)) ∧
     (judged → volt = none →
       exec (.endOfDischargeDeclared t) s = .next (after t (fun c => { c with gauge.eodAt := c.now }) s)) ∧
     (judged → ∀ v, volt = some v →
       let n := if v * 1000 < ((cfg s.chip).pack.vShut : Rat) then satInc 7 g.eodN else 0
       (n < 4 ∨ g.eod = true → exec (.endOfDischargeDeclared t) s = .next (after t (fun c =>
         { c with gauge := { c.gauge with eodAt := c.now, vC := v, eodN := n } }) s)) ∧
       (4 ≤ n → g.eod = false → ∃ u, exec (.endOfDischargeDeclared t) s = .next u ∧ u.chip.gauge.eod = true ∧
         u.chip.learn.soc = 0 ∧ u.chip.gauge.vC = v ∧ u.chip.gauge.eodN = n ∧
         (s.chip.seq.mode = .parked → s.chip.seq.shutStep = 0 → u.chip.seq.shutNow = .empty) ∧
         Keeps [.seq, .ret, .jrn, .pack, .chg, .alert, .gauge, .learn, .tag, .inn, .can, .pair] s u))) ∧
  (∀ (s : State) (t : Time), s.chip.spi = [] →
     let judged : Prop := charging s.chip = true ∧ s.chip.chg.spanPoint = false ∧ inLimp s.chip = false ∧
       s.chip.gauge.eocAt + sec 1 ≤ max s.chip.now t
     let c0 := { tick t s.chip with gauge.eocAt := max s.chip.now t }
     (¬judged → exec (.endOfChargeDeclared t) s = .next (after t (fun c => c) s)) ∧
     (judged → eocSecond c0 = none → exec (.endOfChargeDeclared t) s =
       .next (after t (fun c => { c with gauge := { c.gauge with eocAt := c.now } }) s)) ∧
     (judged → eocSecond c0 = some false → exec (.endOfChargeDeclared t) s = .next (after t (fun c =>
       { c with gauge := { c.gauge with eocAt := c.now, eocN := 0, eocPend := false } }) s)) ∧
     (judged → eocSecond c0 = some true → s.chip.gauge.eocN < 179 → exec (.endOfChargeDeclared t) s = .next (after t (fun c =>
       { c with gauge := { c.gauge with eocAt := c.now, eocN := c.gauge.eocN + 1, eocPend := true } }) s)) ∧
     (judged → eocSecond c0 = some true → 179 ≤ s.chip.gauge.eocN → ∃ u, exec (.endOfChargeDeclared t) s = .next u ∧
       u.chip.pack.st = .standby ∧ u.chip.chg.lastEnd.1 = 2 ∧ u.chip.chg.eoc = true ∧ u.chip.gauge.eoc = true ∧
       u.chip.gauge.z = 1 ∧ u.chip.gauge.p.zz = 25 / 1000000 ∧ u.chip.gauge.p.zf = 0 ∧ u.chip.gauge.p.zs = 0 ∧
       u.chip.learn.soc = 1 ∧ u.chip.pins.chgEn = false ∧ Keeps [.ret, .jrn, .pack, .chg, .alert, .gauge, .learn, .tag] s u))

/-- The periodic writes (R523, R526): 15 min after the last one a journal commit is requested, and the changed records of rooms
that are not pinned are written back (R633); with the sequence numbers spent F.NVM_WRITE is set instead (R799). 4 h after the last
tag write one falls due, waits during an exchange (R588), or is counted as skipped where the tag is not authenticated or the image
carries no certificate; not before.

A journal commit (R789, R796, R797): one that is due takes the slot after the head with the next sequence number, carries
every request, and writes the PENDING mark first and the COMMIT mark last. Before one is due nothing happens, but that a request for
new bits sets F.NVM_WRITE where the sequence numbers are spent (R799).

The writes of a commit (R797, R798): each good write stands in the NVM and the next follows; after the last good one the
slot is the head and the commit is counted; a commit with a bad write, or with a write of 10 ms, sets F.NVM_WRITE, is counted as
failed, and is repeated once in the slot after the head, which stays. Without a commit nothing happens. -/
def Obligations.JournalCommitsTakeTheNextSlot : Prop :=
  (∀ (s : State) (t : Time), s.chip.spi = [] →
     let now := max s.chip.now t
     let idle (i : Instr) : Prop := exec i s = .next (after t (fun c => c) s)
     let works : Prop := running s.chip = true ∧ s.chip.seq.mode ≠ .configure
     let spent := seqSpent s.chip
     let journal : Prop := works ∧ s.chip.learn.jrnAt + minutes 15 ≤ now
     let tag : Prop := works ∧ s.chip.learn.tagAt + minutes 240 ≤ now
     let writes : Prop := (s.chip.tag.verdict = .authenticated ∨ exchanging s.chip.tag.stage = true) ∧ (cfg s.chip).cert ≠ []
     (¬journal → idle (.periodicJournalCommit t)) ∧
     (journal → spent = false → s.chip.inn.rooms = [] → exec (.periodicJournalCommit t) s =
       .next (after t (fun c => { c with learn.jrnAt := c.now, jrn.request := true }) s)) ∧
     (journal → ∃ u, exec (.periodicJournalCommit t) s = .next u ∧ u.chip.learn = { s.chip.learn with jrnAt := now } ∧
       (spent = false → u.chip.jrn = { s.chip.jrn with request := true } ∧ u.chip.ret = s.chip.ret) ∧
       (spent = true → u.chip.ret.sticky.getLsbD F.nvmWrite = true) ∧
       (s.chip.inn.persist = false → u.nvm = s.nvm) ∧ Keeps [.nvm, .ret, .jrn, .alert, .learn, .inn] s u) ∧
     (¬tag → idle (.periodicTagWrite t)) ∧
     (tag → ∃ u, exec (.periodicTagWrite t) s = .next u ∧
       (writes → u.chip.tag = { s.chip.tag with due := s.chip.tag.due ||| (1#9 <<< 8) } ∧ u.chip.learn = s.chip.learn) ∧
       (¬writes → u.chip.tag = { s.chip.tag with wSkipped := satInc 127 s.chip.tag.wSkipped } ∧
         u.chip.learn = { s.chip.learn with tagAt := now }) ∧
       (spent = false → u.chip.jrn = { s.chip.jrn with request := true } ∧ u.chip.ret = s.chip.ret ∧
         u.chip.alert = s.chip.alert) ∧
       (spent = true → u.chip.ret.sticky.getLsbD F.nvmWrite = true) ∧ Keeps [.ret, .jrn, .alert, .learn, .tag] s u)) ∧
  (∀ (s : State) (t : Time), s.chip.spi = [] →
     let due : Prop := commitDue (tick t s.chip) = true
     let barred : Prop := running s.chip = true ∧ s.chip.jrn.opened = true ∧ s.chip.jrn.run = none ∧ seqSpent s.chip = true ∧
       s.chip.jrn.bitRequest = true
     (due → ∀ m, s.chip.img.map = some m → ∃ u, exec (.journalCommitStart t) s = .next u ∧
       u.chip.jrn.request = false ∧ u.chip.jrn.bitRequest = false ∧ Keeps [.jrn] s u ∧
       ∃ r, u.chip.jrn.run = some r ∧ r.retried = false ∧ r.bad = false ∧
         (∀ h, s.chip.jrn.head = some h → r.slot = (h.1 + 1) % journalSlots m ∧ r.seq = h.2 + 1) ∧
         (s.chip.jrn.head = none → r.slot = 0 ∧ r.seq = 1) ∧
         r.writes.head? = some (journalAt m r.slot + 62, u16B markPending) ∧
         r.writes.getLast? = some (journalAt m r.slot + 62, u16B markCommit)) ∧
     (barred → ∃ u, exec (.journalCommitStart t) s = .next u ∧ u.chip.ret.sticky.getLsbD F.nvmWrite = true ∧
       u.chip.jrn.bitRequest = false ∧ u.chip.jrn.run = none ∧ Keeps [.ret, .jrn, .alert] s u) ∧
     (¬due → ¬barred → exec (.journalCommitStart t) s = .next (after t (fun c => c) s))) ∧
  (∀ (s : State) (t : Time), s.chip.spi = [] →
     (s.chip.jrn.run = none → exec (.journalWriteTimeout t) s = .next (after t (fun c => c) s) ∧
       ∀ ok, exec (.nvmWriteComplete t ok) s = .next (after t (fun c => c) s)) ∧
     ∀ r, s.chip.jrn.run = some r →
     ∀ (a : Nat) (bs : List Byte) (rest : List (Nat × List Byte)), r.writes = (a, bs) :: rest →
     let again (u : State) : Prop := (r.retried = true → u.chip.jrn.run = none) ∧
       (r.retried = false → ∀ m, s.chip.img.map = some m → ∃ r', u.chip.jrn.run = some r' ∧ r'.retried = true ∧
         r'.bad = false ∧ r'.start = r.start ∧
         (∀ h, s.chip.jrn.head = some h → r'.slot = (h.1 + 1) % journalSlots m ∧ r'.seq = h.2 + 1) ∧
         (s.chip.jrn.head = none → r'.slot = 0 ∧ r'.seq = 1))
     (rest ≠ [] → exec (.nvmWriteComplete t true) s = .next { after t (fun c =>
       { c with jrn.run := some { r with writes := rest, writeAt := c.now } }) s with nvm := s.nvm.writeBytes a bs }) ∧
     (rest = [] → r.bad = false → exec (.nvmWriteComplete t true) s = .next { after t (fun c =>
       { c with jrn := { c.jrn with
           run := none, head := some (r.slot, r.seq), commits := satInc 65535 c.jrn.commits
           longest := max c.jrn.longest (tenths (c.now - r.start)) } }) s with nvm := s.nvm.writeBytes a bs }) ∧
     (rest = [] → r.bad = true → ∃ u, exec (.nvmWriteComplete t true) s = .next u ∧
       u.chip.ret.sticky.getLsbD F.nvmWrite = true ∧ u.chip.jrn.failed = satInc 255 s.chip.jrn.failed ∧
       u.chip.jrn.head = s.chip.jrn.head ∧ again u ∧
         Keeps [.nvm, .ret, .jrn, .alert] s u) ∧
     (rest ≠ [] → ∃ u, exec (.nvmWriteComplete t false) s = .next u ∧
       u.chip.jrn.run = some { r with writes := rest, writeAt := max s.chip.now t, bad := true } ∧
       (∀ k, k < a ∨ a + bs.length ≤ k → u.nvm.read k = s.nvm.read k) ∧ Keeps [.nvm, .jrn, .free] s u) ∧
     (rest = [] → ∃ u, exec (.nvmWriteComplete t false) s = .next u ∧ u.chip.ret.sticky.getLsbD F.nvmWrite = true ∧
       u.chip.jrn.failed = satInc 255 s.chip.jrn.failed ∧ u.chip.jrn.head = s.chip.jrn.head ∧ again u ∧
         Keeps [.nvm, .ret, .jrn, .alert, .free] s u) ∧
     (max s.chip.now t < r.writeAt + ms 10 → exec (.journalWriteTimeout t) s = .next (after t (fun c => c) s)) ∧
     (r.writeAt + ms 10 ≤ max s.chip.now t → ∃ u, exec (.journalWriteTimeout t) s = .next u ∧
       u.chip.ret.sticky.getLsbD F.nvmWrite = true ∧ u.chip.jrn.failed = satInc 255 s.chip.jrn.failed ∧
       u.chip.jrn.head = s.chip.jrn.head ∧ again u ∧
         Keeps [.nvm, .ret, .jrn, .alert, .free] s u))

/-- Words of a modulator channel (R180, R182, R183, R197, R198): each carries one status, OPEN before OVER before SETTLE before
VALID, and the value that belongs to it: the calibrated reading, from which the tracked offset is taken as its parts enter the
filter (log entry 117), the full scale of the side exceeded, or the last VALID value. While MOD is out of tolerance, and at the
first word after it, no word is VALID (R225). A channel that stands still takes no word.

A word lost to a full queue is replaced by a SETTLE word with the last VALID value, and F.CLOCK_FAULT is set (Table 5.10);
a modulator that stands at an end of its scale for 4,096 native words is reset, and the third reset within 1 s sets F.MOD_UNSTABLE
(R169, R225). On a channel that stands still neither happens. -/
def Obligations.ModulatorWordsAndTheirLoss : Prop :=
  (∀ (s : State) (t : Time) (ch : ChId) (code : Int) (n : Nat) (hi ok : Bool), s.chip.spi = [] →
     let x := chan s.chip ch
     let on : Prop := running s.chip = true ∧ x.running = true
     let st (settle : Nat) : Status :=
       if x.kelvinOpen = true then .opn else if 64 ≤ n then .overRange
       else if s.chip.meas.modBad = true ∨ settle ≠ 0 then .settle else .valid
     let v (bits : Nat) (weights : List Nat) (subs : List Rat) : Rat :=
       applyCal s.chip ch (rawReading ch bits code - weighed weights (x.offset * chopSign x :: subs))
     let value (a : Status) (valid held : Rat) : Rat :=
       match a with
       | .valid => valid
       | .overRange => if hi then fullScale ch else -(fullScale ch)
       | _ => held
     let vF := v 16 fastWeights x.subFast
     let vP := v 24 precWeights x.subPrec
     (on → ∃ u, exec (.fastWord t ch code n hi ok) s = .next u ∧
       (chan u.chip ch).fast = ⟨value (st x.fastSettle) vF x.fastHeld, st x.fastSettle, max s.chip.now t⟩ ∧
       (chan u.chip ch).fastHeld = (if st x.fastSettle = .valid then vF else x.fastHeld) ∧ (chan u.chip ch).prec = x.prec ∧
       u.chip.meas.modBad = (s.chip.meas.modBad && !ok) ∧ (ch = .vBus ∨ ch = .vPack → Keeps [.meas, .pack] s u) ∧
       KeepsImage s u ∧ Keeps [.nvm, .seq, .ret, .img, .jrn, .meas, .feedA, .feedB, .rail, .pack, .chg, .alert, .spurs, .gauge,
         .learn, .tag, .inn, .can, .host, .pair] s u) ∧
     (on → ∃ u, exec (.preciseWord t ch code n hi ok) s = .next u ∧
       (chan u.chip ch).prec = ⟨value (st x.precSettle) vP x.precHeld, st x.precSettle, max s.chip.now t⟩ ∧
       (chan u.chip ch).precHeld = (if st x.precSettle = .valid then vP else x.precHeld) ∧
       (chan u.chip ch).fast = x.fast ∧ u.chip.meas.modBad = (s.chip.meas.modBad && !ok) ∧
       Keeps [.ret, .jrn, .meas, .cal, .feedA, .feedB, .pack, .chg, .alert, .gauge, .learn] s u) ∧
     (¬on → exec (.fastWord t ch code n hi ok) s = .next (after t (fun c => c) s) ∧
       exec (.preciseWord t ch code n hi ok) s = .next (after t (fun c => c) s))) ∧
  (∀ (s : State) (t : Time) (ch : ChId), s.chip.spi = [] →
     let on : Prop := running s.chip = true ∧ (chan s.chip ch).running = true
     (on → ∃ u, exec (.queueOverflow t ch false) s = .next u ∧
       u.chip.ret.sticky.getLsbD F.clockFault = true ∧
       (chan u.chip ch).fast = ⟨(chan s.chip ch).fastHeld, .settle, max s.chip.now t⟩ ∧
       (ch = .vBus ∨ ch = .vPack → Keeps [.ret, .jrn, .meas, .alert, .pack] s u) ∧ KeepsImage s u ∧
       Keeps [.nvm, .seq, .ret, .img, .jrn, .meas, .feedA, .feedB, .rail, .pack, .chg, .alert, .spurs, .gauge, .learn, .tag,
         .inn, .can, .host, .pair] s u) ∧
     (on → ∃ u, exec (.queueOverflow t ch true) s = .next u ∧
       u.chip.ret.sticky.getLsbD F.clockFault = true ∧
       (chan u.chip ch).prec = ⟨(chan s.chip ch).precHeld, .settle, max s.chip.now t⟩ ∧
       Keeps [.ret, .jrn, .meas, .feedA, .feedB, .pack, .chg, .alert, .gauge, .learn] s u) ∧
     (∀ n, n < 4096 → exec (.modulatorReset t ch n) s = .next (after t (fun c => c) s)) ∧
     (∀ n, on → 4096 ≤ n → ∃ u, exec (.modulatorReset t ch n) s = .next u ∧
       (chan u.chip ch).fastSettle = 2 ∧ (chan u.chip ch).precSettle = 3 ∧ (chan u.chip ch).chop = none ∧
       (chan u.chip ch).resets = satInc 63 (chan s.chip ch).resets ∧
       (3 ≤ (chan u.chip ch).resetTimes.length → u.chip.ret.sticky.getLsbD F.modUnstable = true) ∧
       Keeps [.ret, .jrn, .meas, .alert] s u) ∧
     (¬on →
       (∀ p, exec (.queueOverflow t ch p) s = .next (after t (fun c => c) s)) ∧
       ∀ n, exec (.modulatorReset t ch n) s = .next (after t (fun c => c) s)))

/-- The offset tracker (R177, R178, R181): a block pair whose halves are quiet moves the tracked offset of a voltage channel by
a sixteenth of its error, held to 50 µV; on a current channel the step is held to 0.25 µV and the offset to 20 µV, with
F.OFFSET_LIMIT; an unquiet pair moves nothing, and what is no whole pair, or was broken off (R218), is no pair at all.

Calibration points (R185, R219): a point that has its 256 words, or 64 conversions, ends with the mean and the standard
deviation (by the number of words, log entry 118); one that has not within 1 s ends refused. The charger that a SPAN point runs
stops with it; without one nothing but the point and its outcome changes. -/
def Obligations.OffsetTrackerAndCalibrationPoints : Prop :=
  (∀ (s : State) (t : Time) (ch : ChId) (p m : List Int), s.chip.spi = [] →
     let ps := p.map (rawReading ch 24)
     let ms := m.map (rawReading ch 24)
     let lim : Rat := if isCurrent ch then 1 / 4 else 1 / 20
     let o := (chan s.chip ch).offset
     let o' := o + clampRat (-lim) lim (((meanRat ps - meanRat ms) / 2 - o) / 16)
     let pair : Prop := running s.chip = true ∧ (chan s.chip ch).running = true ∧ (chan s.chip ch).paired = true ∧
       p.length = 4 ∧ m.length = 4
     (pair → halfQuiet ch ps = true → halfQuiet ch ms = true → ∃ u, exec (.slowChopBlockPair t ch p m) s = .next u ∧
       (chan u.chip ch).offset = (if isCurrent ch = true ∧ 20 < absRat o' then (if o' < 0 then -20 else 20) else o') ∧
       (isCurrent ch = true → 20 < absRat o' → u.chip.ret.sticky.getLsbD F.offsetLimit = true) ∧
       (chan u.chip ch).paired = false ∧ Keeps [.ret, .jrn, .meas, .alert] s u) ∧
     (pair → halfQuiet ch ps = false ∨ halfQuiet ch ms = false → exec (.slowChopBlockPair t ch p m) s =
       .next (after t (updChan ch fun x => { x with paired := false }) s)) ∧
     (¬pair → exec (.slowChopBlockPair t ch p m) s = .next (after t (fun c => c) s))) ∧
  (∀ (s : State) (t : Time), s.chip.spi = [] →
     let n := s.chip.cal.count
     let full := if s.chip.cal.ch = 5 then 64 else 256
     let mean : Rat := s.chip.cal.sum / (n : Rat)
     let ends (u : State) : Prop := u.chip.cal.run = false ∧ Keeps [.cal, .host, .pack, .chg, .gauge] s u ∧
       (s.chip.chg.spanPoint = false → Keeps [.cal, .host] s u) ∧
       (s.chip.chg.spanPoint = true → charging s.chip = true → u.chip.pack.st = .standby ∧ u.chip.chg.set = 0)
     (s.chip.cal.run = true → full ≤ n → ∃ u, exec (.calPointComplete t) s = .next u ∧ ends u ∧
       u.chip.cal.done = true ∧ u.chip.cal.mean = roundRat mean ∧
       u.chip.cal.spread = satR 32 (sqrtRat (s.chip.cal.sumSq / (n : Rat) - mean * mean))) ∧
     (s.chip.cal.run = false ∨ n < full → exec (.calPointComplete t) s = .next (after t (fun c => c) s)) ∧
     (s.chip.cal.run = true → n < full → s.chip.cal.start + sec 1 ≤ max s.chip.now t → ∃ u, exec (.calPointTimeout t) s = .next u ∧
       ends u ∧ u.chip.cal.refused = true) ∧
     (s.chip.cal.run = false ∨ full ≤ n ∨ max s.chip.now t < s.chip.cal.start + sec 1 →
       exec (.calPointTimeout t) s = .next (after t (fun c => c) s)))

/-- Clock faults (Table 5.10, R223, R225): a crystal 1 % off for 100 µs sets F.XTAL_FAIL and stops CAN; MOD outside 24 … 26 MHz
for 10 µs, CORE off by more than 2 % for 1 ms and a domain outside its bounds (Table 5.7) for 100 µs set F.CLOCK_FAULT, the domain
stopping on a repeat within 1 s. A deviation too short or too small does nothing.

LPT and MOD are measured against the running crystal every second (R205); while it stands or has failed, MOD alone is measured,
against LPT or CORE (R175, R223). -/
def Obligations.ClocksAreJudgedAndDisciplined : Prop :=
  (∀ (s : State) (t : Time), s.chip.spi = [] →
     let idle (i : Instr) : Prop := exec i s = .next (after t (fun c => c) s)
     (running s.chip = false → ∀ hz ns ppm d, idle (.crystalFail t hz ns) ∧ idle (.modClockFault t hz ns) ∧
       idle (.coreTrimExhausted t ppm ns) ∧ idle (.domainClockFault t d hz ns)) ∧
     (running s.chip = true →
     (∀ hz ns : Nat, us 100 ≤ ns → crystalHz s.chip < 100 * ((hz : Int) - (crystalHz s.chip : Int)).natAbs →
       ∃ u, exec (.crystalFail t hz ns) s = .next u ∧ u.chip.ret.sticky.getLsbD F.xtalFail = true ∧
         u.chip.clk.xtalOk = false ∧ u.chip.clk.lptDisc = false ∧ u.chip.clk.lptCorr = s.chip.clk.lptCorr ∧ u.chip.can.on = false ∧
           u.chip.can.stb = true ∧
         Keeps [.ret, .jrn, .clk, .alert, .can] s u) ∧
     (∀ hz ns : Nat, ns < us 100 ∨ 100 * ((hz : Int) - (crystalHz s.chip : Int)).natAbs ≤ crystalHz s.chip →
       idle (.crystalFail t hz ns)) ∧
     (∀ hz ns, us 10 ≤ ns → hz < 24000000 ∨ 26000000 < hz → exec (.modClockFault t hz ns) s =
       .next (after t (fun c => setFault F.clockFault { c with meas.modBad := true }) s)) ∧
     (∀ hz ns, ns < us 10 ∨ (24000000 ≤ hz ∧ hz ≤ 26000000) → idle (.modClockFault t hz ns)) ∧
     (∀ ppm ns, ms 1 ≤ ns → 20000 < ppm.natAbs → exec (.coreTrimExhausted t ppm ns) s = .next (after t (fun c =>
       setFault F.clockFault { c with clk := { c.clk with coreBad := true, coreTrimmed := false } }) s)) ∧
     (∀ ppm ns, ns < ms 1 ∨ ppm.natAbs ≤ 20000 → idle (.coreTrimExhausted t ppm ns)) ∧
     (∀ d khz ns, us 100 ≤ ns → khz < (domBounds s.chip d).1 ∨ (domBounds s.chip d).2 < khz →
       s.chip.clk.stopped.getLsbD (domIndex d) = false → s.chip.clk.restartAt.length = 3 →
       ∃ u, exec (.domainClockFault t d khz ns) s = .next u ∧ u.chip.ret.sticky.getLsbD F.clockFault = true ∧
         u.chip.clk.restartAt.getD (domIndex d) none = some (max s.chip.now t) ∧
         u.chip.clk.stopped.getLsbD (domIndex d) =
           ((s.chip.clk.restartAt.getD (domIndex d) none).elim false fun t0 => decide (max s.chip.now t ≤ t0 + sec 1)) ∧
         Keeps [.ret, .jrn, .clk, .alert] s u) ∧
     (∀ d khz ns, ns < us 100 ∨ ((domBounds s.chip d).1 ≤ khz ∧ khz ≤ (domBounds s.chip d).2) ∨
       s.chip.clk.stopped.getLsbD (domIndex d) = true →
       idle (.domainClockFault t d khz ns)))) ∧
  (∀ (s : State) (t : Time) (corr err : Int), s.chip.spi = [] →
     (crystalRuns s.chip = true → s.chip.clk.xtalOk = true →
       (∀ t0, s.chip.clk.lptAt = some t0 → t0 + sec 1 ≤ max s.chip.now t) →
       exec (.lptCalibration t corr err) s = .next (after t (fun c =>
         { c with
           clk := { c.clk with lptDisc := true, lptCorr := corr, lptAt := some c.now, coreTrimmed := !c.clk.coreBad }
           meas.modError := err }) s)) ∧
     (crystalRuns s.chip = true → s.chip.clk.xtalOk = true → ∀ t0, s.chip.clk.lptAt = some t0 →
       max s.chip.now t < t0 + sec 1 → exec (.lptCalibration t corr err) s = .next (after t (fun c => c) s)) ∧
     (running s.chip = true → crystalRuns s.chip = false ∨ s.chip.clk.xtalOk = false →
       exec (.lptCalibration t corr err) s = .next (after t (fun c => { c with meas.modError := err }) s)) ∧
     (running s.chip = false → exec (.lptCalibration t corr err) s = .next (after t (fun c => c) s)))

/-- Auxiliary conversions (R184, R190, R197, R198): the conversions that a change of channel costs carry SHORT, OVER or SETTLE and
serve nothing; the next one is the sample of the channel, calibrated, at the full scale of the side exceeded, or the last VALID value,
stamped at the centre of its conversion, a spur current at its end (R202); those of the inputs FA_IN and FB_IN serve nothing else at once.
With nothing due in PARKED no conversion ends.

A TS pin above 97 % of TSB ends its conversion, the present one or the one that has fallen due, as OPEN, and below 1 % its sample
will be SHORT (R196); in between, and while another channel is converted, nothing happens.

The isothermal cross-check (R246, R247, R248, R267): it runs only when it is due, and names its participants; two that differ by
more than the limit inhibit charging with F.TEMP_XCHECK, two that agree do not; of three and more those that lie further than the
limit from the median are named and set F.TEMP_XCHECK. -/
def Obligations.AuxiliaryConversionsAndSensorChecks : Prop :=
  (∀ (s : State) (t : Time) (code : Nat) (o : Option Bool), s.chip.spi = [] →
     (running s.chip = false ∨ auxNow (tick t s.chip) = none → exec (.auxConversionComplete t code o) s = .next (after t (fun c => c) s)) ∧
     (running s.chip = true → ∀ k n, auxNow (tick t s.chip) = some (k, n + 1) →
       exec (.auxConversionComplete t code o) s = .next (after t (fun c =>
       { c with aux := { c.aux with
           cur := some k, skip := n
           ch := updAt c.aux.ch k fun x => { x with
             status := if c.aux.short then .short else if o.isSome then .overRange else .settle
             inLow := lowNow k c
             code := if c.aux.short = false ∧ o.isSome = true then auxFull k (o.getD false) else heldCode x (lowNow k c) } } }) s)) ∧
     (running s.chip = true → s.chip.aux.ch.length = 24 → ∀ k n, auxNow (tick t s.chip) = some (k, n) → n = 0 → k < 24 →
       ∃ u, exec (.auxConversionComplete t code o) s = .next u ∧
         (auxCh u.chip k).status =
           (if s.chip.aux.short then .short else if o.isSome then .overRange else if s.chip.aux.dead then .settle else .valid) ∧
         (auxCh u.chip k).at_ = max s.chip.now t ∧ (auxCh u.chip k).inLow = lowNow k s.chip ∧
         (auxCh u.chip k).stamp = (if k ≤ 7 then max s.chip.now t else max s.chip.now t - 62500) ∧
         (auxCh u.chip k).code = (if (auxCh u.chip k).status = .valid then auxCode k (auxPos s.chip code)
           else if (auxCh u.chip k).status = .overRange then auxFull k (o.getD false)
           else heldCode (auxCh s.chip k) (lowNow k s.chip)) ∧
         ((auxCh u.chip k).status = .valid → (auxCh u.chip k).held = (auxCh u.chip k).code) ∧
         ((auxCh u.chip k).status ≠ .valid → (auxCh u.chip k).held = (auxCh s.chip k).held) ∧
         (∀ j, j ≠ k → auxCh u.chip j = auxCh s.chip j) ∧ (k = 20 ∨ k = 21 → Keeps [.aux, .cal] s u) ∧
         Keeps [.nvm, .seq, .ret, .otp, .jrn, .cal, .aux, .tmp, .prs, .pack, .chg, .alert, .spurs, .totals, .gauge, .learn, .tag,
           .inn, .can, .host, .pair] s u)) ∧
  (∀ (s : State) (t : Time) (k : TsId), s.chip.spi = [] →
     let under (n : Nat) : Prop := running s.chip = true ∧ auxNow (tick t s.chip) = some (tsChan k, n)
     (∀ ppm n, under n → s.chip.aux.ch.length = 24 → 970000 < ppm →
       ∃ u, exec (.tsBiasFault t k ppm) s = .next u ∧ (auxCh u.chip (tsChan k)).status = .opn ∧
       (auxCh u.chip (tsChan k)).code = heldCode (auxCh s.chip (tsChan k)) (lowNow (tsChan k) s.chip) ∧
       (auxCh u.chip (tsChan k)).opens = (auxCh s.chip (tsChan k)).opens + 1 ∧ Keeps [.seq, .ret, .jrn, .aux, .tmp, .prs, .pack,
         .chg, .alert, .spurs, .gauge, .learn, .tag, .inn, .can, .host, .pair] s u) ∧
     (∀ ppm n, under n → ppm < 10000 → exec (.tsBiasFault t k ppm) s =
       .next (after t (fun c => { c with aux := { c.aux with cur := some (tsChan k), skip := n, short := true } }) s)) ∧
     (∀ ppm, 10000 ≤ ppm → ppm ≤ 970000 → exec (.tsBiasFault t k ppm) s = .next (after t (fun c => c) s)) ∧
     (∀ ppm, running s.chip = false ∨ (auxNow (tick t s.chip)).map (·.1) ≠ some (tsChan k) →
       exec (.tsBiasFault t k ppm) s = .next (after t (fun c => c) s))) ∧
  (∀ (s : State) (t : Time), s.chip.spi = [] →
     let ps := isoParticipants (tick t s.chip)
     let lim : Rat := (((cfg s.chip).temp.xcheck * 100 : Nat) : Rat)
     let out := ps.filter fun p => decide (lim < absRat ((p.2 : Rat) - median (ps.map (·.2))))
     (isoDue (tick t s.chip) = false → exec (.isothermalCheck t) s = .next (after t (fun c => c) s)) ∧
     (isoDue (tick t s.chip) = true → ∃ u, exec (.isothermalCheck t) s = .next u ∧
       u.chip.prs.xAt = some (max s.chip.now t) ∧ u.chip.prs.xPart = bits5 (ps.map (·.1)) ∧
       (∀ a b : Nat × Int, ps = [a, b] → lim < absRat ((a.2 - b.2 : Int) : Rat) →
         u.chip.ret.sticky.getLsbD F.tempXcheck = true ∧ u.chip.tmp.xInhibit = true ∧ u.chip.prs.xTwo = true) ∧
       (∀ a b : Nat × Int, ps = [a, b] → absRat ((a.2 - b.2 : Int) : Rat) ≤ lim → u.chip.tmp.xInhibit = false) ∧
       (3 ≤ ps.length → u.chip.prs.xOut = bits5 (out.map (·.1)) ∧
         (out = [] → u.chip.tmp.xInhibit = false) ∧ (out ≠ [] → u.chip.ret.sticky.getLsbD F.tempXcheck = true)) ∧
       Keeps [.ret, .jrn, .tmp, .prs, .pack, .chg, .alert, .spurs, .gauge, .inn, .can, .pair] s u))

/-- The windows of a feed (R278 … R283, R323, R843, Table 7.2): a crossing shorter than 50 µs, or before the windows are evaluated, is
ignored; the comparators take their level with hysteresis. Leaving a window brings DELAY and HELD back to WATCH, takes INRUSH, ON and
BLOCKING to WATCH with the cause of the window, and moves no other state; leaving the over-voltage window sets F.FEED_OV. With both
windows satisfied a channel in WATCH enters DELAY, or HELD where INS_DELAY is 0, in LIMP once the feed set is decided.

The insertion delay (R281, R155): when INS_DELAY × 10 ms have passed the channel is HELD, and a shut-down sequence before its
commit point is aborted with outcome 0x02; before, and in another state, nothing happens. -/
def Obligations.FeedWindowsAndInsertionDelay : Prop :=
  (∀ (s : State) (t : Time) (f : FeedId) (mv : Int) (ns : Nat), s.chip.spi = [] →
     let x := feed s.chip f
     let k := feedCfg s.chip f
     let rise : Int := ((k.uvRise * 100 : Nat) : Int)
     let top : Int := ((k.ovRise * 100 : Nat) : Int)
     let uv := if x.uvOk then decide (rise - ((k.uvHyst * 100 : Nat) : Int) ≤ mv) else decide (rise ≤ mv)
     let ov := if x.ovOk then decide (mv ≤ top) else decide (mv < top - ((k.ovHyst * 100 : Nat) : Int))
     let above := x.ovOk && !ov
     let left := above || (x.uvOk && !uv)
     let levels (c : Chip) : Chip := updFeed f (fun y => { y with uvOk := uv, ovOk := ov }) c
     let goes := uv && ov && x.st == .watch && feedSetKnown s.chip
     (running s.chip = false ∨ ns < us 50 ∨ x.armed = false →
       exec (.feedWindowCrossing t f mv ns) s = .next (after t (fun c => c) s)) ∧
     (running s.chip = true → us 50 ≤ ns → x.armed = true →
       (left = true → x.st = .delay ∨ x.st = .held → exec (.feedWindowCrossing t f mv ns) s = .next (after t (fun c =>
         updFeed f (fun y => { y with st := .watch, inr := none, evs := if x.st = .delay then bump 255 1 y.evs else y.evs })
           (levels (setFaultIf above (F.feedOv f) c))) s)) ∧
       (left = true → x.st = .inrush ∨ feedAccepted x = true → ∃ u, exec (.feedWindowCrossing t f mv ns) s = .next u ∧
         (feed u.chip f).st = .watch ∧ (feed u.chip f).inr = none ∧ (feed u.chip f).offCause = (if above then 2 else 1) ∧
         (feed u.chip f).uvOk = uv ∧ (feed u.chip f).ovOk = ov ∧ (feed u.chip f).retries = x.retries ∧
         (above = true → u.chip.ret.sticky.getLsbD (F.feedOv f) = true) ∧
         feed u.chip (otherFeed f) = feed s.chip (otherFeed f) ∧ KeepsImage s u ∧ Keeps [.nvm, .seq, .ret, .img, .jrn, .feedA,
           .feedB, .rail, .pack, .chg, .alert, .spurs, .gauge, .learn, .tag, .inn, .can, .host, .pair] s u) ∧
       (left = true → x.st ≠ .delay → x.st ≠ .held → x.st ≠ .inrush → feedAccepted x = false →
         exec (.feedWindowCrossing t f mv ns) s = .next (after t (fun c =>
           levels (setFaultIf (above && x.st != .absent) (F.feedOv f) c)) s)) ∧
       (left = false → goes = false → exec (.feedWindowCrossing t f mv ns) s = .next (after t levels s)) ∧
       (goes = true → ∃ u, exec (.feedWindowCrossing t f mv ns) s = .next u ∧
         (feed u.chip f).st = (if k.insDelay = 0 then .held else .delay) ∧ (feed u.chip f).delayAt = max s.chip.now t ∧
         (feed u.chip f).uvOk = true ∧ (feed u.chip f).ovOk = true ∧
         feed u.chip (otherFeed f) = feed s.chip (otherFeed f) ∧
         (k.insDelay ≠ 0 → Keeps [.meas, .feedA, .feedB, .pack, .gauge, .learn] s u) ∧
         Keeps [.seq, .ret, .meas, .feedA, .feedB, .pack, .gauge, .learn, .pair] s u))) ∧
  (∀ (s : State) (t : Time) (f : FeedId), s.chip.spi = [] →
     let due := (feed s.chip f).delayAt + ms ((feedCfg s.chip f).insDelay * 10)
     ((feed s.chip f).st ≠ .delay ∨ max s.chip.now t < due →
       exec (.insertionDelayExpiry t f) s = .next (after t (fun c => c) s)) ∧
     ((feed s.chip f).st = .delay → due ≤ t → s.chip.seq.shutStep = 0 ∨ s.chip.seq.committed = true →
       exec (.insertionDelayExpiry t f) s = .next (after t (updFeed f fun x => { x with st := .held, inr := none }) s)) ∧
     ((feed s.chip f).st = .delay → due ≤ t → s.chip.seq.shutStep ≠ 0 → s.chip.seq.committed = false →
       exec (.insertionDelayExpiry t f) s = .next (after t (fun c => updFeed f (fun x => { x with st := .held, inr := none }) { c with
         seq := { c.seq with shutStep := 0, shutNow := .none }
         ret := { c.ret with shutCause := c.seq.shutNow, shutOutcome := .aborted, aborts := satInc 65535 c.ret.aborts }
         pair.ownLeaving := false }) s)))

/-- Inrush (R208, R284, R286): a HELD channel begins when the charge pump is ready, the other channel is not busy, no trip is pending,
the GATE domain runs and CONFIGURE has passed its step, feed A first, with the limit at I_MAX and the first update after 250 µs;
otherwise it does not begin (that step 7 of a shut-down sequence keeps it off is the model's reading of Table 4.4). Each update sets the
limit by the governor's law and comes 1 ms after the last. V_IN0 is the last VALID conversion (log entry 115).

The end of an inrush or of a re-enable (R275, R288, R289, R291, R294, R296): INRUSH_TIMER over, it fails, with F.FEED_SHORT when
V_BUS has risen by less than 1 V and F.FEED_INRUSH otherwise, into RETRY_WAIT for the first three failures and LATCHED after them; with
its conditions held for 1 ms the channel is ON: by acceptance, with V_T at DROP_MAX, PARKED becoming COUPLED, or again from a
re-enable, which accepts nothing anew. Short of that nothing happens. -/
def Obligations.InrushBeginsGovernedAndEnds : Prop :=
  (∀ (s : State) (t : Time), s.chip.spi = [] →
     let ready (f : FeedId) : Prop := (feed s.chip f).st = .held ∧ inrushStepPassed s.chip = true ∧
       s.chip.rail.pumpReady = true ∧ (feed s.chip (otherFeed f)).inr = none ∧ (feed s.chip f).trip.due = none ∧
       s.chip.clk.stopped.getLsbD 0 = false ∧ s.chip.seq.shutStep < 7
     (∀ f, ready f → (f = .b → ¬ready .a) → exec (.inrushStart t f) s = .next (after t (fun c => updFeed f (fun x =>
         { x with
           st := .inrush, kTest := none
           inr := some {
             start := c.now, vIn0 := (feedInMv c f : Rat), vBus0 := c.meas.vBus.fastHeld
             iL := (((feedCfg c f).inrushLim * 1000000 : Nat) : Rat) / ((feedCfg c f).rsns : Rat)
             update := c.now + us 250 } }) c) s)) ∧
     (∀ f, ¬ready f ∨ (f = .b ∧ ready .a) → exec (.inrushStart t f) s = .next (after t (fun c => c) s)) ∧
     (∀ f, (∀ x, (feed s.chip f).inr = some x → max s.chip.now t < x.update) →
       exec (.inrushGovernorUpdate t f) s = .next (after t (fun c => c) s)) ∧
     (∀ f x, (feed s.chip f).inr = some x → x.update ≤ t → 50 ≤ s.chip.meas.vBus.fastHeld - x.vBus0 →
       exec (.inrushGovernorUpdate t f) s = .next (after t (fun c => updFeed f (fun z => { z with inr := some { x with
           update := x.update + ms 1, cM := some (x.q / (c.meas.vBus.fastHeld - x.vBus0))
           iL := clampRat (inrushMax (feedCfg c f) / 16) (inrushMax (feedCfg c f))
             (x.q / (c.meas.vBus.fastHeld - x.vBus0) * (x.vIn0 - c.meas.vBus.fastHeld) /
               ratMax (((((feedCfg c f).inrushTimer * 500000 : Nat) : Int) - ((c.now - x.start : Nat) : Int) : Int) : Rat)
                 1000000) } }) c) s)) ∧
     (∀ f x, (feed s.chip f).inr = some x → x.update ≤ t → s.chip.meas.vBus.fastHeld - x.vBus0 < 50 →
       exec (.inrushGovernorUpdate t f) s = .next (after t (fun c => updFeed f (fun z => { z with inr := some { x with
           update := x.update + ms 1, iL := inrushMax (feedCfg c f) / 16 } }) c) s))) ∧
  (∀ (s : State) (t : Time) (f : FeedId), s.chip.spi = [] →
     ((∀ x, (feed s.chip f).inr = some x → max s.chip.now t < x.start + ms (feedCfg s.chip f).inrushTimer) →
       exec (.inrushTimeout t f) s = .next (after t (fun c => c) s)) ∧
     (∀ x, (feed s.chip f).inr = some x → x.start + ms (feedCfg s.chip f).inrushTimer ≤ t →
       ∃ u, exec (.inrushTimeout t f) s = .next u ∧
       u.chip.ret.sticky.getLsbD (if s.chip.meas.vBus.fastHeld - x.vBus0 < 1000 then F.feedShort f else F.feedInrush f) = true ∧
       (feed u.chip f).st = (if (feed s.chip f).retries < 3 then .retryWait else .latched) ∧ (feed u.chip f).inr = none ∧
       (feed u.chip f).retries = (if (feed s.chip f).retries < 3 then (feed s.chip f).retries + 1 else (feed s.chip f).retries) ∧
       (¬ (feed s.chip f).retries < 3 → u.chip.ret.sticky.getLsbD (F.feedLatched f) = true) ∧
       feed u.chip (otherFeed f) = feed s.chip (otherFeed f) ∧ KeepsImage s u ∧
       (feedAccepted (feed s.chip f) = false → Keeps [.ret, .jrn, .feedA, .feedB, .rail, .alert] s u) ∧
       Keeps [.nvm, .seq, .ret, .img, .jrn, .feedA, .feedB, .rail, .pack, .chg, .alert, .spurs, .gauge, .learn, .tag, .inn, .can,
         .host, .pair] s u) ∧
     (∀ (uv : FromWords) (mv : Int) (ns : Nat),
       let holds : Prop := ∃ x, (feed s.chip f).inr = some x ∧ ms 1 ≤ ns ∧ x.start + ms 1 ≤ max s.chip.now t ∧ mv ≤ 500 ∧
         (∃ t0, x.low = some t0 ∧ t0 + ms 1 ≤ max s.chip.now t) ∧ (feed s.chip f).trip.due = none
       (¬holds → exec (.inrushComplete t f uv mv ns) s = .next (after t (fun c => c) s)) ∧
       (holds → (feed s.chip f).st = .inrush → ∃ u, exec (.inrushComplete t f uv mv ns) s = .next u ∧ (feed u.chip f).st = .on ∧
         (feed u.chip f).vT = (feedCfg s.chip f).dropMax ∧ (feed u.chip f).inr = none ∧
         (s.chip.seq.mode = .parked → s.chip.seq.committed = false → u.chip.seq.mode = .coupled) ∧
         feed u.chip (otherFeed f) = feed s.chip (otherFeed f) ∧
         Keeps [.seq, .ret, .jrn, .meas, .feedA, .feedB, .rail, .pack, .chg, .alert, .spurs, .gauge, .learn, .can, .pair] s u) ∧
       (holds → (feed s.chip f).st ≠ .inrush → ∃ u, exec (.inrushComplete t f uv mv ns) s = .next u ∧ (feed u.chip f).st = .on ∧
         (feed u.chip f).vT = (feed s.chip f).vT ∧ (feed u.chip f).inr = none ∧ (feed u.chip f).evs = (feed s.chip f).evs ∧
         feed u.chip (otherFeed f) = feed s.chip (otherFeed f) ∧ Keeps [.feedA, .feedB] s u)))

/-- The governor never leaves the limit outside I_MAX / 16 … I_MAX (R286). -/
def Obligations.GovernorHoldsTheLimitInItsRange : Prop :=
  ∀ (k : FeedCfg) (t : Nat) (v : Rat) (x : Inrush),
    inrushMax k / 16 ≤ (governorLaw k t v x).iL ∧ (governorLaw k t v x).iL ≤ inrushMax k ∧
      (governorLaw k t v x).q = x.q ∧ (governorLaw k t v x).e = x.e ∧ (governorLaw k t v x).start = x.start

/-- The ideal diode (R208, R294 … R297): a reverse voltage beyond REV_THR sinks the gates of a driven channel, which goes to BLOCKING,
or from INRUSH back to HELD, without a bit or a retry; a BLOCKING channel whose drop has stood at V_T for 50 µs starts a
re-enable; every 10 ms V_T moves by its law. Short of that nothing happens. -/
def Obligations.IdealDiodeBlocksAndReenables : Prop :=
  ∀ (s : State) (t : Time) (f : FeedId), s.chip.spi = [] →
    let x := feed s.chip f
    let rev : Int := -(((feedCfg s.chip f).revThr * 1000 : Nat) : Int)
    (∀ uv, uv < rev → feedDriven x = true → ∃ u, exec (.feedFastReverse t f uv) s = .next u ∧
      (feed u.chip f).st = (if x.st = .inrush then .held else .blocking) ∧ (feed u.chip f).offCause = 3 ∧
      (feed u.chip f).inr = none ∧ (feed u.chip f).noisy = true ∧ (feed u.chip f).retries = x.retries ∧
      feed u.chip (otherFeed f) = feed s.chip (otherFeed f) ∧ Keeps [.feedA, .feedB, .rail, .pack] s u) ∧
    (∀ uv, rev ≤ uv ∨ feedDriven x = false → exec (.feedFastReverse t f uv) s = .next (after t (fun c => c) s)) ∧
    (∀ mv ns,
      let holds : Prop := x.st = .blocking ∧ x.inr = none ∧ x.trip.due = none ∧ s.chip.rail.pumpReady = true ∧
        s.chip.clk.stopped.getLsbD 0 = false ∧ us 50 ≤ ns ∧ (x.vT : Int) ≤ mv
      (holds → exec (.feedReenableStart t f mv ns) s = .next (after t (fun c => updFeed f (fun x =>
        { x with inr := some (freshInrush c f), kTest := none }) c) s)) ∧
      (¬holds → exec (.feedReenableStart t f mv ns) s = .next (after t (fun c => c) s))) ∧
    (feedAccepted x = true → x.winAt + ms 10 ≤ t → x.noisy = true →
      exec (.dropTargetAdapt t f) s = .next (after t (fun c => updFeed f (fun x => { x with
        vT := min (feedCfg c f).dropMax (x.vT + 4), noisy := false, winAt := c.now, quietAt := c.now }) c) s)) ∧
    (feedAccepted x = true → x.winAt + ms 10 ≤ t → x.noisy = false → x.quietAt + sec 1 ≤ t →
      exec (.dropTargetAdapt t f) s = .next (after t (fun c => updFeed f (fun x =>
        { x with vT := max (feedCfg c f).dropMin (x.vT - 1), winAt := c.now, quietAt := c.now }) c) s)) ∧
    (feedAccepted x = true → x.winAt + ms 10 ≤ t → x.noisy = false → max s.chip.now t < x.quietAt + sec 1 →
      exec (.dropTargetAdapt t f) s = .next (after t (fun c => updFeed f (fun x => { x with winAt := c.now }) c) s)) ∧
    (feedAccepted x = false ∨ max s.chip.now t < x.winAt + ms 10 →
      exec (.dropTargetAdapt t f) s = .next (after t (fun c => c) s))

/-- Fast trips (R301 … R306, R351 … R353, R844): an armed comparator at its threshold sinks its gates, PK_GD and PK_GC on the pack
path, and starts the confirmation sum, 2.56 µs long. A sum at S_MIN or above, and a fourth refuted trip within 1 s, confirm it, with
the bit and a failure of a driven or accepted channel; one below refutes it: an ON channel blocks, an inrush or re-enable begins
anew, and the pack path goes on. -/
def Obligations.FastTripsSinkThenConfirmOrRefute : Prop :=
  ∀ (s : State) (t : Time), s.chip.spi = [] →
    (∀ k uv, tripArmed s.chip k = true → (tripOf s.chip k).due = none →
      ((fastTripUv (tripCode s.chip k) : Nat) : Int) ≤ uv → ∃ u, exec (.fastTripFire t k uv) s = .next u ∧
        (tripOf u.chip k).due = some (max s.chip.now t + 2560) ∧ (chan u.chip (tripChan k)).chop = none ∧
        (k = .a → u.chip.pins.gateA = .sunk) ∧ (k = .b → u.chip.pins.gateB = .sunk) ∧
        (k = .p → u.chip.pins.gateD = .sunk ∧ u.chip.pins.gateC = .sunk) ∧
        Keeps [.meas, .aux, .feedA, .feedB, .pack, .gauge] s u) ∧
    (∀ k uv, uv < ((fastTripUv (tripCode s.chip k) : Nat) : Int) ∨ tripArmed s.chip k = false ∨ (tripOf s.chip k).due ≠ none →
      exec (.fastTripFire t k uv) s = .next (after t (fun c => c) s)) ∧
    (∀ k n, (tripOf s.chip k).due = none → exec (.fastTripVerdict t k n) s = .next (after t (fun c => c) s)) ∧
    (∀ k n, (tripOf s.chip k).due ≠ none →
      let above : Prop := (sMin (tripCode s.chip k) : Rat) ≤ confirmSum s.chip k n
      let times := max s.chip.now t :: (tripOf s.chip k).refuted.filter fun t1 => decide (max s.chip.now t < t1 + sec 1)
      let confirmed : Prop := above ∨ 4 ≤ times.length
      (above → ∃ u, exec (.fastTripVerdict t k n) s = .next u ∧
        tripOf u.chip k = { due := none, refuted := (tripOf s.chip k).refuted }) ∧
      (¬above → ∃ u, exec (.fastTripVerdict t k n) s = .next u ∧ tripOf u.chip k = { due := none, refuted := times }) ∧
      (∀ f : FeedId, k = (match f with | .a => .a | .b => .b) →
        let x := feed s.chip f
        (confirmed → ∃ u, exec (.fastTripVerdict t k n) s = .next u ∧ u.chip.ret.sticky.getLsbD (F.feedFastTrip f) = true ∧
          (x.st = .inrush ∨ feedAccepted x = true → (feed u.chip f).offCause = 4 ∧
            (feed u.chip f).st = (if x.retries < 3 then .retryWait else .latched)) ∧
          (x.st ≠ .inrush → feedAccepted x = false → (feed u.chip f).st = x.st ∧
            Keeps [.ret, .jrn, .feedA, .feedB, .alert] s u) ∧
          feed u.chip (otherFeed f) = feed s.chip (otherFeed f) ∧ KeepsImage s u ∧ Keeps [.nvm, .seq, .ret, .img, .jrn, .feedA,
            .feedB, .rail, .pack, .chg, .alert, .spurs, .gauge, .learn, .tag, .inn, .can, .host, .pair] s u) ∧
        (¬confirmed → ∃ u, exec (.fastTripVerdict t k n) s = .next u ∧ (feed u.chip f).retries = x.retries ∧
          (x.st = .on → (feed u.chip f).st = .blocking ∧ (feed u.chip f).offCause = 0x0B) ∧
          (x.st ≠ .on → (feed u.chip f).st = x.st) ∧
          (x.st = .inrush ∨ (x.st = .blocking ∧ x.inr ≠ none) → (feed u.chip f).inr = some (freshInrush (tick t s.chip) f) ∧
            (feed u.chip f).offCause = 0x0B) ∧
          feed u.chip (otherFeed f) = feed s.chip (otherFeed f) ∧ Keeps [.feedA, .feedB, .rail, .pack] s u)) ∧
      (k = .p → (confirmed → ∃ u, exec (.fastTripVerdict t k n) s = .next u ∧
          u.chip.ret.sticky.getLsbD F.packFastTrip = true ∧
          (packConnected s.chip.pack.st = true → u.chip.pack.offCause = 3 ∧
            u.chip.pack.st = (if s.chip.pack.retries < 3 then .retryWait else .latched)) ∧
          (packConnected s.chip.pack.st = false → u.chip.pack.st = s.chip.pack.st) ∧
          Keeps [.ret, .jrn, .pack, .chg, .alert, .gauge] s u) ∧
        (¬confirmed → exec (.fastTripVerdict t k n) s = .next (after t (fun c => { c with pack := { c.pack with
          trip := { due := none, refuted := times }, trips := bump 255 1 c.pack.trips
          offCause := if packConnected c.pack.st then 4 else c.pack.offCause } }) s))))

/-- Retries of a feed (R276, R307, R308, Table 7.2): RETRY_WAIT ends after 10 s, in HELD with its windows satisfied and in WATCH
otherwise; 60 s accepted without a failure clear the count; a LATCHED channel returns to WATCH once its feed has been uncoupled
for 1 s, and goes on to DELAY where its windows are satisfied. Short of that nothing happens.

A reversed feed (Table 7.2): below −4.0 V for 100 ms sets F.FEED_REVERSED and takes every fitted channel to REVERSED, cause 0x09,
but one that a mirage holds, which stays (log entry 84); above 0 V for 100 ms it returns to WATCH, and goes on to DELAY where its
windows are satisfied. The mirage check (R310) sets F.FEED_MIRAGE of a channel whose gates are sunk and whose mean current exceeds
30 mA, and leads the states of Table 7.2 to FAULT_HOLD. Short of that nothing happens. -/
def Obligations.FeedRetriesReversalAndMirage : Prop :=
  (∀ (s : State) (t : Time) (f : FeedId), s.chip.spi = [] →
     let x := feed s.chip f
     (x.st = .retryWait → x.waitAt + sec 10 ≤ t → exec (.feedRetryWaitExpiry t f) s =
       .next (after t (updFeed f fun x => { x with st := if x.uvOk && x.ovOk then .held else .watch, inr := none }) s)) ∧
     (x.st ≠ .retryWait ∨ max s.chip.now t < x.waitAt + sec 10 →
       exec (.feedRetryWaitExpiry t f) s = .next (after t (fun c => c) s)) ∧
     (feedAccepted x = true → x.goodAt + sec 60 ≤ t → exec (.feedRetryCountReset t f) s =
       .next (after t (updFeed f fun x => { x with retries := 0 }) s)) ∧
     (feedAccepted x = false ∨ max s.chip.now t < x.goodAt + sec 60 →
       exec (.feedRetryCountReset t f) s = .next (after t (fun c => c) s)) ∧
     (∀ mv ns, x.st = .latched → mv < 4000 → sec 1 ≤ ns →
       let goes := x.armed && windowsOk x && feedSetKnown s.chip
       (goes = false → exec (.feedUncoupled t f mv ns) s =
         .next (after t (updFeed f fun x => { x with st := .watch, inr := none }) s)) ∧
       (goes = true → ∃ u, exec (.feedUncoupled t f mv ns) s = .next u ∧
         (feed u.chip f).st = (if (feedCfg s.chip f).insDelay = 0 then .held else .delay) ∧
         feed u.chip (otherFeed f) = feed s.chip (otherFeed f) ∧
         Keeps [.seq, .ret, .meas, .feedA, .feedB, .pack, .gauge, .learn, .pair] s u)) ∧
     (∀ mv ns, x.st ≠ .latched ∨ 4000 ≤ mv ∨ ns < sec 1 → exec (.feedUncoupled t f mv ns) s = .next (after t (fun c => c) s))) ∧
  (∀ (s : State) (t : Time) (f : FeedId), s.chip.spi = [] →
     let x := feed s.chip f
     let fits : Prop := running s.chip = true ∧ x.st ≠ .absent ∧ x.st ≠ .reversed
     (∀ mv ns, fits → mv < -4000 → ms 100 ≤ ns → ¬(x.st = .faultHold ∧ x.mirage = true) →
       ∃ u, exec (.feedReversed t f mv ns) s = .next u ∧ (feed u.chip f).st = .reversed ∧ (feed u.chip f).offCause = 9 ∧
         (feed u.chip f).inr = none ∧ (feed u.chip f).retries = x.retries ∧ u.chip.ret.sticky.getLsbD (F.feedReversed f) = true ∧
         feed u.chip (otherFeed f) = feed s.chip (otherFeed f) ∧ KeepsImage s u ∧
         (feedAccepted x = false → Keeps [.ret, .jrn, .feedA, .feedB, .rail, .alert] s u) ∧ Keeps [.nvm, .seq, .ret, .img, .jrn,
           .feedA, .feedB, .rail, .pack, .chg, .alert, .spurs, .gauge, .learn, .tag, .inn, .can, .host, .pair] s u) ∧
     (∀ mv ns, fits → mv < -4000 → ms 100 ≤ ns → x.st = .faultHold → x.mirage = true →
       exec (.feedReversed t f mv ns) s = .next (after t (fun c => setFault (F.feedReversed f) c) s)) ∧
     (∀ mv ns, ¬fits ∨ -4000 ≤ mv ∨ ns < ms 100 → exec (.feedReversed t f mv ns) s = .next (after t (fun c => c) s)) ∧
     (∀ mv ns, x.st = .reversed → 0 < mv → ms 100 ≤ ns →
       let goes := x.armed && windowsOk x && feedSetKnown s.chip
       (goes = false → exec (.feedReversalClear t f mv ns) s =
         .next (after t (updFeed f fun x => { x with st := .watch, inr := none }) s)) ∧
       (goes = true → ∃ u, exec (.feedReversalClear t f mv ns) s = .next u ∧
         (feed u.chip f).st = (if (feedCfg s.chip f).insDelay = 0 then .held else .delay) ∧
         feed u.chip (otherFeed f) = feed s.chip (otherFeed f) ∧
         Keeps [.seq, .ret, .meas, .feedA, .feedB, .pack, .gauge, .learn, .pair] s u)) ∧
     (∀ mv ns, x.st ≠ .reversed ∨ mv ≤ 0 ∨ ns < ms 100 → exec (.feedReversalClear t f mv ns) s = .next (after t (fun c => c) s)) ∧
     (let looks : Prop := feedDriven x = false ∧ x.st ≠ .absent ∧ ¬(x.st = .faultHold ∧ x.mirage = true) ∧
       x.offAt + ms 3 ≤ max s.chip.now t ∧ ∃ i, msMean (tick t s.chip) (feedChan f) = some i ∧ 30 < absRat i
      (¬looks → exec (.feedMirageCheck t f) s = .next (after t (fun c => c) s)) ∧
      (looks → x.st = .reversed → exec (.feedMirageCheck t f) s =
        .next (after t (fun c => setFault (F.feedMirage f) c) s)) ∧
      (looks → x.st = .faultHold → exec (.feedMirageCheck t f) s =
        .next (after t (fun c => updFeed f (fun x => { x with mirage := true }) (setFault (F.feedMirage f) c)) s)) ∧
      (looks → x.st ≠ .faultHold → x.st ≠ .reversed → ∃ u, exec (.feedMirageCheck t f) s = .next u ∧
         (feed u.chip f).st = .faultHold ∧ (feed u.chip f).mirage = true ∧ (feed u.chip f).offCause = 8 ∧
         u.chip.ret.sticky.getLsbD (F.feedMirage f) = true ∧ feed u.chip (otherFeed f) = feed s.chip (otherFeed f) ∧
         KeepsImage s u ∧ (feedAccepted x = false → Keeps [.ret, .jrn, .feedA, .feedB, .alert] s u) ∧
         Keeps [.nvm, .seq, .ret, .img, .jrn, .feedA, .feedB, .rail, .pack, .chg, .alert, .spurs, .gauge, .learn, .tag, .inn,
           .can, .host, .pair] s u)))

/-- The Kelvin tell-tale (R312, R313, R369): the test of a sense pair whose gates are sunk begins once a second and keeps its base; 1 ms
after its start a line that a fast word of its pulse found more than 5 mV off sets the bit of the pair, marks the channel's words OPEN and
leads to FAULT_HOLD with cause 0x0A; the second pass in a row takes OPEN away again and releases the path.

The charge pump (R331, R388, R845): below V_TOP + 10 V it is not ready; 100 µs below + 8 V no channel drives its gates any longer, an
accepted one goes to BLOCKING with cause 0x0D and one in INRUSH to HELD, and a connected pack path has its gates sunk, cause
0x0E; at + 10 V for 100 µs it is ready again, and the pack path takes up its gates. -/
def Obligations.KelvinTestsAndTheChargePump : Prop :=
  (∀ (s : State) (t : Time), s.chip.spi = [] →
     let starts (k : TripId) (test last : Option Time) : Prop := running s.chip = true ∧ kelvinState s.chip k = true ∧
       (tripOf s.chip k).due = none ∧ test = none ∧ ∀ t0, last = some t0 → t0 + sec 1 ≤ max s.chip.now t
     let y := s.chip.pack
     let ends (test : Option Time) : Prop := ∃ t0, test = some t0 ∧ t0 + ms 1 ≤ max s.chip.now t
     (∀ f : FeedId, let k : TripId := match f with | .a => .a | .b => .b
       let x := feed s.chip f
       (starts k x.kTest x.kLast → exec (.kelvinTestStart t k) s = .next (after t (fun c => updFeed f (fun x =>
         { x with kTest := some c.now, kLast := some c.now, kBase := kelvinBase (chan c (feedChan f)), kSeen := {} }) c) s)) ∧
       (¬starts k x.kTest x.kLast → exec (.kelvinTestStart t k) s = .next (after t (fun c => c) s)) ∧
       (∀ p n, ¬ends x.kTest → exec (.kelvinTestEnd t k p n) s = .next (after t (fun c => c) s)) ∧
       (∀ p n, ends x.kTest → lineOpen x.kSeen = none →
         exec (.kelvinTestEnd t k p n) s = .next (after t (updFeed f fun x => { x with kTest := none }) s)) ∧
       (∀ p n, ends x.kTest → lineOpen x.kSeen = some true → ∃ u, exec (.kelvinTestEnd t k p n) s = .next u ∧
         u.chip.ret.sticky.getLsbD (F.feedKelvin f) = true ∧ (chan u.chip (feedChan f)).kelvinOpen = true ∧
         (feed u.chip f).st = .faultHold ∧ (x.st ≠ .faultHold → (feed u.chip f).offCause = 0x0A) ∧
         (feed u.chip f).kTest = none ∧ (feed u.chip f).kPass = 0 ∧ feed u.chip (otherFeed f) = feed s.chip (otherFeed f) ∧
         Keeps [.ret, .jrn, .meas, .feedA, .feedB, .alert] s u) ∧
       (∀ p n, ends x.kTest → lineOpen x.kSeen = some false → ∃ u, exec (.kelvinTestEnd t k p n) s = .next u ∧
         (feed u.chip f).kTest = none ∧ (feed u.chip f).kPass = satInc 2 x.kPass ∧
         (chan u.chip (feedChan f)).kelvinOpen = ((chan s.chip (feedChan f)).kelvinOpen && decide (satInc 2 x.kPass < 2)) ∧
         ((chan s.chip (feedChan f)).kelvinOpen = true → 2 ≤ satInc 2 x.kPass → x.st = .faultHold → x.mirage = false →
           x.uvOk = false → (feed u.chip f).st = .watch) ∧
         (x.st ≠ .faultHold ∨ x.mirage = true → (feed u.chip f).st = x.st) ∧
         feed u.chip (otherFeed f) = feed s.chip (otherFeed f) ∧
         Keeps [.seq, .ret, .meas, .feedA, .feedB, .pack, .gauge, .learn, .pair] s u)) ∧
     (starts .p y.kTest y.kLast → exec (.kelvinTestStart t .p) s = .next (after t (fun c =>
       { c with pack := { c.pack with kTest := some c.now, kLast := some c.now, kBase := kelvinBase c.meas.iP, kSeen := {} } }) s)) ∧
     (¬starts .p y.kTest y.kLast → exec (.kelvinTestStart t .p) s = .next (after t (fun c => c) s)) ∧
     (∀ p n, ¬ends y.kTest → exec (.kelvinTestEnd t .p p n) s = .next (after t (fun c => c) s)) ∧
     (∀ p n, ends y.kTest → lineOpen y.kSeen = none →
       exec (.kelvinTestEnd t .p p n) s = .next (after t (fun c => { c with pack.kTest := none }) s)) ∧
     (∀ p n, ends y.kTest → lineOpen y.kSeen = some true → ∃ u, exec (.kelvinTestEnd t .p p n) s = .next u ∧
       u.chip.ret.sticky.getLsbD F.packKelvin = true ∧ u.chip.meas.iP.kelvinOpen = true ∧ u.chip.pack.st = .faultHold ∧
       (y.st ≠ .faultHold → u.chip.pack.offCause = 0x0A) ∧ u.chip.pack.kTest = none ∧ u.chip.pack.kPass = 0 ∧
       Keeps [.ret, .jrn, .meas, .pack, .alert] s u) ∧
     (∀ p n, ends y.kTest → lineOpen y.kSeen = some false → ∃ u, exec (.kelvinTestEnd t .p p n) s = .next u ∧ u.chip.pack.kTest = none ∧
       u.chip.pack.kPass = satInc 2 y.kPass ∧
       u.chip.meas.iP.kelvinOpen = (s.chip.meas.iP.kelvinOpen && decide (satInc 2 y.kPass < 2)) ∧
       (s.chip.meas.iP.kelvinOpen = true → 2 ≤ satInc 2 y.kPass → y.st = .faultHold → y.mirage = false →
         s.chip.prs.present = false → u.chip.pack.st = .noPack) ∧
       Keeps [.ret, .jrn, .meas, .pack, .alert] s u)) ∧
  (∀ (s : State) (t : Time) (mv : Int) (ns : Nat), s.chip.spi = [] →
     (running s.chip = true → mv < 8000 → us 100 ≤ ns → ∃ u, exec (.chargePumpLow t mv ns) s = .next u ∧
       u.chip.rail.pumpReady = false ∧
       (∀ f, feedDriven (feed u.chip f) = false ∧
         (feedAccepted (feed s.chip f) = true → (feed u.chip f).st = .blocking ∧ (feed u.chip f).offCause = 0x0D) ∧
         ((feed s.chip f).st = .inrush → (feed u.chip f).st = .held ∧ (feed u.chip f).offCause = 0x0D) ∧
         (feedAccepted (feed s.chip f) = false → (feed s.chip f).st ≠ .inrush → feed u.chip f = feed s.chip f)) ∧
       (packSunkSt s.chip.pack.st = false → u.chip.pack.cpLow = true ∧ u.chip.pack.offCause = 0x0E ∧ u.chip.pins.gateD = .sunk) ∧
       Keeps [.feedA, .feedB, .rail, .pack, .chg, .gauge] s u) ∧
     (running s.chip = true → mv < 10000 → 8000 ≤ mv ∨ ns < us 100 → exec (.chargePumpLow t mv ns) s =
       .next (after t (fun c => { c with rail.pumpReady := false }) s)) ∧
     (running s.chip = false ∨ 10000 ≤ mv → exec (.chargePumpLow t mv ns) s = .next (after t (fun c => c) s)) ∧
     (running s.chip = true → 10000 ≤ mv → us 100 ≤ ns → s.chip.pack.cpLow = false → exec (.chargePumpReady t mv ns) s =
       .next (after t (fun c => { c with rail.pumpReady := true }) s)) ∧
     (running s.chip = true → 10000 ≤ mv → us 100 ≤ ns → s.chip.pack.cpLow = true →
       ∃ u, exec (.chargePumpReady t mv ns) s = .next u ∧ u.chip.rail.pumpReady = true ∧ u.chip.pack.cpLow = false ∧
         u.chip.feedA = s.chip.feedA ∧ u.chip.feedB = s.chip.feedB ∧ KeepsImage s u ∧
         (anyFeed s.chip = true → s.chip.seq.spursOn = true → Keeps [.rail, .pack] s u)) ∧
     (running s.chip = false ∨ mv < 10000 ∨ ns < us 100 →
       exec (.chargePumpReady t mv ns) s = .next (after t (fun c => c) s)))

/-- Pre-charge (R208, R339 … R344, R381): a pack in WAIT over V_CHG + 0.2 V a cell is ISOLATED with F.PACK_OV, and one that the
configuration bars is ISOLATED too; otherwise, once the connection is authorised, no inrush runs and the GATE domain does, it goes
straight to STANDBY within the completion band, and to PRECHARGE where that is permitted. Pre-charge completes in STANDBY once its
conditions have held for 8 ms; PRE_TIME over it fails, with F.PACK_PRECHARGE. The mode and the spurs then follow the supply of VBUS,
which changes nothing while a feed is accepted and the spurs take their commands.

The pack's ideal diode (R208, R345 … R348): STANDBY becomes DIODE when the pack has stood 150 mV above the rail for 10 µs and
nothing inhibits it; DIODE returns to STANDBY when its gates have been sunk for 1 ms while a feed carries current, and at once,
with cause 0x02, on a reverse voltage beyond REV_THR. Short of that nothing happens. -/
def Obligations.PrechargeAndThePackDiode : Prop :=
  (∀ (s : State) (t : Time),
     let c := tick t s.chip
     let p := s.chip.pack
     let goes (d : Chip) : Outcome := .next (became (followRail s.nvm d) s)
     let above : Prop := cellsTimes c ((cfg c).charger.vChg + 200) < packMv c
     let barred : Prop := (cfg c).pack.unauth = 1 ∧ (c.tag.verdict = .notAuthenticated ∨ c.tag.verdict = .silent)
     let mayLeave : Prop := p.st = .wait ∧ ¬above ∧ ¬barred ∧ authorised c = true ∧ inrushing c = false ∧
       c.clk.stopped.getLsbD 0 = false
     let completes : Prop := p.st = .precharge ∧ p.cpLow = false ∧ ∃ t0, p.hold.preDone = some t0 ∧ t0 + ms 8 ≤ c.now
     (∀ d : Chip, anyFeed d = true → d.seq.spursOn = true → followRail s.nvm d = d) ∧
     (p.st = .wait → above → exec (.prechargeStart t) s = goes (setFault F.packOv (packOff .isolated 0x0B c))) ∧
     (p.st = .wait → ¬above → barred → exec (.prechargeStart t) s = goes (packOff .isolated 0x0C c)) ∧
     (mayLeave → packMv c - busMv c ≤ 1000 → exec (.prechargeStart t) s = goes (enterPack .standby c)) ∧
     (mayLeave → 1000 < packMv c - busMv c → prechargePermitted c = true → exec (.prechargeStart t) s =
       goes (let d := enterPack .precharge (leaveDuty c)
           { d with seq.preRan := true, pack := { d.pack with
               preAt := c.now, preBus := busMv c, preWords := [], iPre0 := 0, hold := { d.pack.hold with preDone := none } } })) ∧
     (p.st ≠ .wait ∨ (¬above ∧ ¬barred ∧ ¬mayLeave) ∨ (mayLeave ∧ 1000 < packMv c - busMv c ∧ prechargePermitted c = false) →
       exec (.prechargeStart t) s = goes c) ∧
     (completes → exec (.prechargeComplete t () () ()) s = goes (enterPack .standby { c with pack.preLast := tenths (c.now - p.preAt) })) ∧
     (¬completes → exec (.prechargeComplete t () () ()) s = goes c) ∧
     (p.st = .precharge → p.cpLow = false → p.preAt + ms (cfg c).pack.preTime ≤ t → s.chip.spi = [] →
       ∃ u, exec (.prechargeTimeout t) s = .next u ∧ u.chip.ret.sticky.getLsbD F.packPrecharge = true ∧
         u.chip.pack.st = (if p.retries < 3 then .retryWait else .latched) ∧
         u.chip.pack.lastFail.1 = (if busMv c - p.preBus < 1000 then 0x06 else 0x07) ∧
         u.chip.pack.offCause = u.chip.pack.lastFail.1 ∧ u.chip.pins.gatePc ≠ .on ∧ Keeps [.ret, .jrn, .pack, .alert] s u) ∧
     (p.st ≠ .precharge ∨ p.cpLow = true ∨ c.now < p.preAt + ms (cfg c).pack.preTime → s.chip.spi = [] →
       exec (.prechargeTimeout t) s = .next (after t (fun c => c) s))) ∧
  (∀ (s : State) (t : Time), s.chip.spi = [] →
     let c := tick t s.chip
     let p := s.chip.pack
     let rev : Int := -(((cfg s.chip).pack.revThr * 1000 : Nat) : Int)
     let again : Prop := p.st = .standby ∧ p.cpLow = false ∧ p.trip.due = none ∧ c.clk.stopped.getLsbD 0 = false ∧
       reenableInhibited c = false ∧ ∃ t0, p.hold.drop = some t0 ∧ t0 + us 10 ≤ c.now
     (again → exec (.packReenable t () ()) s = .next (became (followRail s.nvm (enterPack .diode c)) s)) ∧
     (again → ∃ u, exec (.packReenable t () ()) s = .next u ∧ u.chip.pack.st = .diode ∧
       (anyFeed s.chip = true → s.chip.seq.spursOn = true → Keeps [.pack] s u)) ∧
     (¬again → exec (.packReenable t () ()) s = .next (became (followRail s.nvm c) s)) ∧
     (∀ ns, p.st = .diode → inLimp s.chip = false → anyCarrying c = true → ms 1 ≤ ns →
       exec (.packStandDown t ns) s = .next (after t (enterPack .standby) s)) ∧
     (∀ ns, p.st ≠ .diode ∨ inLimp s.chip = true ∨ anyCarrying c = false ∨ ns < ms 1 →
       exec (.packStandDown t ns) s = .next (after t (fun c => c) s)) ∧
     (∀ uv, p.st = .diode → uv < rev → exec (.packFastReverse t uv) s = .next (after t (packOff .standby 0x02) s)) ∧
     (∀ uv, p.st ≠ .diode ∨ rev ≤ uv → exec (.packFastReverse t uv) s = .next (after t (fun c => c) s)))

/-- Charging starts (R186, R354, Table 8.10) when no reason stands against it, and then drives CHG_SET and CHG_EN; with any reason
but a deep discharge alone, and during a calibration point of I_P, nothing happens; a deep discharge alone sets F.PACK_DEEP once.

While it charges (R355 … R358): every 10 ms CHG_SET takes its setting; a V_PACK above its band takes I_CV down by a sixteenth
of I_MAX every 100 ms and one below V_CHG takes it up; a hot feed fuse takes I_FEED down by an eighth every second, and 10 s of cool
ones take it up (the instants of these steps are the model's choice, log entry 79); the trim moves k by at most 1/32 of itself within
3/4 … 5/4; the hand-back enters DIODE with cause 0x03. Out of CHARGE, and before their time, none of them acts.

Charger faults (R360, Table 8.5): one that holds for its time ends charging with cause 0x04, sets its bit and latches, so that
charging does not start again by itself; one that does not hold, and any out of CHARGE, does nothing. What holds is timed from the
words since which it has held: 1 s of over-voltage and of over-current, 30 s of a trim at its limit, 10 s without a current. -/
def Obligations.ChargingStartsIsLimitedAndFaults : Prop :=
  (∀ (s : State) (t : Time), s.chip.spi = [] →
     let reasons := (chargeReasons (tick t s.chip)).filter (·.2)
     let idle : Prop := exec (.chargeStart t) s = .next (after t (fun c => c) s)
     (reasons = [] → s.chip.cal.run = false ∨ s.chip.cal.ch ≠ 2 → ∃ u, exec (.chargeStart t) s = .next u ∧
       u.chip.pack.st = .charge ∧ u.chip.chg.spanPoint = false ∧ u.chip.chg.session = 0 ∧ u.chip.chg.eoc = false ∧
       u.chip.chg.iFeed = ((cfg s.chip).charger.iMax : Rat) ∧ u.chip.chg.set = chgSetting u.chip ∧
       (s.chip.seq.shutStep < 6 → u.chip.pins.chgEn = true ∧ u.chip.pins.chgSet = u.chip.chg.set) ∧
       Keeps [.pack, .chg, .gauge, .learn] s u) ∧
     (reasons = [] → s.chip.cal.run = true → s.chip.cal.ch = 2 → idle) ∧
     (∀ a b l, reasons = a :: b :: l → idle) ∧
     (∀ k b, reasons = [(k, b)] → k ≠ 10 ∨ s.chip.chg.latDeep = true → idle) ∧
     (∀ b, reasons = [(10, b)] → s.chip.chg.latDeep = false → exec (.chargeStart t) s =
       .next (after t (fun c => setFault F.packDeep { c with chg.latDeep := true }) s))) ∧
  (∀ (s : State) (t : Time), s.chip.spi = [] →
     let c := tick t s.chip
     let g := s.chip.chg
     let m : Rat := ((cfg s.chip).charger.iMax : Rat)
     let on : Prop := charging s.chip = true
     let hot := (feedsOn s.chip).any fun f => decide (1 < 2 * f.heat)
     let cool := (feedsOn s.chip).all fun f => decide (4 * f.heat < 1)
     let idle : State := after t (fun c => c) s
     (on → g.setAt + ms 10 ≤ t → ∃ u, exec (.chargeSetpointUpdate t) s = .next u ∧
       u.chip.chg.set = chgSetting s.chip ∧ u.chip.chg.setAt = max s.chip.now t ∧ u.chip.chg.k = g.k ∧ Keeps [.chg] s u) ∧
     (¬on ∨ c.now < g.setAt + ms 10 → exec (.chargeSetpointUpdate t) s = .next idle) ∧
     (on → g.spanPoint = false → g.cvAt + ms 100 ≤ t → exec (.chargeLimitStep t .iCv) s = .next (after t (fun c => { c with
       chg := { c.chg with
         iCv := if cellsTimes c ((cfg c).charger.vChg + 25) < packMv c then ratMax 0 (c.chg.iCv - m / 16)
                else if packMv c < cellsTimes c (cfg c).charger.vChg then ratMin m (c.chg.iCv + m / 16) else c.chg.iCv
         cvAt := c.now } }) s)) ∧
     (on → g.spanPoint = false → hot = true → g.feedDnAt + sec 1 ≤ t → exec (.chargeLimitStep t .iFeed) s =
       .next (after t (fun c => { c with
         chg := { c.chg with iFeed := ratMax 0 (c.chg.iFeed - m / 8), feedDnAt := c.now, feedUpAt := c.now } }) s)) ∧
     (on → g.spanPoint = false → hot = false → cool = true → g.feedUpAt + sec 10 ≤ t → exec (.chargeLimitStep t .iFeed) s =
       .next (after t (fun c => { c with chg := { c.chg with iFeed := ratMin m (c.chg.iFeed + m / 8), feedUpAt := c.now } }) s)) ∧
     (¬on ∨ g.spanPoint = true ∨ c.now < g.cvAt + ms 100 → exec (.chargeLimitStep t .iCv) s = .next idle) ∧
     (¬on ∨ g.spanPoint = true ∨ (hot = true ∧ c.now < g.feedDnAt + sec 1) ∨
       (hot = false ∧ (cool = false ∨ c.now < g.feedUpAt + sec 10)) → exec (.chargeLimitStep t .iFeed) s = .next idle) ∧
     (on → g.trimAt + sec 1 ≤ t → ∃ u, exec (.chargeTrim t) s = .next u ∧ u.chip.chg.trimAt = max s.chip.now t ∧
       (u.chip.chg.k = g.k ∨ (3 / 4 ≤ u.chip.chg.k ∧ u.chip.chg.k ≤ 5 / 4)) ∧
       (g.spanPoint = true ∨ iMeas c ≤ 200 → u.chip.chg.k = g.k) ∧ Keeps [.chg] s u) ∧
     (¬on ∨ c.now < g.trimAt + sec 1 → exec (.chargeTrim t) s = .next idle) ∧
     (∀ ns, on → us 20 ≤ ns → ∃ u, exec (.chargeHandBack t ns) s = .next u ∧
       u.chip.pack.st = (if reenableInhibited { c with pack.st := .diode } then .standby else .diode) ∧
       u.chip.chg.set = 0 ∧ u.chip.chg.lastEnd.1 = 3 ∧ u.chip.pins.chgEn = false ∧ Keeps [.pack, .chg, .gauge] s u) ∧
     (∀ ns, ¬on ∨ ns < us 20 → exec (.chargeHandBack t ns) s = .next idle)) ∧
  (∀ (s : State) (t : Time) (kind : ChgKind), s.chip.spi = [] →
     let held (d : Time) (o : Option Time) : Prop := ∃ t0, o = some t0 ∧ t0 + d ≤ max s.chip.now t
     let full : Rat := if s.chip.learn.learned then s.chip.learn.qFcc else ((cfg s.chip).pack.designCap : Rat)
     let holds : Prop := (kind = .overvolt ∧ held (sec 1) s.chip.pack.hold.chgHigh) ∨
       (kind = .overCurrent ∧ held (sec 1) s.chip.pack.hold.chgOver) ∨ (kind = .trimLimit ∧ held (sec 30) s.chip.chg.kBadAt) ∨
       (kind = .noCurrent ∧ held (sec 10) s.chip.pack.hold.chgNone) ∨ (kind = .overcharge ∧ 5 / 4 * full < s.chip.chg.session)
     (charging s.chip = true → holds → ∃ u, exec (.chargerFault t kind () ()) s = .next u ∧ u.chip.pack.st = .standby ∧
       u.chip.chg.lastEnd.1 = 4 ∧ u.chip.chg.set = 0 ∧ u.chip.ret.sticky.getLsbD (chargerBit kind) = true ∧
       u.chip.pins.chgEn = false ∧ (kind = .overvolt → u.chip.chg.latOv = true) ∧
       (kind = .overCurrent ∨ kind = .trimLimit → u.chip.chg.latCur = true) ∧
       (kind = .noCurrent → u.chip.chg.latNo = true) ∧ (kind = .overcharge → u.chip.chg.latOver = true) ∧
       Keeps [.ret, .jrn, .pack, .chg, .alert, .gauge] s u) ∧
     (charging s.chip = false ∨ ¬holds → exec (.chargerFault t kind () ()) s = .next (after t (fun c => c) s)))

/-- After every step the output pins tell the state: FAULT_N is low in CONFIGURE, PARKED, COUPLED and DEPOT while a sticky bit of
Table 16.1 drives it and high impedance otherwise (R787), and low while an internal reset stands (R46); only a gauge in COUPLED or
DEPOT whose path is in CHARGE drives CHG_EN, and without CHG_EN the setting is 0 (R359, Table 2.3). -/
def Obligations.PinsTellFaultsAndCharging : Prop :=
  ∀ s u : State, step s = .next u →
    (u.chip.seq.mode = .configure ∨ u.chip.seq.mode = .parked ∨ u.chip.seq.mode = .coupled ∨ u.chip.seq.mode = .depot →
      u.chip.atReset = false → u.chip.pins.faultN = (if u.chip.ret.sticky &&& faultMask = 0 then .hiZ else .low)) ∧
    (u.chip.atReset = true → u.chip.pins.faultN = .low) ∧
    (u.chip.pins.chgEn = true → (u.chip.seq.mode = .coupled ∨ u.chip.seq.mode = .depot) ∧ u.chip.pack.st = .charge) ∧
    (u.chip.pins.chgEn = false → u.chip.pins.chgSet = 0)

/-- Sharing (R361 … R365, Table 8.11): SHARE is sensed with 10 bits (log entry 116) and driven to v_D, which stays within
0.2 … 2.2 V; while the loop is active V_T of the pack takes a step of at most 5 mV every 1 ms from an error of 10 mV on, within
20 … 500 mV; inactive, it decays by 1 mV every 10 ms to 20 mV; SHARE outside 0.1 … 2.3 V for 10 ms sets F.SHARE_FAULT and stops the
loop; a gauge that does not drive SHARE does nothing. -/
def Obligations.ShareLoopDrivesAndFaults : Prop :=
  ∀ (s : State) (t : Time) (code : Nat), s.chip.spi = [] →
    let c := tick t s.chip
    let vB : Rat := (code : Rat) * 2500 / 1024
    let within : Prop := 100 ≤ vB ∧ vB ≤ 2300
    let vD := if s.chip.pair.drive.isSome then s.chip.share.vD else shareDrive c
    let act : Prop := s.chip.pack.st = .diode ∧ partnerDiode c = true ∧ (s.chip.share.fault = false ∨ within) ∧
      s.chip.pair.drive = none
    let v := s.chip.pack.vTp
    (shareDriven s.chip = true → ∃ u, exec (.shareLoopUpdate t code) s = .next u ∧
      u.chip.share.vB = vB ∧ u.chip.share.vD = vD ∧ (s.chip.pair.drive = none → 200 ≤ vD ∧ vD ≤ 2200) ∧
      (u.chip.share.active = true ↔ act) ∧ (u.chip.share.fault = true ↔ s.chip.share.fault = true ∧ ¬within) ∧
      (act → s.chip.share.at_ + ms 1 ≤ c.now → u.chip.pack.vTp = if absRat (vD - vB) < 10 then v
        else clampRat 20 500 (v + clampRat (-5) 5 ((vD - vB) / 20))) ∧
      (¬act → s.chip.pack.st ≠ .charge → s.chip.share.at_ + ms 10 ≤ c.now → u.chip.pack.vTp = ratMax 20 (v - 1)) ∧
      (s.chip.pack.st = .charge ∨ (act ∧ c.now < s.chip.share.at_ + ms 1) ∨ (¬act ∧ c.now < s.chip.share.at_ + ms 10) →
        u.chip.pack.vTp = v) ∧ Keeps [.pack, .share] s u) ∧
    (shareDriven s.chip = false → exec (.shareLoopUpdate t code) s = .next (after t (fun c => c) s)) ∧
    (∀ ns, shareDriven s.chip = true → ms 10 ≤ ns → ¬within →
      exec (.shareFault t code ns) s = .next (after t (fun c => { setFaultIf (!c.share.fault) F.shareFault c with
        share := { c.share with fault := true, active := false, vB := vB } }) s)) ∧
    (∀ ns, shareDriven s.chip = false ∨ ns < ms 10 ∨ within →
      exec (.shareFault t code ns) s = .next (after t (fun c => c) s))

/-- Faults of the pack path (R366 … R370, Table 8.2): more than 30 mA through gates sunk for 3 ms, or drawn from a rail above the pack
in STANDBY, is a mirage: it sets F.PACK_MIRAGE and holds the path in FAULT_HOLD, in OFF the bit alone; a mirage that overcharges for
1 s fails the accepted feeds; below −1 V for 10 ms the path is REVERSED with F.PACK_REVERSED, above 1 V for 100 ms a present pack
waits again. Short of that nothing happens.

Retries of the pack path (R337, R338): RETRY_WAIT ends after 10 s in WAIT, where the pack is judged anew; 60 s connected
without a failure clear the count. Short of that nothing happens. -/
def Obligations.PackFaultsAndRetries : Prop :=
  (∀ (s : State) (t : Time), s.chip.spi = [] →
     let c := tick t s.chip
     let p := s.chip.pack
     let held (d : Time) (o : Option Time) : Prop := ∃ t0, o = some t0 ∧ t0 + d ≤ c.now
     let idle : State := after t (fun c => c) s
     let stays : Prop := p.st = .off ∨ (p.st = .faultHold ∧ p.mirage = true)
     let mirage : Prop := charging s.chip = false ∧ ∃ i, msMean c .iP = some i ∧
       ((packSunkSt p.st = true ∧ p.offAt + ms 3 ≤ c.now ∧ 30 < absRat i) ∨
        (p.st = .standby ∧ p.standbyAt + ms 1 ≤ c.now ∧ packMv c + 100 ≤ busMv c ∧ i < -30))
     let reverses : Prop := running s.chip = true ∧ p.st ≠ .off ∧ p.st ≠ .reversed ∧ held (ms 10) p.hold.reversed
     let waits : Prop := p.st = .reversed ∧ held (ms 100) p.hold.forward ∧ s.chip.prs.present = true
     (mirage → ¬stays → ∃ u, exec (.packMirageCheck t) s = .next u ∧ u.chip.pack.st = .faultHold ∧
       u.chip.pack.mirage = true ∧ u.chip.pack.offCause = 8 ∧ u.chip.ret.sticky.getLsbD F.packMirage = true ∧
       Keeps [.ret, .jrn, .pack, .alert] s u) ∧
     (mirage → stays → exec (.packMirageCheck t) s = .next (after t (fun c => setFault F.packMirage c) s)) ∧
     (¬mirage → exec (.packMirageCheck t) s = .next idle) ∧
     (held (sec 1) p.hold.mirageHigh → ∃ u, exec (.packMirageFeedStop t () ()) s = .next u ∧
       (∀ f, feedAccepted (feed u.chip f) = false ∧
         (feedAccepted (feed s.chip f) = true → (feed u.chip f).offCause = 8 ∧
           (feed u.chip f).st = (if (feed s.chip f).retries < 3 then .retryWait else .latched)) ∧
         (feedAccepted (feed s.chip f) = false → feed u.chip f = feed s.chip f)) ∧ KeepsImage s u ∧
       Keeps [.nvm, .seq, .ret, .img, .jrn, .feedA, .feedB, .rail, .pack, .chg, .alert, .spurs, .gauge, .learn, .tag, .inn, .can,
         .host, .pair] s u) ∧
     (¬held (sec 1) p.hold.mirageHigh → exec (.packMirageFeedStop t () ()) s = .next idle) ∧
     (reverses → exec (.packReversed t () ()) s = .next (after t (fun c =>
       setFault F.packReversed (packOff .reversed 0x09 (endCharge 0x01 .standby c))) s)) ∧
     (¬reverses → exec (.packReversed t () ()) s = .next idle) ∧
     (waits → exec (.packReversalClear t () ()) s = .next (after t (fun c => waitChecks (enterPack .wait c)) s)) ∧
     (¬waits → exec (.packReversalClear t () ()) s = .next idle)) ∧
  (∀ (s : State) (t : Time), s.chip.spi = [] →
     (s.chip.pack.st = .retryWait → s.chip.pack.waitAt + sec 10 ≤ t → exec (.packRetryWaitExpiry t) s =
       .next (after t (fun c => waitChecks (enterPack .wait c)) s)) ∧
     (s.chip.pack.st ≠ .retryWait ∨ max s.chip.now t < s.chip.pack.waitAt + sec 10 →
       exec (.packRetryWaitExpiry t) s = .next (after t (fun c => c) s)) ∧
     (packConnected s.chip.pack.st = true → s.chip.pack.goodAt + sec 60 ≤ t → exec (.packRetryCountReset t) s =
       .next (after t (fun c => { c with pack.retries := 0 }) s)) ∧
     (packConnected s.chip.pack.st = false ∨ max s.chip.now t < s.chip.pack.goodAt + sec 60 →
       exec (.packRetryCountReset t) s = .next (after t (fun c => c) s)))

/-- The ramps of a spur (R393 … R398, R412, R438): a soft start that ends is ON, and its charge waits for the reads of the adapter unless
it was resumed or limited, when the next start takes up to twice as long; spurs that have followed it at two ramps in a row are tied, and
it and they are disabled; a ramp-down ends below 0.5 V in OFF, or in FAULTED from a probe, and a spur commanded on meanwhile starts again;
the current limit is noted while the switch conducts. No other spur changes. -/
def Obligations.SpurRampsEndOnOrOff : Prop :=
  ∀ (s : State) (t : Time) (n : Fin 8), s.chip.spi = [] →
    let x := spur s.chip n
    let others (u : State) : Prop := ∀ m, m ≠ n → spur u.chip m = spur s.chip m
    (∀ r, x.ramp = some r → x.st = .rampUp → ∀ vs,
      (tieConfirmed s.chip n vs = [] → exec (.spurRampComplete t n vs) s =
        .next (after t (fun c => updSpur n (fun x => { x with
          st := .on, onAt := c.now, ramp := none, tieCand := tieCandidates c n vs, overs := 0, diagAt := c.now
          est := if r.resumed || r.limited then none
                 else some { start := r.start, end_ := c.now, q := x.rampQ, readAt := none }
          tR := if r.limited then min ((spurCfg c n).ssMax * 50) (2 * x.tR) else x.tR }) c) s)) ∧
      (tieConfirmed s.chip n vs ≠ [] → ∃ u, exec (.spurRampComplete t n vs) s = .next u ∧
        (∀ m, m = n ∨ m ∈ tieConfirmed s.chip n vs → (spur u.chip m).st = .tiedOff ∧ (spur u.chip m).offCause = 0x0B ∧
          u.chip.ret.sticky.getLsbD (F.spurTied m) = true) ∧
        (∀ m, (∀ k, k = n ∨ k ∈ tieConfirmed s.chip n vs → m ≠ k ∧
            ((spur s.chip k).merged = true → (spur s.chip k).tied.getLsbD m.val = false)) → spur u.chip m = spur s.chip m) ∧
        Keeps [.ret, .jrn, .alert, .spurs, .inn, .can, .pair] s u)) ∧
    (∀ vs, x.st ≠ .rampUp ∨ x.ramp = none → exec (.spurRampComplete t n vs) s = .next (after t (fun c => c) s)) ∧
    (∀ mv, x.st = .rampDown → mv < 500 →
      let again : Bool := spurCommand s.chip n && !x.hot && (x.probing.isNone || x.probeHeld)
      ∃ u, exec (.spurRampdownComplete t n mv) s = .next u ∧
        (spur u.chip n).st = (if again then .rampUp else if x.probing.isSome then .faulted else .off) ∧
        (spur u.chip n).cmd = spurCommand s.chip n ∧ (spur u.chip n).offCause = x.offCause ∧
        (again = false → (spur u.chip n).ramp = none) ∧ others u ∧ Keeps [.spurs] s u) ∧
    (∀ mv, x.st ≠ .rampDown ∨ 500 ≤ mv → exec (.spurRampdownComplete t n mv) s = .next (after t (fun c => c) s)) ∧
    (∀ b, conducting x.st = true → exec (.spurCurrentLimit t n b) s = .next (after t (fun c => updSpur n (fun x =>
      { x with
        limiting := b, limAt := if b = true ∧ x.limiting = false then c.now else x.limAt
        ramp := x.ramp.map fun r => { r with limited := r.limited || (b && x.st == .rampUp) } }) c) s)) ∧
    (∀ b, conducting x.st = false → exec (.spurCurrentLimit t n b) s = .next (after t (fun c => c) s))

/-- Failures of a spur (R400, R401, R403, R404, R437): the current limit held for more than 1 ms, a ramp that has not reached 90 % of
V_BUS at its deadline and a junction at 175 °C open the switch, with their bits and off causes; a probe that fails is FAULTED again,
otherwise the spur waits for a retry while any is left, then one with guests is CUT and one without is FAULTED. A junction that overheats
at the instant of a failure by the current limit, before or after it, sets both bits and counts one retry. No other spur changes, and
nothing that is no failure acts. -/
def Obligations.SpurFailuresRetryThenCutOrFault : Prop :=
  ∀ (s : State) (t : Time) (n : Fin 8), s.chip.spi = [] →
    let x := spur s.chip n
    let now := max s.chip.now t
    let again : Prop := x.probing = none ∧ x.retries < (spurCfg s.chip n).retries
    let next : SpurSt := if x.probing.isSome then .faulted
      else if x.retries < (spurCfg s.chip n).retries then .retryWait
      else if hasGuests s.chip n then .cut else .faulted
    let failed (u : State) (cause : Nat) : Prop := (spur u.chip n).st = next ∧ (spur u.chip n).offCause = cause ∧
      (spur u.chip n).lastFail.1 = cause ∧ (spur u.chip n).ramp = none ∧ (spur u.chip n).probing = none ∧
      (again → (spur u.chip n).retries = x.retries + 1 ∧ (spur u.chip n).waitAt = now) ∧
      (¬again → (spur u.chip n).retries = x.retries) ∧
      (x.probing = none → next = .faulted → u.chip.ret.sticky.getLsbD (F.spurFaulted n) = true) ∧
      (∀ m, m ≠ n → spur u.chip m = spur s.chip m) ∧ Keeps [.ret, .jrn, .alert, .spurs, .inn, .can, .pair] s u
    (∀ ns, x.limiting = true → ms 1 < ns → x.st = .rampUp ∨ x.st = .on → ∃ u, exec (.spurLimitHeld t n ns) s = .next u ∧
      failed u (if x.st = .rampUp then 2 else 4) ∧ u.chip.ret.sticky.getLsbD (F.spurShort n) = true) ∧
    (∀ ns, x.limiting = false ∨ ns ≤ ms 1 ∨ (x.st ≠ .rampUp ∧ x.st ≠ .on) →
      exec (.spurLimitHeld t n ns) s = .next (after t (fun c => c) s)) ∧
    (∀ r, x.ramp = some r → ∀ mv : Int,
      let late : Prop := x.st = .rampUp ∧ r.from_ + us x.tR + ms 2 ≤ now ∧ (mv : Rat) * 10 < 9 * s.chip.meas.vBus.precHeld
      (late → ∃ u, exec (.spurRampDeadline t n mv) s = .next u ∧ failed u 3 ∧
        u.chip.ret.sticky.getLsbD (F.spurShort n) = true) ∧
      (¬late → exec (.spurRampDeadline t n mv) s = .next (after t (fun c => c) s))) ∧
    (∀ mv, x.ramp = none → exec (.spurRampDeadline t n mv) s = .next (after t (fun c => c) s)) ∧
    (∀ tj, conducting x.st = true → 175 ≤ tj → ∃ u, exec (.spurThermalShutdown t n tj) s = .next u ∧
      failed u 6 ∧ (spur u.chip n).hot = true ∧ u.chip.ret.sticky.getLsbD (F.spurThermal n) = true ∧
      (x.limiting = true → x.st ≠ .rampDown → x.limAt + ms 1 < now → u.chip.ret.sticky.getLsbD (F.spurShort n) = true)) ∧
    (∀ tj, conducting x.st = false → 175 ≤ tj → x.limFailAt = some now → x.hot = false → ∃ u,
      exec (.spurThermalShutdown t n tj) s = .next u ∧ (spur u.chip n).hot = true ∧ (spur u.chip n).st = x.st ∧
      (spur u.chip n).retries = x.retries ∧ u.chip.ret.sticky.getLsbD (F.spurThermal n) = true ∧
      (∀ m, m ≠ n → spur u.chip m = spur s.chip m) ∧ Keeps [.ret, .jrn, .alert, .spurs] s u) ∧
    (∀ tj, tj < 175 ∨ (conducting x.st = false ∧ (x.limFailAt ≠ some now ∨ x.hot = true)) →
      exec (.spurThermalShutdown t n tj) s = .next (after t (fun c => c) s))

/-- Retries of a spur (R393, R402, R404): RETRY_WAIT ends after 100 ms, with a soft start where the spur is commanded on and cool,
in OFF where it is commanded off, and not at all while it is hot; a cooled junction no longer holds the spur, and a start that waited for
it happens; 60 s in ON clear the count of a spur without guests, and of every spur in LIMP.

FAULTED spurs (R403): 10 min after the last one a probe falls due; it starts at once on a cool spur that is commanded on, and is held
ready otherwise; a probe that has been ON for 1 s since it began has succeeded, and the retries begin anew. Short of that nothing
happens. -/
def Obligations.SpurRetriesAndFaultedProbes : Prop :=
  (∀ (s : State) (t : Time) (n : Fin 8), s.chip.spi = [] →
     let x := spur s.chip n
     let now := max s.chip.now t
     let due : Prop := x.st = .retryWait ∧ x.waitAt + ms 100 ≤ now
     let cleared : Prop := x.st = .on ∧ x.onAt + sec 60 ≤ now ∧ (inLimp s.chip = true ∨ hasGuests s.chip n = false)
     (due → x.cmd = true → x.hot = false →
       exec (.spurRetryWaitExpiry t n) s = .next (after t (fun c => updSpur n (startRamp c.now) c) s)) ∧
     (due → x.cmd = false →
       exec (.spurRetryWaitExpiry t n) s = .next (after t (updSpur n fun x => { x with st := .off }) s)) ∧
     (¬due ∨ (x.cmd = true ∧ x.hot = true) → exec (.spurRetryWaitExpiry t n) s = .next (after t (fun c => c) s)) ∧
     (∀ tj, x.hot = true → tj < 155 →
       let waits : Prop := x.st = .off ∨ due ∨ (x.st = .faulted ∧ x.probeHeld = true) ∨ x.st = .rampDown
       ∃ u, exec (.spurThermalCooled t n tj) s = .next u ∧ (spur u.chip n).hot = false ∧
         (spur u.chip n).cmd = spurCommand s.chip n ∧
         (x.cmd = true → spurCommand s.chip n = true →
           (waits → (spur u.chip n).st = .rampUp) ∧ (¬waits → (spur u.chip n).st = x.st)) ∧
         (∀ m, m ≠ n → spur u.chip m = spur s.chip m) ∧ Keeps [.spurs] s u) ∧
     (∀ tj, x.hot = false ∨ 155 ≤ tj → exec (.spurThermalCooled t n tj) s = .next (after t (fun c => c) s)) ∧
     (cleared → exec (.spurRetryCountReset t n) s = .next (after t (updSpur n fun x => { x with retries := 0 }) s)) ∧
     (¬cleared → exec (.spurRetryCountReset t n) s = .next (after t (fun c => c) s))) ∧
  (∀ (s : State) (t : Time) (n : Fin 8), s.chip.spi = [] →
     let x := spur s.chip n
     let now := max s.chip.now t
     let due : Prop := x.st = .faulted ∧ x.probeHeld = false ∧ x.probeAt + minutes 10 ≤ now
     let starts : Bool := spurCommand s.chip n && !x.hot
     let succeeded : Prop := ∃ p, x.probing = some p ∧ x.st = .on ∧ p + sec 1 ≤ now
     (due → ∃ u, exec (.spurFaultedProbe t n) s = .next u ∧ (spur u.chip n).cmd = spurCommand s.chip n ∧
       (spur u.chip n).st = (if starts then .rampUp else .faulted) ∧ (spur u.chip n).probeHeld = !starts ∧
       (spur u.chip n).probing = (if starts then some now else x.probing) ∧
       (spur u.chip n).probeAt = (if starts then now else x.probeAt) ∧
       (∀ m, m ≠ n → spur u.chip m = spur s.chip m) ∧ Keeps [.spurs] s u) ∧
     (¬due → exec (.spurFaultedProbe t n) s = .next (after t (fun c => c) s)) ∧
     (succeeded →
       exec (.spurProbeSuccess t n) s = .next (after t (updSpur n fun x => { x with probing := none, retries := 0 }) s)) ∧
     (¬succeeded → exec (.spurProbeSuccess t n) s = .next (after t (fun c => c) s)))

/-- Backfeed (R393, R406, R434): 0.3 V above the rail blocks a spur in RAMP_UP or ON, with F.SPUR_BACKFEED and cause 0x07; BLOCKED ends
when every voltage over 1 s has read below 2.0 V, in OFF, from where a spur commanded on starts unless it is hot. Short of that nothing
happens.

Open-load diagnosis (R413 … R416, R432): the off-state test after an undiagnosed slot finds a spur open above 1.0 V; once a second a
spur without slots, and in LIMP every spur, is diagnosed, in ON by a mean current below 2 mA, in OFF by the test. The second finding in a
row sets F.SPUR_OPEN_LOAD; one that finds a load clears the indication, not the bit. No other spur changes.

Totals (R418): one that has exceeded its limit for 100 ms sets F.SPUR_TOTAL and turns off the spur that is on with the greatest
excess over its allowance, of equals the higher-numbered: a spur with guests is CUT, and one without fails with cause 0x09; with no
spur on, nothing else follows. -/
def Obligations.BackfeedOpenLoadAndTotals : Prop :=
  (∀ (s : State) (t : Time) (n : Fin 8), s.chip.spi = [] →
     let x := spur s.chip n
     let now := max s.chip.now t
     let recent := x.vHist.filter fun p => decide (now ≤ p.2 + sec 1)
     let released : Prop := x.st = .blocked ∧ x.blockedAt + sec 1 ≤ now ∧ recent ≠ [] ∧ ∀ p ∈ recent, p.1 < 2000
     (∀ mv, x.st = .rampUp ∨ x.st = .on → 300 ≤ mv → ∃ u,
       exec (.spurBackfeedOn t n mv) s = .next u ∧ (spur u.chip n).st = .blocked ∧ (spur u.chip n).offCause = 7 ∧
       (spur u.chip n).lastFail.1 = 7 ∧ (spur u.chip n).retries = x.retries ∧
       (spur u.chip n).blockedAt = now ∧ u.chip.ret.sticky.getLsbD (F.spurBackfeed n) = true ∧
       (∀ m, m ≠ n → spur u.chip m = spur s.chip m) ∧ Keeps [.ret, .jrn, .alert, .spurs, .inn, .can, .pair] s u) ∧
     (∀ mv, (x.st ≠ .rampUp ∧ x.st ≠ .on) ∨ mv < 300 →
       exec (.spurBackfeedOn t n mv) s = .next (after t (fun c => c) s)) ∧
     (released → ∃ u, exec (.spurBlockedRelease t n) s = .next u ∧ (spur u.chip n).cmd = spurCommand s.chip n ∧
       (spur u.chip n).st = (if spurCommand s.chip n && !x.hot then .rampUp else .off) ∧
       (∀ m, m ≠ n → spur u.chip m = spur s.chip m) ∧ Keeps [.spurs] s u) ∧
     (¬released → exec (.spurBlockedRelease t n) s = .next (after t (fun c => c) s))) ∧
  (∀ (s : State) (t : Time) (n : Fin 8) (mv : Int), s.chip.spi = [] →
     let x := spur s.chip n
     let now := max s.chip.now t
     let found (o : Bool) (u : State) : Prop := (spur u.chip n).lastOpen = o ∧
       (spur u.chip n).openLoad = (o && (x.lastOpen || x.openLoad)) ∧
       (spur u.chip n).findings = (if o then satInc 65535 x.findings else x.findings) ∧ (spur u.chip n).st = x.st ∧
       (o = true → x.lastOpen = true → x.openLoad = false → u.chip.ret.sticky.getLsbD (F.spurOpenLoad n) = true) ∧
       (o = false ∨ x.lastOpen = false ∨ x.openLoad = true → Keeps [.spurs] s u) ∧
       (∀ m, m ≠ n → spur u.chip m = spur s.chip m) ∧ Keeps [.ret, .jrn, .alert, .spurs] s u
     let testable : Prop := x.testDue = true ∧ x.st = .off ∧ x.cmd = false ∧ ∃ p, x.vHist.head? = some p ∧ p.1 < 200
     let due : Prop := (inLimp s.chip = true ∨ hasGuests s.chip n = false) ∧ x.diagAt + sec 1 ≤ now
     (testable → ∃ u, exec (.spurOffStateTestEnd t n mv) s = .next u ∧ found (decide (1000 < mv)) u ∧
       (spur u.chip n).testDue = false ∧ (spur u.chip n).sinceTest = 0) ∧
     (¬testable → exec (.spurOffStateTestEnd t n mv) s = .next (after t (fun c => c) s)) ∧
     (due → x.st = .on → x.onQ.2 ≠ 0 → ∃ u, exec (.spurContinuousDiagnosis t n mv) s = .next u ∧
       found (decide (x.onQ.1 / (x.onQ.2 : Rat) < 2)) u ∧ (spur u.chip n).diagAt = now ∧ (spur u.chip n).onQ = (0, 0)) ∧
     (due → x.st = .on → x.onQ.2 = 0 → exec (.spurContinuousDiagnosis t n mv) s =
       .next (after t (fun c => updSpur n (fun x => { x with diagAt := c.now, onQ := (0, 0) }) c) s)) ∧
     (due → x.st = .off → x.cmd = false → ∃ u, exec (.spurContinuousDiagnosis t n mv) s = .next u ∧
       found (decide (1000 < mv)) u ∧ (spur u.chip n).diagAt = now) ∧
     (¬due ∨ (x.st ≠ .on ∧ (x.st ≠ .off ∨ x.cmd = true)) →
       exec (.spurContinuousDiagnosis t n mv) s = .next (after t (fun c => c) s))) ∧
  (∀ (s : State) (t : Time), s.chip.spi = [] →
     let now := max s.chip.now t
     let old (o : Option Time) : Prop := ∃ t0, o = some t0 ∧ t0 + ms 100 ≤ now
     let exceeded : Prop := old s.chip.totals.all ∨ old s.chip.totals.low ∨ old s.chip.totals.high
     let excess (n : Fin 8) : Rat := ((spur s.chip n).iLast).getD 0 -
       (if hasGuests s.chip n then (guestAllowance s.chip n : Rat) else spurAllowance s.chip)
     let shed (n : Fin 8) (u : State) : Prop := (spur u.chip n).offCause = 9 ∧ (spur u.chip n).lastFail.1 = 9 ∧
       u.chip.ret.sticky.getLsbD F.spurTotal = true ∧ u.chip.totals = {} ∧ (∀ m, m ≠ n → spur u.chip m = spur s.chip m) ∧
       Keeps [.ret, .jrn, .alert, .spurs, .totals, .inn, .can, .pair] s u
     (∀ n, greatestExcess s.chip = some n → (spur s.chip n).st = .on ∧ ∀ m, (spur s.chip m).st = .on →
       excess m ≤ excess n ∧ (excess m = excess n → m ≤ n)) ∧
     (exceeded → (∀ n, (spur s.chip n).st ≠ .on) → exec (.spurTotalOverload t) s =
       .next (after t (fun c => { setFault F.spurTotal c with totals := {} }) s)) ∧
     (∀ n, greatestExcess s.chip = some n → exceeded → hasGuests s.chip n = true →
       ∃ u, exec (.spurTotalOverload t) s = .next u ∧ shed n u ∧ (spur u.chip n).st = .cut) ∧
     (∀ n, greatestExcess s.chip = some n → exceeded → hasGuests s.chip n = false →
       ∃ u, exec (.spurTotalOverload t) s = .next u ∧ shed n u ∧
         (spur u.chip n).st = (if (spur s.chip n).probing.isSome then .faulted
           else if (spur s.chip n).retries < (spurCfg s.chip n).retries then .retryWait else .faulted)) ∧
     (¬exceeded → exec (.spurTotalOverload t) s = .next (after t (fun c => c) s)))

/-- The governor (R449 … R452, R486, Table 10.4). In a duty state an on-window starts and ends the modulators, once a second; a crossing of
the wake comparator starts a burst with a current read of every spur that is on, and a burst whose current has stayed below QUIET for
10 ms ends; a second that ends counts its charge, of a duty state by the base, the spurs and the bursts, with the gauge's own draw in
PARKED, and takes the next state from its mean current. In FULL there is neither an on-window nor a burst. -/
def Obligations.GovernorRunsTheModulators : Prop :=
  ∀ (s : State) (t : Time), s.chip.spi = [] →
    let c := tick t s.chip
    let g := s.chip.gauge.gov
    let all (b : Bool) (u : State) : Prop := ∀ x, (chan u.chip x).running = b
    let opens : Prop := g.st ≠ .full ∧ g.win = none ∧ (g.winStart < g.secAt ∨ g.winStart = 0)
    let crosses (uv : Int) : Prop := g.st ≠ .full ∧ g.burst = none ∧ wakeUv s.chip ≤ absRat (uv : Rat)
    let ends : Prop := g.burst ≠ none ∧ ∃ q, g.quietAt = some q ∧ q + ms 10 ≤ c.now
    let self : Rat := selfMa (modDuty c) *
      ((if s.chip.seq.mode = .parked then c.now - max g.secAt s.chip.seq.modeAt else 0 : Nat) : Rat)
    let charge : Rat := if g.st = .full then g.wordQ else dutyCharge c
    (opens → ∃ u, exec (.governorOnWindow t true) s = .next u ∧
      u.chip.gauge.gov.win = some c.now ∧ u.chip.gauge.gov.st = g.st ∧ all true u ∧ Keeps [.meas, .gauge] s u) ∧
    (¬opens → exec (.governorOnWindow t true) s = .next (after t (fun c => c) s)) ∧
    (∀ w, g.st ≠ .full → g.win = some w → w + (if g.st = .duty05 then ms 5 else ms 20) ≤ c.now → ∃ u,
      exec (.governorOnWindow t false) s = .next u ∧ u.chip.gauge.gov.win = none ∧ u.chip.gauge.gov.winStart = w ∧
      u.chip.gauge.gov.winEnd = c.now ∧ u.chip.gauge.gov.iBase = windowBase w c ∧ u.chip.gauge.gov.st = g.st ∧
      (g.burst ≠ none → all true u) ∧ (g.burst = none → g.runAt.isSome = true → all false u) ∧ Keeps [.meas, .gauge] s u) ∧
    (g.st = .full ∨ g.win = none ∨ (∃ w, g.win = some w ∧ c.now < w + (if g.st = .duty05 then ms 5 else ms 20)) →
      exec (.governorOnWindow t false) s = .next (after t (fun c => c) s)) ∧
    (∀ uv, crosses uv → ∃ u, exec (.wakeComparatorCrossing t uv) s = .next u ∧ u.chip.gauge.gov.burst = some c.now ∧
      u.chip.gauge.gov.st = g.st ∧ u.chip.gauge.gov.bursts = satInc 65535 g.bursts ∧ all true u ∧
      (∀ n, (spur s.chip n).st = .on → { spur := n, kind := .governor } ∈ u.chip.aux.edges) ∧
      Keeps [.meas, .aux, .gauge] s u) ∧
    (∀ uv, ¬crosses uv → exec (.wakeComparatorCrossing t uv) s = .next (after t (fun c => c) s)) ∧
    (ends → ∃ u, exec (.burstEnd t () ()) s = .next u ∧ u.chip.gauge.gov.burst = none ∧ u.chip.gauge.gov.st = g.st ∧
      (∀ n, (spur s.chip n).st = .on → { spur := n, kind := .governor } ∈ u.chip.aux.edges) ∧
      (g.st ≠ .full → g.win = none → g.runAt.isSome = true → all false u) ∧ Keeps [.meas, .aux, .gauge] s u) ∧
    (¬ends → exec (.burstEnd t () ()) s = .next (after t (fun c => c) s)) ∧
    (g.secAt + sec 1 ≤ c.now → ∃ u, exec (.governorSecond t) s = .next u ∧ u.chip.gauge.gov.secAt = c.now ∧
      u.chip.gauge.gov.iSec = (charge + g.selfQ + self) / 1000000000 ∧
      (s.chip.prs.present = true → absRat u.chip.gauge.cnt.rest * 2 ≤ 1 ∧
        (u.chip.gauge.cnt.n : Rat) - u.chip.gauge.cnt.rest = (s.chip.gauge.cnt.n : Rat) - s.chip.gauge.cnt.rest
          - (if g.st = .full then 0 else unitsOf charge) - unitsOf self) ∧
      (s.chip.prs.present = false → u.chip.gauge.cnt = s.chip.gauge.cnt) ∧
      let q : Rat := ((cfg s.chip).gauge.quiet : Rat)
      let i := absRat u.chip.gauge.gov.iSec
      (g.st = .full → (u.chip.gauge.gov.st = .duty2 ↔ s.chip.seq.mode = .parked ∧ i < q ∧ 59 ≤ g.qual) ∧
        u.chip.gauge.gov.st ≠ .duty05) ∧
      (g.st ≠ .full → (u.chip.gauge.gov.st = .full ↔ q ≤ i)) ∧
      (g.st = .duty2 → (u.chip.gauge.gov.st = .duty05 ↔ i < q ∧ i * 4 < q ∧ 3599 ≤ g.qual)) ∧
      (g.st = .duty05 → (u.chip.gauge.gov.st = .duty2 ↔ i < q ∧ q ≤ i * 4)) ∧
      (u.chip.gauge.gov.st = .full → u.chip.gauge.gov.win = none ∧ u.chip.gauge.gov.burst = none) ∧
      Keeps [.meas, .pack, .gauge, .learn] s u) ∧
    (c.now < g.secAt + sec 1 → exec (.governorSecond t) s = .next (after t (fun c => c) s))

/-- Gaps, rest and anchors (R448, R453 … R456): OPEN or OVER words for more than 1 s set F.GAUGE_COUNT_GAP; a second below REST
counts towards t_rest and indicates rest when it is reached, one at REST or above ends rest, and one without a mean changes neither; at
rest an anchor falls due, and the next 30 min later: with a temperature of 0 … 50 °C that is no substitute of last resort, in the anchor
window of the chemistry, it waits for the next update. Without 16 words of both channels below REST nothing falls due. -/
def Obligations.RestSecondsLeadToAnchors : Prop :=
  ∀ (s : State) (t : Time), s.chip.spi = [] →
    let c := tick t s.chip
    let g := s.chip.gauge
    let rest : Rat := ((cfg s.chip).gauge.rest : Rat)
    let gaps : Prop := g.cnt.gap = false ∧ ∃ t0, g.cnt.gapAt = some t0 ∧ t0 + sec 1 < c.now
    let due : Prop := g.rest = true ∧ g.formed = true ∧ s.chip.prs.present = true ∧ inLimp s.chip = false ∧ g.anchorAt ≤ c.now
    (gaps → ∃ u, exec (.countGap t) s = .next u ∧
      u.chip.gauge.cnt.gap = true ∧ u.chip.gauge.cnt.gaps = g.cnt.gaps + 1 ∧
      u.chip.ret.sticky.getLsbD F.countGap = true ∧ u.chip.gauge.z = g.z ∧ Keeps [.ret, .jrn, .alert, .gauge] s u) ∧
    (¬gaps → exec (.countGap t) s = .next (after t (fun c => c) s)) ∧
    (g.restAt + sec 1 ≤ c.now → ∃ u, exec (.restSecond t) s = .next u ∧ u.chip.gauge.restAt = c.now ∧
      (∀ i, secondMean c = some i → i < rest → u.chip.gauge.qualS = satInc (65535 * 60) g.qualS ∧
        (u.chip.gauge.rest = true ↔ g.rest = true ∨ u.chip.gauge.tRest ≤ (u.chip.gauge.qualS : Rat)) ∧
        (g.rest = false → u.chip.gauge.rest = true → u.chip.gauge.anchorAt = c.now ∧ u.chip.gauge.restFrom = c.now)) ∧
      (∀ i, secondMean c = some i → rest ≤ i → u.chip.gauge.rest = false ∧ u.chip.gauge.qualS = 0) ∧
      (secondMean c = none → u.chip.gauge.rest = g.rest ∧ u.chip.gauge.qualS = g.qualS) ∧
      (∀ t0, g.gAt = some t0 → c.now < t0 + minutes 1 → u.chip.gauge.tRest = g.tRest) ∧ Keeps [.gauge] s u) ∧
    (c.now < g.restAt + sec 1 → exec (.restSecond t) s = .next (after t (fun c => c) s)) ∧
    (due → ∀ vs is, anchorWords c = some (vs, is) → ∃ u, exec (.anchorDue t) s = .next u ∧
      u.chip.gauge.anchorAt = c.now + minutes 30 ∧ u.chip.gauge.z = g.z ∧ Keeps [.gauge] s u ∧
      let d : Chip := { c with gauge.fT := formFT c }
      let zA := ocvInv d (meanCellV c vs + meanPackMa c is / 1000 * serOhm d g.z + g.uF + g.uS)
      let good : Prop := s.chip.tmp.packFormed = true ∧ s.chip.tmp.packSrc ≠ 5 ∧ 0 ≤ s.chip.tmp.pack ∧ s.chip.tmp.pack ≤ 5000 ∧
        inWindow s.chip zA = true
      (good → u.chip.gauge.anchor.map (fun d => (d.v, d.i)) = some (meanCellV c vs, meanPackMa c is) ∧ u.chip.gauge.zA = zA ∧
        u.chip.gauge.anchorUsed = false) ∧
      (¬good → u.chip.gauge.anchor = g.anchor ∧ u.chip.gauge.zA = g.zA)) ∧
    (¬due ∨ anchorWords c = none → exec (.anchorDue t) s = .next (after t (fun c => c) s))

/-- Estimates (R458, R472, R473, R477, R515, R516): the estimator updates every 250 ms with a feed, in PARKED after a governor second in
FULL and after an on-window in a duty state, and in LIMP the figures follow the counted state every second; the first estimate forms when it
is wanted and 64 words have arrived; the phases of an impedance measurement end in their order, the first with the series resistance of the
step, the others once 5 fast and 3 slow time constants have passed. Otherwise none of them acts. -/
def Obligations.EstimatesFormAndUpdate : Prop :=
  ∀ (s : State) (t : Time), s.chip.spi = [] →
    let c := tick t s.chip
    let g := s.chip.gauge
    let mode (m : Mode) : Prop := s.chip.seq.mode = m
    let due : Prop := ((mode .coupled ∨ mode .depot) ∧ g.updAt + ms 250 ≤ c.now) ∨ (mode .limp ∧ g.updAt + sec 1 ≤ c.now) ∨
      (mode .parked ∧ ((g.gov.st = .full ∧ g.updAt < g.gov.secAt) ∨
        (g.gov.st ≠ .full ∧ g.updAt < g.gov.winEnd ∧ g.gov.win = none)))
    let ready : Prop := g.wanted = true ∧ g.formed = false ∧ s.chip.prs.present = true ∧ 64 ≤ g.v0n ∧ inLimp s.chip = false
    (due → inLimp s.chip = false → g.formed = true → s.chip.prs.present = true →
      ∃ u, exec (.estimatorUpdate t) s = .next u ∧ u.chip.gauge.updAt = c.now ∧
      u.chip.gauge.updN = g.cnt.n ∧ u.chip.gauge.cnt = g.cnt ∧ u.chip.gauge.anchor = none ∧
      0 ≤ u.chip.gauge.z ∧ u.chip.gauge.z ≤ 1 ∧
      Keeps [.nvm, .ret, .jrn, .chg, .share, .alert, .gauge, .learn, .tag, .inn, .pair] s u) ∧
    (due → inLimp s.chip = true → ∃ u, exec (.estimatorUpdate t) s = .next u ∧
      u.chip.gauge.z = g.z ∧ u.chip.learn.soc = g.z ∧ u.chip.learn.rm = g.z * g.limpFcc ∧
      u.chip.gauge.updAt = c.now ∧ u.chip.gauge.updN = g.cnt.n ∧ Keeps [.gauge, .learn] s u) ∧
    (¬due ∨ (inLimp s.chip = false ∧ (g.formed = false ∨ s.chip.prs.present = false)) →
      exec (.estimatorUpdate t) s = .next (after t (fun c => c) s)) ∧
    (ready → ∃ u, exec (.firstEstimate t) s = .next u ∧ u.chip.gauge.formed = true ∧
      u.chip.gauge.wanted = false ∧ u.chip.ret.packKept = true ∧ u.chip.gauge.uF = 0 ∧ u.chip.gauge.uS = 0 ∧
      0 ≤ u.chip.gauge.z ∧ u.chip.gauge.z ≤ 1 ∧
      u.chip.gauge.updAt = c.now ∧ u.chip.gauge.updN = g.cnt.n ∧ u.chip.gauge.cnt = g.cnt ∧
      Keeps [.nvm, .ret, .jrn, .chg, .share, .alert, .gauge, .learn, .inn, .pair] s u) ∧
    (¬ready → exec (.firstEstimate t) s = .next (after t (fun c => c) s)) ∧
    (∀ r, s.chip.learn.impRun = some r → ∀ i1, r.i1 = some i1 →
      let at_ := c.now - r.at_
      let idle : Prop := exec (.impedancePhaseEnd t) s = .next (after t (fun c => c) s)
      let ends (next : Option ImpRun) (k : Nat) : Prop := ∃ u, exec (.impedancePhaseEnd t) s = .next u ∧
        u.chip.learn.impRun = next ∧ u.chip.learn.impLast.1 = k ∧ Keeps [.ret, .jrn, .alert, .learn] s u
      (r.phase = 0 →
        ends (some { r with phase := 1, serM := some ((r.track.getLast?).elim (impRatio s.chip r i1) (·.2)) }) 1) ∧
      (r.phase = 1 → ∀ ser, r.serM = some ser →
        (nsSec at_ < 5 * tauFAt s.chip r.z → idle) ∧
        (5 * tauFAt s.chip r.z ≤ nsSec at_ → ∃ u, exec (.impedancePhaseEnd t) s = .next u ∧
          u.chip.learn.impLast.1 = 2 ∧ u.chip.learn.impRun.map (fun x => { x with tauFM := none }) = some { r with
            phase := 2, tauFM := none
            polFM := some (impRatio s.chip r i1 - ser - polSAt s.chip r.z * (1 - expNeg (nsSec at_ / tauSAt s.chip r.z))) } ∧
          Keeps [.ret, .jrn, .alert, .learn] s u)) ∧
      (r.phase = 2 → r.serM.isSome = true → r.polFM.isSome = true →
        (nsSec at_ < 3 * tauSAt s.chip r.z → idle) ∧ (3 * tauSAt s.chip r.z ≤ nsSec at_ → ends none 3)) ∧
      (r.phase = 1 ∧ r.serM = none ∨ r.phase = 2 ∧ (r.serM = none ∨ r.polFM = none) ∨ 2 < r.phase → idle)) ∧
    (s.chip.learn.impRun = none ∨ (∃ r, s.chip.learn.impRun = some r ∧ r.i1 = none) →
      exec (.impedancePhaseEnd t) s = .next (after t (fun c => c) s))

/-- The wire of PK_ID (R238, R239, R547, R551, R561, R564 … R569, R571, R579, Tables 12.7, 12.8 and 12.12): a probe of its series that is
answered begins the exchange with CHALLENGE, and the series unanswered ends in a silent verdict or, without a pack, in nothing; the probe
that TS1's OPEN started informs the verdict on presence; each transaction is tried three times; CHALLENGE leads to the header, checked in
its form and its issuer, and to GET_RESPONSE, which is polled every 5 ms while the tag is busy; adoption reads the profile, the slots and
the records; an exchange or an adoption over 1 s is abandoned. Where nothing is under way nothing happens. -/
def Obligations.TagExchangeRunsInOrder : Prop :=
  ∀ (s : State) (t : Time), s.chip.spi = [] →
    let g := s.chip.tag
    let now := max s.chip.now t
    let idle (i : Instr) : Prop := exec i s = .next (after t (fun c => c) s)
    let becomes (i : Instr) (x : Machine.Tag) : Prop := exec i s = .next (after t (fun c => { c with tag := x }) s)
    let silent (i : Instr) : Prop := ∃ u, exec i s = .next u ∧ u.chip.tag.stage = .idle ∧ u.chip.tag.verdict = .silent ∧
      u.chip.tag.probe = some .silent ∧ u.chip.tag.lastProbe = now ∧
      (g.verdict ≠ .silent → u.chip.tag.reason = 1 ∧ u.chip.ret.sticky.getLsbD F.tagSilent = true) ∧
      Keeps [.ret, .jrn, .pack, .chg, .alert, .gauge, .learn, .tag, .host] s u
    let fails (i : Instr) (reason : Nat) : Prop := ∃ u, exec i s = .next u ∧ u.chip.tag.stage = .idle ∧
      (g.verdict ≠ .silent → u.chip.tag.verdict = .notAuthenticated ∧ u.chip.tag.reason = failReason s.chip reason ∧
        u.chip.ret.sticky.getLsbD F.packAuthFail = true) ∧
      (g.verdict = .silent → u.chip.tag.verdict = .silent ∧ u.chip.tag.probe = some .silent) ∧
      Keeps [.ret, .jrn, .pack, .chg, .alert, .gauge, .learn, .tag, .host] s u
    let asks (i : Instr) (x : Machine.Tag) (cmd : TagCmd) : Prop :=
      becomes i { x with txn := some cmd, sent := cmd.bytes, fails := 0, absent := true }
    let adopted (i : Instr) : Prop := ∃ u, exec i s = .next u ∧ u.chip.tag.stage = .idle ∧ u.chip.tag.adopted = true ∧
      u.chip.tag.verdict = g.verdict ∧ u.chip.gauge.wanted = !s.chip.gauge.formed ∧
      Keeps [.ret, .jrn, .alert, .gauge, .tag] s u
    let due (why : ProbeWhy) : Prop := tagActive s.chip = true ∧ g.ts1Probe = false ∧ g.txn = none ∧ g.probe = some why ∧
      (why = .silent → g.lastProbe + sec 10 ≤ now) ∧ (why ≠ .silent → g.probes = 0 ∨ g.lastProbe + ms 20 ≤ now)
    let last : Prop := (due .inserted ∧ g.probeAt + ms 500 ≤ now) ∨ (due .configure ∧ 4 ≤ g.probes)
    (∀ a, tagActive s.chip = false ∨ (g.ts1Probe = false ∧ ∀ why, ¬due why) → idle (.tagProbe t a)) ∧
    (∀ a, tagActive s.chip = true → g.ts1Probe = true → a = false → g.txn ≠ none → ¬g.fails < 2 → s.chip.prs.verdict = none →
      ∃ u, exec (.tagProbe t a) s = .next u ∧ u.chip.tag.ts1Probe = false ∧ u.chip.ret.sticky.getLsbD F.tagBus = true) ∧
    (∀ a, tagActive s.chip = true → g.ts1Probe = true → a = true ∨ g.txn = none ∨ g.fails < 2 → ∃ u,
      exec (.tagProbe t a) s = .next u ∧ u.chip.tag.ts1Probe = false ∧ u.chip.tag.answered = a ∧
      (s.chip.prs.verdict = none → u.chip.prs.tagSaid = some a ∧ (g.txn ≠ none → u.chip.tag.txn = g.txn ∧
        u.chip.tag.fails = if a then g.fails else g.fails + 1) ∧ Keeps [.prs, .tag] s u) ∧
      (∀ v, s.chip.prs.verdict = some v → v.ts2Left = 0 → v.ts2.getLast? ≠ some .valid →
        (a = false → u.chip.prs.present = false ∧ u.chip.prs.removed = true) ∧
        (a = true → u.chip.prs.present = s.chip.prs.present ∧ u.chip.ret.sticky.getLsbD (F.tsOpen 1) = true)) ∧
      Keeps [.ret, .jrn, .tmp, .prs, .pack, .chg, .alert, .gauge, .learn, .tag, .host] s u) ∧
    (∀ why, due why → ∃ u, exec (.tagProbe t true) s = .next u ∧ u.chip.tag.stage = .challenge ∧
      u.chip.tag.txn = some (.challenge u.chip.tag.nonce) ∧ u.chip.tag.exAt = now ∧ u.chip.tag.probe = none ∧
      u.chip.tag.verdict = g.verdict ∧ (why = .configure → u.chip.prs.present = true) ∧
      (why ≠ .configure ∨ s.chip.prs.present = true → Keeps [.free, .tag] s u) ∧
      Keeps [.free, .ret, .jrn, .tmp, .prs, .pack, .alert, .gauge, .learn, .tag] s u) ∧
    (∀ why, due why → ¬last → ∃ u, exec (.tagProbe t false) s = .next u ∧ u.chip.tag.probe = some why ∧
      u.chip.tag.lastProbe = now ∧ u.chip.tag.probes = g.probes + 1 ∧ u.chip.tag.verdict = g.verdict ∧ Keeps [.tag] s u) ∧
    (last → g.probe = some .inserted ∨ s.chip.prs.present = true → silent (.tagProbe t false)) ∧
    (last → g.probe = some .configure → s.chip.prs.present = false → ∃ u, exec (.tagProbe t false) s = .next u ∧
      u.chip.tag.probe = none ∧ u.chip.tag.verdict = g.verdict ∧ Keeps [.tag] s u) ∧
    (∀ res, g.txn = none ∨ g.ts1Probe = true → idle (.tagTransactionComplete t res)) ∧
    (∀ cmd, g.txn = some cmd → g.ts1Probe = false → ∀ res a, tagAnswer cmd res = .error a →
      (g.fails < 2 → becomes (.tagTransactionComplete t res)
        { g with fails := g.fails + 1, absent := g.absent && a, bus := bump 65535 0 g.bus }) ∧
      (¬ g.fails < 2 → g.stage = .challenge → (g.absent && a) = true → silent (.tagTransactionComplete t res)) ∧
      (¬ g.fails < 2 → g.stage ≠ .challenge ∨ (g.absent && a) = false →
        (∃ u, exec (.tagTransactionComplete t res) s = .next u ∧ u.chip.ret.sticky.getLsbD F.tagBus = true) ∧
        (g.write = none → exchanging g.stage = true → fails (.tagTransactionComplete t res) 2) ∧
        (g.write = none → exchanging g.stage = false → g.stage ≠ .idle → adopted (.tagTransactionComplete t res)) ∧
        (g.write ≠ none ∨ g.stage = .idle → ∃ u, exec (.tagTransactionComplete t res) s = .next u ∧ u.chip.tag.write = none ∧
          (g.write ≠ none → u.chip.tag.wOk = false ∧ u.chip.tag.writes = satInc 65535 g.writes) ∧
          (∀ a n, cmd = .read a n → g.write = none → u.chip.tag.tool = none) ∧
          Keeps [.ret, .jrn, .alert, .tag, .host] s u))) ∧
    (∀ cmd, g.txn = some cmd → g.ts1Probe = false → ∀ res bs, tagAnswer cmd res = .ok bs → g.write = none →
      (g.stage = .challenge → u8At bs 0 = 0 →
        asks (.tagTransactionComplete t res) { g with stage := .header } (.read 0 160)) ∧
      (g.stage = .challenge → u8At bs 0 ≠ 0 → fails (.tagTransactionComplete t res) 2) ∧
      (g.stage = .header → headerFormOk bs = false → fails (.tagTransactionComplete t res) 3) ∧
      (g.stage = .header → headerFormOk bs = true → issuerKeys s.chip 0 (slice bs 24 4) = [] →
        fails (.tagTransactionComplete t res) 4) ∧
      (g.stage = .header → headerFormOk bs = true → issuerKeys s.chip 0 (slice bs 24 4) ≠ [] →
        asks (.tagTransactionComplete t res) { g with header := bs, stage := .response, job := some .header } .getResponse) ∧
      (g.stage = .response → u8At bs 0 = 0 → becomes (.tagTransactionComplete t res) { g with
        txn := none, stage := .verify, sig := some (bs.drop 1), busyAt := none
        job := if g.headerOk then some .response else g.job }) ∧
      (g.stage = .response → u8At bs 0 = 1 → becomes (.tagTransactionComplete t res) { g with txn := none, busyAt := some now }) ∧
      (g.stage = .response → 2 ≤ u8At bs 0 → fails (.tagTransactionComplete t res) 2) ∧
      (g.stage = .profile → asks (.tagTransactionComplete t res) { g with
        stage := .slots, profile := if Crypto.sha256 bs = slice g.header 64 32 then some bs else none
        profBad := decide (Crypto.sha256 bs ≠ slice g.header 64 32) } .slotStatus) ∧
      (g.stage = .slots → ∃ u, exec (.tagTransactionComplete t res) s = .next u ∧ u.chip.tag.slotsRead = true ∧
        u.chip.tag.slotSt = (List.range 4).map (fun k => u8At bs (5 * k)) ∧
        u.chip.tag.slotSeq = (List.range 4).map (fun k => u32At bs (5 * k + 1)) ∧
        (committedSlots u.chip = [] → u.chip.tag.stage = .idle ∧ u.chip.tag.adopted = true) ∧
        (∀ k ks, committedSlots u.chip = k :: ks → u.chip.tag.stage = .slotRead ∧ u.chip.tag.toTry = ks ∧
          u.chip.tag.txn = some (.read (slotAddr k) 384)) ∧ Keeps [.gauge, .tag] s u) ∧
      (∀ a n, cmd = .read a n → g.stage = .slotRead → ∃ u, exec (.tagTransactionComplete t res) s = .next u ∧
        u.chip.tag.slotData = bs ∧ (payloadOk (slice bs 0 200) = true → certFormOk (slice bs 200 120) = true →
          u.chip.tag.stage = .slotVerify ∧ u.chip.tag.job = some (.record (slotOfAddr a)) ∧ Keeps [.tag] s u) ∧
        (payloadOk (slice bs 0 200) = false ∨ certFormOk (slice bs 200 120) = false →
          u.chip.ret.sticky.getLsbD F.tagRecordBad = true) ∧ Keeps [.ret, .jrn, .alert, .gauge, .tag] s u) ∧
      (g.stage = .idle → ∃ u, exec (.tagTransactionComplete t res) s = .next u ∧ u.chip.tag.tool = none ∧
        (∀ p, s.chip.host.pend = some p → p.op = 0x24 → p.done = none → u.chip.host.pend = some { p with done := some (0x00, bs) }) ∧
        Keeps [.tag, .host] s u)) ∧
    (∀ t0, g.busyAt = some t0 → g.stage = .response → g.txn = none →
      (g.exAt + sec 1 ≤ now → fails (.getResponsePoll t) 8) ∧
      (now < g.exAt + sec 1 → t0 + ms 5 ≤ now → tagActive s.chip = true →
        asks (.getResponsePoll t) { g with busyAt := none } .getResponse) ∧
      (now < g.exAt + sec 1 → now < t0 + ms 5 ∨ tagActive s.chip = false → idle (.getResponsePoll t))) ∧
    (g.stage ≠ .response ∨ g.busyAt = none ∨ g.txn ≠ none → g.tool = none ∨ tagActive s.chip = false ∨ tagIdle s.chip = false →
      idle (.getResponsePoll t)) ∧
    (∀ r, g.tool = some r → tagActive s.chip = true → tagIdle s.chip = true → asks (.getResponsePoll t) g (.read r.addr r.len)) ∧
    (exchanging g.stage = true → g.exAt + sec 1 ≤ now → fails (.exchangeAbandon t) (if 0 < g.fails then 2 else 8)) ∧
    (exchanging g.stage = false ∨ now < g.exAt + sec 1 → idle (.exchangeAbandon t)) ∧
    (g.stage ≠ .idle → exchanging g.stage = false → g.verdictAt + sec 1 ≤ now → adopted (.adoptionAbandon t)) ∧
    (g.stage = .idle ∨ exchanging g.stage = true ∨ now < g.verdictAt + sec 1 → idle (.adoptionAbandon t))

/-- Verification and the verdict (R556, R559, R561, R563, R565, R567 … R569): a header signed under a key of C.TRUST leads on to the
response; a response signed under the pack key authenticates the pack, and adoption begins; a wrong signature is a verdict of not
authenticated with its reason and F.PACK_AUTH_FAIL, unless the verdict is silent, which stays. A record whose signature verifies is
adopted, trusted with the gauge's own certificate or with one that a key of C.TRUST signed; one that does not sets F.TAG_RECORD_BAD. -/
def Obligations.SignaturesDecideTheVerdict : Prop :=
  ∀ (s : State) (t : Time), s.chip.spi = [] →
    let g := s.chip.tag
    let h := g.header
    let d := g.slotData
    let signed := anyVerifies (issuerKeys s.chip 0 (slice h 24 4)) (slice h 0 96) (slice h 96 64)
    let answers := verifiesUnder (slice h 28 33) (responseLabel ++ g.nonce ++ Config.uid ++ slice h 8 16) (g.sig.getD [])
    let wrote := verifiesUnder (slice d 222 33) (recordLabel ++ slice h 8 16 ++ slice d 0 320) (slice d 320 64)
    let mine : Prop := (cfg s.chip).cert ≠ [] ∧ slice d 200 120 = ownCert s.chip
    let fails (reason : Nat) : Prop := ∃ u, exec (.signatureVerified t) s = .next u ∧ u.chip.tag.stage = .idle ∧
      (g.verdict ≠ .silent → u.chip.tag.verdict = .notAuthenticated ∧ u.chip.tag.reason = failReason s.chip reason ∧
        u.chip.ret.sticky.getLsbD F.packAuthFail = true) ∧
      (g.verdict = .silent → u.chip.tag.verdict = .silent ∧ u.chip.tag.probe = some .silent) ∧
      Keeps [.ret, .jrn, .pack, .chg, .alert, .gauge, .learn, .tag, .host] s u
    let adopts (k : Nat) (trusted : Bool) : Prop := ∃ u, exec (.signatureVerified t) s = .next u ∧
      u.chip.tag.record = some (k, d) ∧ u.chip.tag.trusted = trusted ∧ u.chip.tag.seq = u32At d 4 ∧ u.chip.tag.stage = .idle ∧
      u.chip.tag.adopted = true ∧ u.chip.tag.verdict = g.verdict ∧
      u.chip.learn.srcBits = (s.chip.learn.srcBits &&& 1) ||| (if trusted then 2 else 4) ∧ Keeps [.gauge, .learn, .tag] s u
    (cryptRuns s.chip = false → g.tool = none → exec (.signatureVerified t) s = .next (after t (fun c => c) s)) ∧
    (cryptRuns s.chip = true →
    (g.job = some .header → signed = true → (Crypto.decompress (slice h 28 33)).isSome = true → ∃ u,
      exec (.signatureVerified t) s = .next u ∧ u.chip.tag.headerOk = true ∧
      u.chip.tag.job = (if g.sig.isSome then some .response else none) ∧ u.chip.tag.stage = g.stage ∧ Keeps [.tag] s u) ∧
    (g.job = some .header → signed = false → fails 5) ∧
    (g.job = some .header → signed = true → (Crypto.decompress (slice h 28 33)).isNone = true → fails 6) ∧
    (g.job = some .response → answers = true → ∃ u, exec (.signatureVerified t) s = .next u ∧
      u.chip.tag.verdict = .authenticated ∧ u.chip.tag.reason = 0 ∧ u.chip.tag.firstDone = true ∧
      (profileMatches s.chip = true → u.chip.tag.stage = .slots ∧ u.chip.tag.txn = some .slotStatus) ∧
      (profileMatches s.chip = false → u.chip.tag.stage = .profile ∧ u.chip.tag.txn = some (.read 0x0A0 196)) ∧
      Keeps [.ret, .jrn, .pack, .chg, .alert, .gauge, .learn, .tag] s u) ∧
    (g.job = some .response → answers = false → fails 7) ∧
    (∀ k, g.job = some (.record k) → wrote = true → mine → adopts k true) ∧
    (∀ k, g.job = some (.record k) → wrote = true → ¬mine → ∃ u, exec (.signatureVerified t) s = .next u ∧
      u.chip.tag.job = some (.writerCert k) ∧ u.chip.tag.slotBits = updAt g.slotBits k (fun b => b ||| 1) ∧ Keeps [.tag] s u) ∧
    (∀ k, g.job = some (.record k) → wrote = false → ∃ u, exec (.signatureVerified t) s = .next u ∧
      u.chip.ret.sticky.getLsbD F.tagRecordBad = true ∧ u.chip.tag.record = g.record ∧
      Keeps [.ret, .jrn, .alert, .gauge, .tag] s u) ∧
    (∀ k, g.job = some (.writerCert k) → adopts k (certTrusted s.chip (slice d 200 120))) ∧
    (g.job = none → ∃ u, exec (.signatureVerified t) s = .next u ∧ u.chip.tag.verdict = g.verdict ∧ u.chip.tag.stage = g.stage ∧
      (g.tool = none → u = after t (fun c => c) s) ∧ Keeps [.tag] s u))

/-- Writing a record and pin faults (R525, R572 … R576, R587, R592): a due event starts its write; the tag of the pack that is there is
checked by its PACK_UID, another pack counting as an exchange of packs; payload, signature and COMMIT_SLOT follow, and 2 ms after it the
slot's digest, which decides; the signature is over the label, PACK_UID and the payload; a status other than 0 ends the write. A pin
fault takes the driver off the wire for 1 s, ends what the wire carried and makes the verdict of a present pack silent. -/
def Obligations.RecordsAreWrittenAndPinFaultsSilence : Prop :=
  ∀ (s : State) (t : Time), s.chip.spi = [] →
    let g := s.chip.tag
    let now := max s.chip.now t
    let idle (i : Instr) : Prop := exec i s = .next (after t (fun c => c) s)
    let becomes (i : Instr) (x : Machine.Tag) : Prop := exec i s = .next (after t (fun c => { c with tag := x }) s)
    let bad (l : PinLevel) (ns : Nat) : Bool := match l with
      | .volts mv => (decide (4000 < mv) || decide (mv < -600)) && decide (ms 1 ≤ ns)
      | .low released => decide (ms 2 ≤ released) && decide (ms 2 ≤ ns)
    (writeReady s.chip = true → ∃ u, exec (.tagWriteStart t) s = .next u ∧ u.chip.tag.due = 0 ∧
      u.chip.tag.write.map (fun w => (w.causes, w.sig, w.start)) = some (dueCauses g.due, none, now) ∧
      (g.slotsRead = true → u.chip.tag.txn = some (.read 8 16) ∧
        u.chip.tag.write.map (fun w => (w.step, w.slot)) = some (1, targetSlot s.chip)) ∧
      (g.slotsRead = false → u.chip.tag.txn = some .slotStatus ∧ u.chip.tag.write.map (·.step) = some 0) ∧
      Keeps [.learn, .tag] s u) ∧
    (writeReady s.chip = false → idle (.tagWriteStart t)) ∧
    (∀ w, g.write = some w → ∀ cmd, g.txn = some cmd → g.ts1Probe = false → ∀ res bs, tagAnswer cmd res = .ok bs →
      let i : Instr := .tagTransactionComplete t res
      let begun (x : Machine.Tag) (w' : TagWrite) (next : TagCmd) : Prop :=
        becomes i { x with write := some w', txn := some next, sent := next.bytes, fails := 0, absent := true }
      let ended (ok : Bool) : Prop := ∃ u, exec i s = .next u ∧ u.chip.tag.write = none ∧ u.chip.tag.wOk = ok ∧
        u.chip.tag.writes = satInc 65535 g.writes ∧
        (ok = true → u.chip.tag.seq = u32At w.payload 4 ∧ u.chip.tag.writeFails = 0 ∧ u.chip.ret = s.chip.ret) ∧
        (ok = false → u.chip.tag.slotsRead = false ∧
          (1 ≤ g.writeFails → u.chip.ret.sticky.getLsbD F.tagWrite = true)) ∧
        Keeps [.ret, .jrn, .alert, .tag, .host] s u
      (w.step = 0 → ∃ u, exec i s = .next u ∧ u.chip.tag.slotsRead = true ∧ u.chip.tag.txn = some (.read 8 16) ∧
        u.chip.tag.write.map (fun w => (w.step, w.slot, w.sig)) = some (1, targetSlot u.chip, none) ∧ Keeps [.tag] s u) ∧
      (w.step = 1 → bs = packUid s.chip → begun g { w with step := 2 } (.writeSlot w.slot 0 w.payload)) ∧
      (w.step = 1 → bs ≠ packUid s.chip → ∃ u, exec i s = .next u ∧ u.chip.prs.present = true ∧
        u.chip.prs.removals = satInc 65535 s.chip.prs.removals ∧ u.chip.tag.write = none ∧ u.chip.tag.verdict = .none ∧
        u.chip.tag.probe = (if inLimp s.chip then none else some .inserted) ∧ u.chip.gauge.formed = false ∧
        Keeps [.ret, .jrn, .tmp, .prs, .pack, .chg, .alert, .gauge, .learn, .tag, .host] s u) ∧
      (w.step = 2 → w.stale = true → begun g { w with stale := false } (.writeSlot w.slot 0 w.payload)) ∧
      (w.step = 3 → w.stale = true → begun g { w with step := 2, stale := false } (.writeSlot w.slot 0 w.payload)) ∧
      (w.step = 2 → w.stale = false → u8At bs 0 = 0 →
        (∀ sg, w.sig = some sg → begun { g with slotSt := updAt g.slotSt w.slot fun _ => 1 } { w with step := 3 }
          (.writeSlot w.slot 320 sg)) ∧
        (w.sig = none → becomes i { g with
          slotSt := updAt g.slotSt w.slot fun _ => 1, write := some { w with step := 3 }, txn := none })) ∧
      (w.step = 3 → w.stale = false → u8At bs 0 = 0 → begun g { w with step := 4 } (.commitSlot w.slot)) ∧
      (w.step = 4 → u8At bs 0 = 0 → becomes i { g with write := some { w with waitAt := some now }, txn := none }) ∧
      (2 ≤ w.step → w.step ≤ 4 → w.stale = false ∨ w.step = 4 → u8At bs 0 ≠ 0 → ended false) ∧
      (5 ≤ w.step → ended (bs == Crypto.sha256 (w.payload ++ w.sig.getD [])))) ∧
    (∀ w, g.write = some w → w.step ≠ 0 → w.sig = none → cryptRuns s.chip = true →
      let sg := Crypto.ecdsaSign Config.recordScalar (leNat (randomBytes 32 s.chip).1) (recordLabel ++ packUid s.chip ++ w.payload)
      ∃ u, exec (.tagRecordSigned t) s = .next u ∧ u.chip.tag.write = some { w with sig := some sg } ∧
      u.chip.tag.txn = (if w.step = 3 ∧ g.txn = none then some (.writeSlot w.slot 320 sg) else g.txn) ∧ Keeps [.free, .tag] s u) ∧
    (g.write = none ∨ (∃ w, g.write = some w ∧ (w.step = 0 ∨ w.sig ≠ none)) ∨ cryptRuns s.chip = false →
      idle (.tagRecordSigned t)) ∧
    (∀ w, g.write = some w → ∀ t0, w.waitAt = some t0 → t0 + ms 2 ≤ now → becomes (.tagCommitWaitExpiry t) { g with
      txn := some (.slotDigest w.slot), sent := (TagCmd.slotDigest w.slot).bytes, fails := 0, absent := true,
              write := some { w with step := 5, waitAt := none } }) ∧
    (g.write = none ∨ (∃ w, g.write = some w ∧ ∀ t0, w.waitAt = some t0 → now < t0 + ms 2) → idle (.tagCommitWaitExpiry t)) ∧
    (∀ l ns, tagActive s.chip = true → bad l ns = true → ∃ u, exec (.pkIdPinFault t l ns) s = .next u ∧
      u.chip.tag.pinOff = some now ∧ u.chip.tag.txn = none ∧ u.chip.tag.write = none ∧ u.chip.tag.stage = .idle ∧
      u.chip.tag.ts1Probe = false ∧ u.chip.ret.sticky.getLsbD F.pkIdFault = true ∧
      (u.chip.prs.present = true → u.chip.tag.verdict = .silent ∧ u.chip.tag.reason = 9 ∧ u.chip.tag.probe = some .silent) ∧
      (u.chip.prs.present = false → u.chip.tag.probe = g.probe) ∧
      (s.chip.prs.verdict = none → u.chip.prs = s.chip.prs) ∧
      (∀ v, s.chip.prs.verdict = some v → v.ts2Left = 0 → v.ts2.getLast? ≠ some .valid → s.chip.prs.tagSaid = none →
        u.chip.prs.present = false ∧ u.chip.prs.removed = true) ∧
      Keeps [.ret, .jrn, .tmp, .prs, .pack, .chg, .alert, .gauge, .learn, .tag, .host] s u) ∧
    (∀ l ns, tagActive s.chip = false ∨ bad l ns = false → idle (.pkIdPinFault t l ns)) ∧
    (∀ t0, g.pinOff = some t0 → t0 + sec 1 ≤ now → ∃ u, exec (.pkIdDriverResume t) s = .next u ∧ u.chip.tag.pinOff = none ∧
      u.chip.tag.lastProbe = now - sec 10 ∧ u.chip.tag.verdict = g.verdict ∧ u.chip.tag.probe = g.probe ∧
      u.chip.tag.ts1Probe = (g.ts1Probe || probeOwed s.chip) ∧ Keeps [.tag] s u) ∧
    ((∀ t0, g.pinOff = some t0 → now < t0 + sec 1) → idle (.pkIdDriverResume t))

/-- Decisions on a slot (R613, R619, R621, R637, Table 13.5): PROV_LEAD before the start a guest with beacons gets its provisional
decision, and at the start each gets its final one, both by the checks of Table 13.5, a slot withheld provisionally keeping that reason
(log entry 99); a slot granted provisionally is announced; one granted finally runs, commands its spur with those merged with it and is
counted; one withheld leaves the plan with its reason, and the spurs take their command too. Without a slot nothing is decided. -/
def Obligations.SlotsAreDecidedByTable135 : Prop :=
  ∀ (s : State) (t : Time) (n : Fin 8), s.chip.spi = [] →
    let c := tick t s.chip
    let idle (i : Instr) : Prop := exec i s = .next (after t (fun c => c) s)
    (∀ sl g, s.chip.inn.on = true → canFitted s.chip = true → provisionalSlot s.chip n = some (sl, g) →
      (decide13 s.nvm c n g ≠ .granted → exec (.slotProvisionalDecision t n) s =
        .next (after t (updSlot n sl.start fun x => { x with prov := some (decide13 s.nvm c n g) }) s)) ∧
      (decide13 s.nvm c n g = .granted → ∃ u, exec (.slotProvisionalDecision t n) s = .next u ∧
        (∀ x ∈ (spurInn u.chip n).plan, x.start = sl.start → x.prov = some .granted ∧
          x.beacon = some (startCaravan c sl.start)) ∧
        u.chip.inn.beacons = (satInc 65535 s.chip.inn.beacons.1, s.chip.inn.beacons.2) ∧ Keeps [.inn, .can, .pair] s u)) ∧
    (provisionalSlot s.chip n = none ∨ s.chip.inn.on = false ∨ canFitted s.chip = false →
      idle (.slotProvisionalDecision t n)) ∧
    (runningSlot s.chip n ≠ none → idle (.slotFinalDecision t n)) ∧
    (runningSlot s.chip n = none → startingSlot s.chip n = none →
      exec (.slotFinalDecision t n) s = .next (after t (takeGroup n) s)) ∧
    (∀ sl, runningSlot s.chip n = none → startingSlot s.chip n = some sl → guestAt s.chip sl.pos = none →
      exec (.slotFinalDecision t n) s = .next (after t (fun c => takeGroup n
        (updSpurInn n (fun x => { x with plan := x.plan.filter (·.start != sl.start) }) c)) s)) ∧
    (∀ sl g, runningSlot s.chip n = none → startingSlot s.chip n = some sl → guestAt s.chip sl.pos = some g →
      let decision : Reason := match sl.prov with
        | some .granted | none => decide13 s.nvm c n g
        | some r => r
      ∃ u, exec (.slotFinalDecision t n) s = .next u ∧
        u.chip.inn.last = (g.cfg.index, decision.code, s.chip.inn.time % 65536) ∧
        (∀ m ∈ tieGroup s.chip n, (spur u.chip m).cmd = spurCommand u.chip m) ∧
        (∀ m, m ≠ n → m ∉ tieGroup s.chip n → spur u.chip m = spur s.chip m) ∧
        (decision = .granted → (runningSlot u.chip n).map (·.start) = some sl.start ∧ (spur u.chip n).granted = true ∧
          u.chip.aux.edges = s.chip.aux.edges ++ [{ spur := n, kind := .start }] ∧
          Keeps [.nvm, .aux, .spurs, .inn, .can, .pair] s u) ∧
        (decision ≠ .granted → (spurInn u.chip n).plan = (spurInn s.chip n).plan.filter (fun x => x.start != sl.start) ∧
          (spur u.chip n).granted = (spur s.chip n).granted ∧ Keeps [.nvm, .spurs, .inn, .can, .pair] s u))

/-- The plan in time (R402, R429, R594, R613 … R615, R618, R620): a slot tick advances inn time where it runs, and sends a HEARTBEAT on a
link that runs; the planned end of a slot takes it out of the plan, asks for its end read, clears the retries unless a failure refunded
it, and decides on the slot that begins there; a slot past its latest start is dropped with F.INN_LATE; the CAN domain starts in time for
a beacon. Otherwise nothing happens. -/
def Obligations.SlotTicksAndEndsFollowThePlan : Prop :=
  ∀ (s : State) (t : Time), s.chip.spi = [] →
    let idle (i : Instr) : Prop := exec i s = .next (after t (fun c => c) s)
    (innRuns s.chip = true → ∃ u, exec (.slotTick t) s = .next u ∧ u.chip.inn.time = s.chip.inn.time + 1 ∧
      (s.chip.inn.on = false → u.nvm = s.nvm ∧ u.chip.inn = { s.chip.inn with time := s.chip.inn.time + 1 }) ∧
      (linkRuns s.chip = true → u.chip.pair.hbOut =
        linkFrame 1 s.chip.pair.txSeq s.chip.pair.rxSeq (heartbeatBytes (tick t s.chip))) ∧ Keeps [.nvm, .inn, .pair] s u) ∧
    (innRuns s.chip = false → linkRuns s.chip = false → idle (.slotTick t)) ∧
    (innRuns s.chip = false → linkRuns s.chip = true → exec (.slotTick t) s = .next (after t (fun c =>
      countSymbols 16 { c with pair.hbOut := linkFrame 1 c.pair.txSeq c.pair.rxSeq (heartbeatBytes c) }) s)) ∧
    (∀ (n : Fin 8) sl, runningSlot s.chip n = some sl → sl.stop ≤ s.chip.inn.time →
      let d := endSlot n sl (tick t s.chip)
      ∃ u, exec (.slotPlannedEnd t n) s = .next u ∧ (spurInn u.chip n).ended = (spurInn s.chip n).ended ++ [sl] ∧
        u.chip.aux.edges = s.chip.aux.edges ++ [{ spur := n, kind := .stop }] ∧
        (∀ m ∈ tieGroup s.chip n, (spur u.chip m).cmd = spurCommand u.chip m ∧
          (sl.refund = false → (spur u.chip m).retries = 0)) ∧
        (∀ m, m ≠ n → m ∉ tieGroup s.chip n → spur u.chip m = spur s.chip m) ∧
        (startingSlot d n = none → (spur u.chip n).granted = false ∧ Keeps [.aux, .spurs, .inn] s u ∧
          (spurInn u.chip n).plan = (spurInn s.chip n).plan.filter (fun x => x.start != sl.start)) ∧
        (∀ nx g, startingSlot d n = some nx → guestAt s.chip nx.pos = some g → nx.prov = none ∨ nx.prov = some .granted →
          (spur u.chip n).granted = decide (decide13 s.nvm d n g = .granted) ∧
          u.chip.inn.last = (g.cfg.index, (decide13 s.nvm d n g).code, s.chip.inn.time % 65536)) ∧
        Keeps [.nvm, .aux, .spurs, .inn, .can, .pair] s u) ∧
    (∀ (n : Fin 8), (∀ sl, runningSlot s.chip n = some sl → s.chip.inn.time < sl.stop) → idle (.slotPlannedEnd t n)) ∧
    (∀ (i : Nat) g, guestByIndex s.chip i = some g →
      let n := leadSpur s.chip (guestSpur g.cfg)
      let late := (spurInn s.chip n).plan.find? fun x => x.pos == g.pos && x.st == .planned && decide (x.latest < s.chip.inn.time)
      (late = none → idle (.slotLate t i)) ∧
      (∀ sl, late = some sl → ∃ u, exec (.slotLate t i) s = .next u ∧ u.chip.ret.sticky.getLsbD F.innLate = true ∧
        u.chip.inn.last = (g.cfg.index, Reason.late.code, s.chip.inn.time % 65536) ∧
        u.chip.inn.late = satInc (2 ^ 32 - 1) s.chip.inn.late ∧
        (spurInn u.chip n).plan = (spurInn s.chip n).plan.filter (fun x => x.start != sl.start) ∧
        Keeps [.nvm, .ret, .jrn, .alert, .inn, .can, .pair] s u)) ∧
    (∀ i, guestByIndex s.chip i = none → idle (.slotLate t i)) ∧
    (∀ (n : Fin 8),
      let near : Prop := ∃ sl ∈ (spurInn s.chip n).plan, sl.st = .planned ∧
        sl.start ≤ s.chip.inn.time + 4 * (cfg s.chip).inn.provLead + 40 ∧
        ∃ g, guestAt s.chip sl.pos = some g ∧ g.cfg.beacon = true
      let starts : Prop := s.chip.inn.on = true ∧ near ∧ canMay s.chip = true ∧ s.chip.can.on = false
      (starts → exec (.canStartForSlot t n) s = .next (after t (fun c =>
        { c with can := { c.can with on := true, stb := false, wakeAt := some c.now } }) s)) ∧
      (¬starts → idle (.canStartForSlot t n)))

/-- The charge of a slot (R606, Table 13.6): nothing when it is refunded, ENERGY when it ran whole, and never more than ENERGY where
the elapsed part is no longer than the slot; an end read, which is the conversion that ends now when the scan stands at the spur's end
edge (R192), accounts the oldest ended slot so, also when its conversion is not VALID; otherwise the command has no effect.

The cellar, the ledger and holds (R402, R405, R610, R631, R632, R644): a fill that ends gives its guest a room, in place of a room
that may be evicted when all 64 are taken, and waits while none may be; the ledger check notes its result every 15 min, with
F.INN_LEDGER when a spur's energies disagree; a hold ends at its inn second, and the spurs that were CUT start anew by their command. -/
def Obligations.SlotsAreChargedAndRoomsFilled : Prop :=
  ((∀ g sl, (sl.refund = true → slotCharge g sl = 0) ∧ (sl.refund = false → sl.revoked = none → slotCharge g sl = g.energy) ∧
     (∀ e, sl.refund = false → sl.revoked = some e → 0 < g.slotLen → e ≤ g.slotLen →
       slotCharge g sl ≤ g.energy ∧ g.energy * e ≤ slotCharge g sl * g.slotLen ∧
       slotCharge g sl * g.slotLen < g.energy * e + g.slotLen)) ∧
   ∀ (s : State) (t : Time) (n : Fin 8) (code : Nat) (o : Option Bool), s.chip.spi = [] →
     let reads : Prop := running s.chip = true ∧ auxNow (tick t s.chip) = some (n.val, 0) ∧ firstEdge s.chip n = some .stop
     (reads → ∃ u, exec (.slotEndRead t n code o) s = .next u ∧
       (∀ sl rest g, (spurInn s.chip n).ended = sl :: rest → guestAt s.chip sl.pos = some g →
         (spurInn u.chip n).ended = rest ∧ (spurInn u.chip n).charged = (spurInn s.chip n).charged + slotCharge g.cfg sl ∧
         (spurInn u.chip n).ends = (spurInn s.chip n).ends + 1) ∧
       ((spurInn s.chip n).ended = [] → (spurInn u.chip n).charged = (spurInn s.chip n).charged) ∧
       Keeps [.nvm, .ret, .jrn, .aux, .cal, .alert, .spurs, .totals, .gauge, .learn, .inn, .can, .pair] s u) ∧
     (¬reads → exec (.slotEndRead t n code o) s = .next (after t (fun c => c) s))) ∧
  (∀ (s : State) (t : Time), s.chip.spi = [] →
     let now := max s.chip.now t
     let idle (i : Instr) : Prop := exec i s = .next (after t (fun c => c) s)
     let free := s.chip.inn.rooms.filter fun r => !pinned s.chip r.pos && !((guestAt s.chip r.pos).elim false (·.resident))
     let bad := (List.finRange 8).any fun n => decide ((((spurInn s.chip n).ends + 1 : Nat) : Rat) < ledgerGap s.chip n)
     let due : Prop := s.chip.inn.on = true ∧ s.chip.inn.ledgerAt + minutes 15 ≤ now
     (∀ p at_ rest, s.chip.inn.fills = (p, at_) :: rest →
       (∀ g, guestAt s.chip p = some g → s.chip.inn.rooms.length < 64 ∨ free ≠ [] → ∃ u,
         exec (.cellarFillComplete t) s = .next u ∧ u.chip.inn.fills = rest ∧ (roomOf u.chip p).isSome = true ∧
         u.chip.inn.paged.1 = satInc 65535 s.chip.inn.paged.1 ∧ Keeps [.nvm, .ret, .jrn, .alert, .inn, .pair] s u) ∧
       (∀ g, guestAt s.chip p = some g → 64 ≤ s.chip.inn.rooms.length → free = [] → idle (.cellarFillComplete t)) ∧
       (guestAt s.chip p = none → exec (.cellarFillComplete t) s =
         .next (after t (fun c => { c with inn.fills := rest }) s))) ∧
     (s.chip.inn.fills = [] → idle (.cellarFillComplete t)) ∧
     (due → ∃ u, exec (.ledgerCheck t) s = .next u ∧ u.chip.inn.ledgerAt = now ∧
       (bad = true → u.chip.ret.sticky.getLsbD F.innLedger = true ∧ u.chip.inn.ledger.2 = satInc 65535 s.chip.inn.ledger.2) ∧
       (bad = false → u.chip.ret = s.chip.ret ∧ u.chip.inn.ledger.2 = s.chip.inn.ledger.2) ∧
       Keeps [.ret, .jrn, .alert, .inn] s u) ∧
     (¬due → idle (.ledgerCheck t)) ∧
     (∀ (n : Fin 8) h, (spurInn s.chip n).hold = some h →
       (4000 * h ≤ s.chip.inn.time → ∃ u, exec (.spurCutRelease t n) s = .next u ∧ (spurInn u.chip n).hold = none ∧
         (∀ m ∈ tieGroup s.chip n, (spur u.chip m).cmd = spurCommand s.chip m ∧ ((spur s.chip m).st = .cut →
           (spur u.chip m).retries = 0 ∧
           (spur u.chip m).st = (if spurCommand s.chip m && !(spur s.chip m).hot then .rampUp else .off))) ∧
         (∀ m, m ∉ tieGroup s.chip n → spur u.chip m = spur s.chip m) ∧ Keeps [.spurs, .inn] s u) ∧
       (s.chip.inn.time < 4000 * h → idle (.spurCutRelease t n))) ∧
     (∀ n, (spurInn s.chip n).hold = none → idle (.spurCutRelease t n)))

/-- SMBus (R668 … R673, R707, R714): a FETCH returns the response with its PEC, or stretches until it is ready, when its release lets
it go; a SEND whose PEC is wrong or missing is not acknowledged, one with byte count 0 is, and each drops the earlier response and is
counted, while a good SEND is no discarded one; a bare read answers a PEC; SMB_CLK low for 35 ms resets the
interface, for less than 25 ms does not, and between them may (log entry 49); a line stuck for 1 s sets F.SMB_STUCK; a read of the alert
address is answered with the gauge's own and clears what was latched before. A gauge that does not answer takes none of them. -/
def Obligations.SmbusAnswersAndRecovers : Prop :=
  ∀ (s : State) (t : Time), s.chip.spi = [] →
    let m := s.chip.smb
    let now := max s.chip.now t
    let n0 := bump 65535 0 m.counts
    let idle (i : Instr) : Prop := exec i s = .next (after t (fun c => c) s)
    let becomes (i : Instr) (x : Machine.Smb) : Prop := exec i s = .next (after t (fun c => { c with smb := x }) s)
    let clear : Machine.Smb := { m with resp := none, out := [], stretch := none, counts := bump 255 2 m.counts }
    let released : Prop := running s.chip = true ∧ s.chip.host.answers = true ∧ m.stretch ≠ none ∧ ∃ r, m.resp = some r ∧ r.ready ≤ now
    let stuck (ns : Nat) : Prop := running s.chip = true ∧ fitted s.chip 6 = true ∧ sec 1 ≤ ns
    (∀ r, smbAnswers s.chip = true → m.resp = some r → r.ready ≤ now → becomes (.smbusFetch t)
      { m with counts := n0, stuck := false, out := fetchBytes s.chip r.bytes, resp := none, stretch := none }) ∧
    (smbAnswers s.chip = true → m.resp = none → becomes (.smbusFetch t)
      { m with counts := n0, stuck := false, out := fetchBytes s.chip [], stretch := none }) ∧
    (∀ r, smbAnswers s.chip = true → m.resp = some r → now < r.ready → becomes (.smbusFetch t)
      { m with counts := n0, stuck := false, stretch := some now }) ∧
    (∀ r, released → m.resp = some r → becomes (.sessionResponseRelease t .smbus)
      { m with out := fetchBytes s.chip r.bytes, resp := none, stretch := none }) ∧
    (¬released → idle (.sessionResponseRelease t .smbus)) ∧
    (∀ x : SmbSend, smbAnswers s.chip = true →
      let right := pec (u8B (2 * smbAddr s.chip) ++ u8B 0xC0 ++ u8B x.count ++ x.data)
      (x.pec ≠ some right → becomes (.smbusSendDiscarded t x)
        { m with counts := bump 255 1 n0, stuck := false, resp := none, acked := some false }) ∧
      (x.pec = some right → x.count = 0 → becomes (.smbusSendDiscarded t x)
        { m with counts := n0, stuck := false, resp := none, zero := (m.zero.1, satInc 65535 m.zero.2), acked := some true }) ∧
      (x.pec = some right → x.count ≠ 0 → idle (.smbusSendDiscarded t x))) ∧
    (smbAnswers s.chip = true →
      becomes (.smbusZeroLengthRead t) { m with
        counts := n0, stuck := false, out := [pec (u8B (2 * smbAddr s.chip + 1))], zero := (satInc 65535 m.zero.1, m.zero.2) }) ∧
    (∀ ns, smbAnswers s.chip = true → ms 35 ≤ ns → becomes (.smbusClockTimeout t ns) clear) ∧
    (∀ ns, smbAnswers s.chip = true → ms 25 ≤ ns → ns < ms 35 → ∃ u, exec (.smbusClockTimeout t ns) s = .next u ∧
      (u.chip.smb = m ∨ u.chip.smb = clear) ∧ u.chip.free = s.chip.free + 1 ∧ Keeps [.smb, .free] s u) ∧
    (∀ ns, ns < ms 25 → idle (.smbusClockTimeout t ns)) ∧
    (∀ ns, stuck ns → ∃ u, exec (.smbStuck t ns) s = .next u ∧
      u.chip.ret.sticky.getLsbD F.smbStuck = true ∧ u.chip.smb.stuck = true ∧ u.chip.smb.resp = none ∧
      Keeps [.ret, .jrn, .alert, .smb] s u) ∧
    (∀ ns, ¬stuck ns → idle (.smbStuck t ns)) ∧
    (∀ at_, smbAnswers s.chip = true → s.chip.alert.causes ≠ 0 → ∃ u, exec (.alertResponseRead t at_ true) s = .next u ∧
      (∀ i, i < 5 → (u.chip.alert.causes.getLsbD i = true ↔
        s.chip.alert.causes.getLsbD i = true ∧ at_ ≤ s.chip.alert.at_.getD i 0)) ∧ u.chip.smb.counts = n0 ∧
      (u.chip.smb.out = u8B (2 * smbAddr s.chip) ∨ u.chip.smb.out = u8B (2 * smbAddr s.chip + 1)) ∧
      Keeps [.smb, .alert] s u) ∧
    (∀ at_, idle (.alertResponseRead t at_ false) ∧ (s.chip.alert.causes = 0 → idle (.alertResponseRead t at_ true))) ∧
    (smbAnswers s.chip = false → ∀ k ns at_ w, idle (.smbusFetch t) ∧ idle (.smbusSendDiscarded t k) ∧
      idle (.smbusZeroLengthRead t) ∧ idle (.smbusClockTimeout t ns) ∧ idle (.alertResponseRead t at_ w))

/-- Frames received (R674, R676 … R678, R727, Table 14.5): a REQUEST for the gauge whose first frame does not complete it opens a
reassembly, in place of what its sender left incomplete and of the oldest of four, and the next in order extends it; a frame out of
order, of an empty message or without a first frame is discarded and ends what its sender left incomplete, and a reassembly ends 50 ms
after its last frame; frames that are
ignored are only counted; a frame with the gauge's own address sets F.ADDRESS_CONFLICT. A frame acts under the command that names what
becomes of it, and under no other.

The CAN bus fails and recovers (R721, R223, Table 14.13): bus-off sets F.CAN_BUS_OFF, and with the third within 60 s the gauge waits
10 s; a CAN_RX held low for 10 ms switches the domain off, with a retry every 10 s; a frame that has waited for 10 ms is dropped.
Otherwise nothing happens. -/
def Obligations.RequestFramesAndCanFaults : Prop :=
  (∀ (s : State) (t : Time) (f : RuellFrame), s.chip.spi = [] →
     let m := s.chip.can
     let now := max s.chip.now t
     let own := ownAddr s.chip
     let total := u8At f.data 0
     let body := f.data.drop 1
     let idle (i : Instr) : Prop := exec i s = .next (after t (fun c => c) s)
     let heard : Machine.Can := { goodReceive m with frameAt := now, rx := bump 65535 0 m.rx }
     let becomes (i : Instr) (x : Machine.Can) : Prop := exec i s = .next (after t (fun c => { c with can := x }) s)
     let mine : Prop := canTakes s.chip = true ∧ f.kind = 1 ∧ f.device ≠ own
     let others := m.reasm.filter (·.addr != f.device)
     let held : Bool := m.reasm.any (·.addr == f.device)
     let dropped : Machine.Can := if held then { heard with reasm := others, multi := (m.multi.1, satInc 65535 m.multi.2) } else heard
     let oldest (rs : List Reasm) : List Reasm := match rs with
       | r :: _ => if 4 ≤ rs.length then rs.filter (·.addr != r.addr) else rs
       | [] => []
     (¬mine → idle (.ruellRequestSegment t f) ∧ idle (.ruellSegmentDiscarded t f)) ∧
     (mine → f.seq = 0 →
       (total = 0 → idle (.ruellRequestSegment t f) ∧
         becomes (.ruellSegmentDiscarded t f) { dropped with multi := (satInc 65535 dropped.multi.1, dropped.multi.2) }) ∧
       (total ≠ 0 → idle (.ruellSegmentDiscarded t f)) ∧
       (total ≠ 0 → u16At body 0 ≠ own → becomes (.ruellRequestSegment t f) dropped) ∧
       (total ≠ 0 → u16At body 0 = own → total ≤ body.length → idle (.ruellRequestSegment t f)) ∧
       (total ≠ 0 → u16At body 0 = own → body.length < total → ∃ u, exec (.ruellRequestSegment t f) s = .next u ∧
         u.chip.can.reasm = oldest others ++ [{ addr := f.device, total := total, got := body, next := 1, lastAt := now }] ∧
         u.chip.can.rx = heard.rx ∧ u.chip.can.frameAt = now ∧ u.chip.can.queue = m.queue ∧
         (others.length < 4 → u.chip.can.multi = dropped.multi) ∧ Keeps [.can] s u)) ∧
     (mine → f.seq ≠ 0 → held = false →
       idle (.ruellRequestSegment t f) ∧ becomes (.ruellSegmentDiscarded t f) heard) ∧
     (∀ r, mine → f.seq ≠ 0 → m.reasm.find? (·.addr == f.device) = some r →
       (f.seq ≠ r.next ∨ r.lastAt + ms 50 < now →
         idle (.ruellRequestSegment t f) ∧ becomes (.ruellSegmentDiscarded t f) dropped) ∧
       (f.seq = r.next → now ≤ r.lastAt + ms 50 → idle (.ruellSegmentDiscarded t f)) ∧
       (f.seq = r.next → now ≤ r.lastAt + ms 50 → r.total ≤ (r.got ++ f.data).length → idle (.ruellRequestSegment t f)) ∧
       (f.seq = r.next → now ≤ r.lastAt + ms 50 → (r.got ++ f.data).length < r.total → becomes (.ruellRequestSegment t f)
         { heard with reasm := m.reasm.map fun x => if x.addr == f.device then
             { x with got := r.got ++ f.data, next := r.next + 1, lastAt := now } else x })) ∧
     (let above : Prop := running s.chip = true ∧ ∃ r ∈ m.reasm, r.addr = f.device ∧ r.lastAt + ms 50 < now
      (above → becomes (.reassemblyTimeout t f.device) { m with reasm := others, multi := (m.multi.1, satInc 65535 m.multi.2) }) ∧
      (¬above → idle (.reassemblyTimeout t f.device))) ∧
     (∀ k, canTakes s.chip = true → becomes (.canFrameIgnored t k)
       { goodReceive m with frameAt := now, rx := bump 255 (if k = .reservedKind then 2 else 1) m.rx }) ∧
     (∀ k, canTakes s.chip = false → idle (.canFrameIgnored t k)) ∧
     (canTakes s.chip = true → f.device = own → ∃ u, exec (.ownAddressFrame t f) s = .next u ∧
       u.chip.ret.sticky.getLsbD F.addressConflict = true ∧ u.chip.can.frameAt = now ∧ Keeps [.ret, .jrn, .alert, .can] s u) ∧
     (canTakes s.chip = false ∨ f.device ≠ own → idle (.ownAddressFrame t f))) ∧
  (∀ (s : State) (t : Time), s.chip.spi = [] →
     let m := s.chip.can
     let now := max s.chip.now t
     let idle (i : Instr) : Prop := exec i s = .next (after t (fun c => c) s)
     let becomes (i : Instr) (x : Machine.Can) : Prop := exec i s = .next (after t (fun c => { c with can := x }) s)
     let fails : Prop := running s.chip = true ∧ m.on = true ∧ m.off = false
     let sticks (ns : Nat) : Prop := running s.chip = true ∧ m.on = true ∧ m.stb = false ∧ ms 10 ≤ ns
     (fails → ∃ u, exec (.canBusOff t) s = .next u ∧ u.chip.can.off = true ∧ u.chip.can.tec = 255 ∧
       u.chip.ret.sticky.getLsbD F.canBusOff = true ∧ u.chip.can.queue = m.queue ∧
       u.chip.can.offTimes = pushTime (sec 60) now m.offTimes ∧
       u.chip.can.recoverAt = now + (if 3 ≤ u.chip.can.offTimes.length then sec 10 else 0) ∧
       Keeps [.ret, .jrn, .alert, .can] s u) ∧
     (¬fails → idle (.canBusOff t)) ∧
     (m.off = true → m.recoverAt ≤ now → becomes (.busOffRecovered t) { m with off := false, tec := 0, rxec := 0 }) ∧
     (m.off = false ∨ now < m.recoverAt → idle (.busOffRecovered t)) ∧
     (∀ ns, sticks ns → ∃ u, exec (.canRxStuck t ns) s = .next u ∧
       u.chip.can.on = false ∧ u.chip.can.stb = true ∧ u.chip.can.rxStuck = some now ∧
       u.chip.ret.sticky.getLsbD F.canRxStuck = true ∧ Keeps [.ret, .jrn, .alert, .can] s u) ∧
     (∀ ns, ¬sticks ns → idle (.canRxStuck t ns)) ∧
     (∀ t0, m.rxStuck = some t0 → t0 + sec 10 ≤ now →
       (s.chip.seq.mode = .parked ∨ canFitted s.chip = false ∨ s.chip.clk.xtalOk = false →
         becomes (.canRxStuckRetry t false) { m with rxStuck := none }) ∧
       (s.chip.seq.mode ≠ .parked → canFitted s.chip = true → s.chip.clk.xtalOk = true →
         becomes (.canRxStuckRetry t false) { m with rxStuck := none, on := true, stb := false }) ∧
       (∃ u, exec (.canRxStuckRetry t true) s = .next u ∧ u.chip.can.rxStuck = some now ∧
         u.chip.ret.sticky.getLsbD F.canRxStuck = true ∧ Keeps [.ret, .jrn, .alert, .can] s u)) ∧
     (∀ b, (∀ t0, m.rxStuck = some t0 → now < t0 + sec 10) → idle (.canRxStuckRetry t b)) ∧
     (∀ f t0 fs, m.queue = (f, t0) :: fs →
       (t0 + ms 10 ≤ now → becomes (.canFrameDropped t) { m with queue := fs, tx := (m.tx.1, satInc 65535 m.tx.2) }) ∧
       (now < t0 + ms 10 → idle (.canFrameDropped t))) ∧
     (m.queue = [] → idle (.canFrameDropped t)))

/-- Waking (R708 … R712, R223, Table 14.13): WAKE_N low for 1 ms, and CAN_RX in standby, start the CAN domain where it may run; a low is
counted once and keeps the bus awake until 10 s after its release; WAKE_N low for 10 s sets F.WAKE_N_STUCK, and the line wakes again once it
has been high for 1 s; in PARKED the domain stops after 5 s without need; the gauge's own WAKE frame follows 200 µs after its start, and its
WAKE_N pulse ends after 10 ms. Otherwise nothing happens. -/
def Obligations.CanDomainWakesAndStops : Prop :=
  ∀ (s : State) (t : Time), s.chip.spi = [] →
    let m := s.chip.can
    let now := max s.chip.now t
    let idle (i : Instr) : Prop := exec i s = .next (after t (fun c => c) s)
    let becomes (i : Instr) (x : Machine.Can) : Prop := exec i s = .next (after t (fun c => { c with can := x }) s)
    let early (ns : Nat) : Prop := ∃ t0, m.wakeHighAt = some t0 ∧ now - ns < t0 + sec 1
    let pulled (ns : Nat) : Prop := running s.chip = true ∧ ms 1 ≤ ns
    let stuck (ns : Nat) : Prop := running s.chip = true ∧ m.wakeStuck = none ∧ sec 10 ≤ ns
    let pattern (ns : Nat) : Prop := running s.chip = true ∧ m.stb = true ∧ us 5 ≤ ns
    let stops : Prop := s.chip.seq.mode = .parked ∧ m.on = true ∧ canSession s.chip = false ∧ s.chip.alert.pulse = none ∧
      m.wakeStuck = none ∧ m.wakeLow = false ∧ beaconNear s.chip = false ∧ m.frameAt + sec 5 ≤ now ∧ m.awakeUntil ≤ now
    (∀ ns h, pulled ns → m.wakeStuck = none → ¬early ns → exec (.wakeNWake t { ns := ns, held := h }) s = .next (after t (fun c =>
      { c with
        alert := { c.alert with wakes := if m.wakeLow then c.alert.wakes else satInc 65535 c.alert.wakes }
        can := { c.can with
          on := c.can.on || canMay s.chip, stb := c.can.stb && !canMay s.chip, wakeHighAt := none, wakeLow := h
          awakeUntil := if h then c.can.awakeUntil else c.now + sec 10, frameAt := c.now } }) s)) ∧
    (∀ ns, pulled ns → m.wakeStuck ≠ none ∨ early ns →
      becomes (.wakeNWake t { ns := ns, held := false })
        { m with wakeStuck := none, wakeHighAt := some now, frameAt := now, wakeLow := false } ∧
      becomes (.wakeNWake t { ns := ns, held := true }) { m with wakeLow := true }) ∧
    (∀ ns h, ¬pulled ns → idle (.wakeNWake t { ns := ns, held := h })) ∧
    (∀ ns, stuck ns → ∃ u, exec (.wakeNStuck t ns) s = .next u ∧
      u.chip.can.wakeStuck = some now ∧ u.chip.ret.sticky.getLsbD F.wakeNStuck = true ∧
      u.chip.can.on = m.on ∧ Keeps [.ret, .jrn, .alert, .can] s u) ∧
    (∀ ns, ¬stuck ns → idle (.wakeNStuck t ns)) ∧
    (∀ ns, pattern ns → becomes (.canRxWake t ns)
      { m with on := m.on || canMay s.chip, stb := m.stb && !canMay s.chip, frameAt := now }) ∧
    (∀ ns, ¬pattern ns → idle (.canRxWake t ns)) ∧
    (stops → becomes (.canDomainStop t) { m with on := false, stb := true, wakeAt := none }) ∧
    (¬stops → idle (.canDomainStop t)) ∧
    (∀ t0, m.wakeAt = some t0 → t0 + us 200 ≤ now → becomes (.canOwnWake t) { m with
      wakeAt := none
      queue := if canFitted s.chip then m.queue ++ [({
          prio := 0, kind := 0x0C, device := ownAddr s.chip, seq := 0, data := [], fd := sendsFd s.chip }, now)] else m.queue }) ∧
    ((∀ t0, m.wakeAt = some t0 → now < t0 + us 200) → idle (.canOwnWake t)) ∧
    (∀ t0, s.chip.alert.pulse = some t0 → t0 + ms 10 ≤ now → exec (.wakeNPulseEnd t) s =
      .next (after t (fun c => { c with alert.pulse := none, can.frameAt := c.now }) s)) ∧
    ((∀ t0, s.chip.alert.pulse = some t0 → now < t0 + ms 10) → idle (.wakeNPulseEnd t))

/-- Sessions (R682, R683, R686 … R690): OPEN takes a handle half-open with the key of Table 14.6's derivation; CONFIRM opens it;
CLOSE ends it after its response; each answers the first check of Table 14.7 that it fails. A session idle for 60 s, and a handle not
confirmed within 1 s, end with alert 3; the lockout ends at its time; the CAN responses whose time has come are released. -/
def Obligations.SessionsOpenConfirmAndEnd : Prop :=
  (∀ (s : State) (t : Time) (d : Delivery) (r : Request) (w : Who) (ks : Option (List Byte)) (c : Chip),
    Accepted d (tick t s.chip) r w ks c →
    let p := r.params
    let first (i : Instr) (checks : List (Bool × Nat)) (goal : Prop) : Prop :=
      (∀ x, checks.find? (·.1) = some x → exec i s = .next (became (answered r w ks x.2 [] c) s)) ∧
      (checks.find? (·.1) = none → goal)
    let half : Bool := match w with
      | .sess _ x => x.half
      | .pub => false
    let role := roleOf (u8At p 0)
    (r.op = 0x08 → first (.cmdSessionOpen t d)
      [(w != .pub, 0x06), (p.length == 12 && role.elim false fun x => (roleKey c x (u16At p 2)).isNone, 0x11), (p.length != 12, 0x04),
        (role.isNone || u8At p 1 != 0, 0x05), ((role == some .depot && depotExists c) || (takeHandle c).isNone, 0x10)]
      (∀ x, role = some x → ∀ k, roleKey c x (u16At p 2) = some k → ∀ h, takeHandle c = some h →
        let e := endSession true h c
        let nG := (randomBytes 8 e).1
        exec (.cmdSessionOpen t d) s = .next (became (reply r none 0x00 (u8B h ++ [0] ++ nG) { e with
          free := e.free + 8
          host.sess := updAt e.host.sess (h - 1) fun _ => some {
            role := x, index := u16At p 2, half := true, link := r.link, addr := r.addr, counter := 0, lastAt := e.now
            fails := 0, ks := sessionKey k (slice p 4 8) nG h, limp := e.seq.mode == .limp } }) s))) ∧
    (r.op = 0x09 → first (.cmdSessionConfirm t d) [(!half, 0x06), (p != [], 0x04)]
      (exec (.cmdSessionConfirm t d) s =
        .next (became (answered r w ks 0x00 [] (updSess r.sid (fun y => { y with half := false, lastAt := c.now }) c)) s))) ∧
    (r.op = 0x0A → first (.cmdSessionClose t d) [(w == .pub, 0x06), (p != [], 0x04)]
      (exec (.cmdSessionClose t d) s =
        .next (became (counterSpent r (endSession false r.sid (reply r ks 0x00 [] (noteAnswer r 0x00 c)))) s)))) ∧
  ∀ (s : State) (t : Time), s.chip.spi = [] →
    let now := max s.chip.now t
    let idle (i : Instr) : Prop := exec i s = .next (after t (fun c => c) s)
    (∀ h, ∀ x, s.chip.host.sess.getD (h - 1) none = some x →
      let gone (u : State) : Prop := u.chip.host.sess.getD (h - 1) none = none ∧ u.chip.alert.causes.getLsbD 3 = true ∧
        u.chip.host.sess = s.chip.host.sess.set (h - 1) none ∧
        (x.role ≠ .depot ∨ x.half = true ∨ s.chip.seq.mode ≠ .depot ∨ anyFeed s.chip = false → Keeps [.alert, .can, .host] s u) ∧
        (x.role = .depot → x.half = false → s.chip.seq.mode = .depot → anyFeed s.chip = true → u.chip.seq.mode = .coupled)
      (x.half = false → x.lastAt + sec 60 ≤ now → ∃ u, exec (.sessionIdleTimeout t h) s = .next u ∧ gone u) ∧
      (x.half = true → x.lastAt + sec 1 ≤ now → ∃ u, exec (.sessionHalfOpenTimeout t h) s = .next u ∧ gone u) ∧
      (x.half = true ∨ now < x.lastAt + sec 60 → idle (.sessionIdleTimeout t h)) ∧
      (x.half = false ∨ now < x.lastAt + sec 1 → idle (.sessionHalfOpenTimeout t h))) ∧
    (∀ h, s.chip.host.sess.getD (h - 1) none = none → idle (.sessionIdleTimeout t h) ∧ idle (.sessionHalfOpenTimeout t h)) ∧
    (∀ t0, s.chip.host.lockUntil = some t0 →
      (t0 ≤ now → exec (.sessionLockoutEnd t) s = .next (after t (fun c => { c with host.lockUntil := none }) s)) ∧
      (now < t0 → idle (.sessionLockoutEnd t))) ∧
    (s.chip.host.lockUntil = none → idle (.sessionLockoutEnd t)) ∧
    (running s.chip = true → s.chip.host.answers = true → exec (.sessionResponseRelease t .can) s = .next (after t (fun c =>
      (s.chip.can.resp.filter (fun a => decide (a.ready ≤ now))).foldl (fun e a => canMessage a.prio 0x02 a.bytes e)
        { c with can.resp := s.chip.can.resp.filter fun a => !decide (a.ready ≤ now) }) s)) ∧
    (running s.chip = false ∨ s.chip.host.answers = false → idle (.sessionResponseRelease t .can))

/-- Reads (R693, R702, Table 14.6): CMD_READ answers the bytes of its objects, CMD_GUEST_READ a record, CMD_JOURNAL_READ the records
from a sequence number on, each to the roles of Table 14.6, and nothing but the links changes; CMD_RESULT answers the outcome of
its session's pending command once it is ready, and PENDING before. Each answers the first check of Table 14.7 that it fails. -/
def Obligations.ReadsAnswerAndChangeNothing : Prop :=
  ∀ (s : State) (t : Time) (d : Delivery) (r : Request) (w : Who) (ks : Option (List Byte)) (c : Chip),
    Accepted d (tick t s.chip) r w ks c →
    let p := r.params
    let answersAs (i : Instr) (status : Nat) (data : List Byte) : Prop := exec i s = .next (became (answered r w ks status data c) s)
    let first (i : Instr) (checks : List (Bool × Nat)) (goal : Prop) : Prop :=
      (∀ x, checks.find? (·.1) = some x → answersAs i x.2 []) ∧ (checks.find? (·.1) = none → goal)
    let staff : Bool := w.isRole [.owner, .depot]
    let ownIndex : Bool := match w with
      | .sess _ x => x.role == .guest && x.index == u16At p 0
      | .pub => false
    (r.op = 0x01 → first (.cmdRead t d)
      [(p.length == 4 && !staff && readsClosed (u16At p 0) (u8At p 2), 0x06), (p.length != 4, 0x04),
        (u8At p 2 == 0 || decide (48 < u8At p 2) || u8At p 3 != 0 || decide (0x1000 < u16At p 0 + u8At p 2), 0x05)]
      (answersAs (.cmdRead t d) 0x00 (objectBytes s.nvm c (u16At p 0) (u8At p 2)))) ∧
    (r.op = 0x02 → first (.cmdGuestRead t d)
      [(!staff && !ownIndex, 0x06), (!innMode c, 0x07), (p.length != 2, 0x04), ((guestRecord s.nvm c (u16At p 0)).isNone, 0x05)]
      (∀ b, guestRecord s.nvm c (u16At p 0) = some b → answersAs (.cmdGuestRead t d) 0x00 b)) ∧
    (r.op = 0x03 → first (.cmdJournalRead t d)
      [(!staff, 0x06), (p.length != 5, 0x04), (u8At p 4 == 0 || decide (3 < u8At p 4), 0x05)]
      (answersAs (.cmdJournalRead t d) 0x00 ((journalFrom s.nvm c (u32At p 0)).take (u8At p 4)).flatten)) ∧
    (r.op = 0x04 → first (.cmdResult t d) [(w == .pub, 0x06), (p != [], 0x04), ((ownPend c w).isNone, 0x12)]
      (∀ q, ownPend c w = some q →
        (∀ o, q.outcome = some o → exec (.cmdResult t d) s =
          .next (became (answered r w ks o.1 o.2 { c with host.pend := none }) s)) ∧
        (q.outcome = none → answersAs (.cmdResult t d) 0x01 [])))

/-- Commands of the owner and of the depot (R122, R132, R638 … R641, R694, R697 … R699): CMD_SET_TIME sets caravan time, CMD_SHIP
requests SHIP, CMD_CLEAR_STICKY clears the bits of its mask that its role may clear, GUEST_REVOKE and GUEST_RESTORE change the
guest's record, DEPOT and DEPOT_EXIT the mode, and RESTART takes effect after its response. Each answers the first check of Table 14.7
that it fails. -/
def Obligations.SettingCommandsTakeEffect : Prop :=
  ∀ (s : State) (t : Time) (d : Delivery) (r : Request) (w : Who) (ks : Option (List Byte)) (c : Chip),
    Accepted d (tick t s.chip) r w ks c →
    let p := r.params
    let does (i : Instr) (data : List Byte) (e : Chip) : Prop := exec i s = .next (became (answered r w ks 0x00 data e) s)
    let first (i : Instr) (checks : List (Bool × Nat)) (goal : Prop) : Prop :=
      (∀ x, checks.find? (·.1) = some x → exec i s = .next (became (answered r w ks x.2 [] c) s)) ∧
      (checks.find? (·.1) = none → goal)
    let staff : Bool := w.isRole [.owner, .depot]
    let depot : Bool := w.isRole [.depot]
    let ownIndex : Bool := match w with
      | .sess _ x => x.role == .guest && x.index == u16At p 0
      | .pub => false
    let theirs : Bool := otherSide c (u16At p 0)
    let unknown : Bool := (ownGuest c (u16At p 0)).isNone && !theirs
    (r.op = 0x10 → first (.cmdSetTime t d)
      [(!staff, 0x06), (!innMode c, 0x07), (p.length != 8, 0x04), (u8At p 7 != 0, 0x05), (!actsAsSource c, 0x10)]
      (does (.cmdSetTime t d) [] { c with ret := { c.ret with
        cvBase := ((leNat (slice p 0 8) : Nat) : Rat), cvRef := c.now, cvSlew := 0, cvRate := 0, cvSet := true } })) ∧
    (r.op = 0x11 → first (.cmdShip t d) [(!staff, 0x06), (!(innMode c || c.seq.mode == .limp), 0x07), (p != [], 0x04)]
      (does (.cmdShip t d) [] (shipRequest false s.nvm c))) ∧
    (r.op = 0x12 → first (.cmdClearSticky t d)
      [(!staff, 0x06), (!(decide (4 ≤ p.length) && p.length == 4 + 4 * u8At p 2), 0x04),
        (decide (u16At p 0 < 0x700) || u8At p 2 == 0 || decide (32 < u8At p 2) || decide (0x780 < u16At p 0 + u8At p 2)
          || u8At p 3 != 0, 0x05)]
      (let e := clearSticky w.role (clearMask p) c
       does (.cmdClearSticky t d) (stillSet p e) e ∧
         (seqSpent c = false →
           e.ret.sticky = c.ret.sticky &&& ~~~ (clearMask p &&& clearable w.role c.seq.mode &&& ~~~ detectedNow c)) ∧
         e.seq = c.seq ∧ e.host = c.host)) ∧
    (r.op = 0x13 → first (.cmdGuestRevoke t d)
      [(!staff && !(ownIndex && u8At p 2 == 0), 0x06), (!innMode c, 0x07), (p.length != 4, 0x04),
        (decide (1 < u8At p 2) || u8At p 3 != 0 || unknown, 0x05), (theirs, 0x10)]
      (∀ g, ownGuest c (u16At p 0) = some g →
        does (.cmdGuestRevoke t d) [] (revokeGuest (u8At p 2 == 1) g s.nvm c))) ∧
    (r.op = 0x14 → first (.cmdGuestRestore t d)
      [(!staff, 0x06), (!innMode c, 0x07), (p.length != 2, 0x04), (unknown, 0x05), (theirs, 0x10)]
      (∀ g, ownGuest c (u16At p 0) = some g → does (.cmdGuestRestore t d) []
        (modRecord s.nvm true g.pos (fun x => { x with revoked := false, safety := false }) c))) ∧
    (r.op = 0x20 → first (.cmdDepot t d) [(!depot, 0x06), (c.seq.mode != .coupled, 0x07), (p != [], 0x04)]
      (let e := packPolicies (setMode .depot c)
       does (.cmdDepot t d) [] e ∧ e.seq.mode = .depot ∧ e.host = c.host ∧ e.spurs = c.spurs)) ∧
    (r.op = 0x21 → first (.cmdDepotExit t d)
      [(!depot, 0x06), (!(c.seq.mode == .depot && anyFeed c), 0x07), (p != [], 0x04)]
      (let e := enterCoupled c
       does (.cmdDepotExit t d) [] e ∧ e.seq.mode = .coupled ∧ e.host = c.host ∧ e.spurs = c.spurs)) ∧
    (r.op = 0x22 → first (.cmdRestart t d) [(!depot, 0x06), (p != [], 0x04)]
      (exec (.cmdRestart t d) s =
        .next (became (counterSpent r (sendLeaving 2 (reply r ks 0x00 []
            (noteAnswer r 0x00 { dropCheck c with seq.restartAt := some c.now })))) s)))

/-- Depot service (R185, R186, R213, R579, R692, R695, R696): CAL_POINT, TAG_READ, TAG_WRITE and IMAGE_CHECK answer PENDING and
begin; IMAGE_BEGIN invalidates the copy that was not loaded and IMAGE_WRITE writes its next chunk there; each answers the first check
of Table 14.7 that it fails, the last of them NVM for a write that the NVM does not complete, which the spec leaves open (log entry 20).
An outcome that is ready latches alert 2, and one whose session has ended is dropped; the check of the target copy closes the
reprovisioning or zeroes MAGIC again, but not once CMD_RESTART has come (R117, R724) or while the NVM domain is stopped (R225). -/
def Obligations.DepotServiceRunsInDepot : Prop :=
  (∀ (s : State) (t : Time) (d : Delivery) (r : Request) (w : Who) (ks : Option (List Byte)) (c : Chip),
    Accepted d (tick t s.chip) r w ks c →
    let p := r.params
    let begun : Chip :=
      { c with host.pend := some { op := r.op, handle := r.sid, at_ := c.now, orphan := false, done := none, outcome := none } }
    let does (i : Instr) (status : Nat) (e : Chip) : Prop := exec i s = .next (became (answered r w ks status [] e) s)
    let failed (checks : List (Bool × Nat)) : Option (Bool × Nat) :=
      ((!w.isRole [.depot], 0x06) :: (c.seq.mode != .depot, 0x07) :: checks).find? (·.1)
    let first (i : Instr) (checks : List (Bool × Nat)) (goal : Prop) : Prop :=
      (∀ x, failed checks = some x → does i x.2 c) ∧ (failed checks = none → goal)
    let off := u32At p 0
    let wrote : Bool := nvmRuns c && !Config.nvmWriteFails c.free
    let toTarget (at_ : Nat) (bs : List Byte) : List (Nat × List Byte) := c.spi ++ c.img.map.elim [] fun m => [(targetAt m c + at_, bs)]
    (r.op = 0x23 → first (.cmdCalPoint t d)
      [(p.length != 4, 0x04),
        (decide (5 < u8At p 0) || decide (1 < u8At p 1) || (u8At p 0 == 5 && decide (23 < u8At p 2)) || u8At p 3 != 0, 0x05)]
      ((calRefused c p = true → does (.cmdCalPoint t d) 0x10 { c with cal := { c.cal with
        ch := u8At p 0, auxCh := u8At p 2, span := u8At p 1 == 1, done := false, refused := true, count := 0 } }) ∧
      (calRefused c p = false →
        let e := calStart p begun
        does (.cmdCalPoint t d) 0x01 e ∧ e.cal.run = true ∧ e.cal.ch = u8At p 0 ∧ e.cal.start = c.now ∧
        e.cal.count = 0 ∧ e.host = begun.host ∧
        (u8At p 0 ≠ 2 → e.pack = (leaveDuty begun).pack ∧ e.chg = c.chg) ∧
        (u8At p 0 = 2 → u8At p 1 = 1 → e.pack.st = .charge ∧ e.chg.spanPoint = true)))) ∧
    (r.op = 0x24 → first (.cmdTagRead t d)
      [(p.length != 4, 0x04), (u16At p 2 == 0 || decide (192 < u16At p 2) || decide (0x800 < u16At p 0 + u16At p 2), 0x05)]
      (does (.cmdTagRead t d) 0x01
        (kickTool { begun with tag.tool := some { handle := r.sid, addr := u16At p 0, len := u16At p 2 } }))) ∧
    (r.op = 0x25 → first (.cmdTagWrite t d) [(p != [], 0x04)] (does (.cmdTagWrite t d) 0x01 (tagWriteAsked begun))) ∧
    (r.op = 0x28 → first (.cmdImageBegin t d)
      [(p.length != 64, 0x04), (headerRefused c p, 0x05), (decide (u32At p 12 ≤ c.img.cfg.sequence), 0x0C)]
      (if wrote then does (.cmdImageBegin t d) 0x00 { c with
        img.reprov := some { header := p, nextOff := 4 }, spi := toTarget 0 [0, 0, 0, 0], free := c.free + 5 }
       else ∃ bs, bs.length ≤ 4 ∧
        does (.cmdImageBegin t d) 0x0E { c with img.reprov := none, spi := toTarget 0 bs, free := c.free + 5 })) ∧
    (r.op = 0x29 → first (.cmdImageWrite t d)
      [(!(decide (5 ≤ p.length) && decide (p.length ≤ 228)), 0x04),
        (c.img.reprov.elim false fun x => headerDiffers x off (p.drop 4), 0x05),
        (c.img.reprov.elim true fun x => off != x.nextOff || decide (u32At x.header 8 < off + (p.length - 4)), 0x0D)]
      (∀ x, c.img.reprov = some x →
        let e : Chip := { c with free := c.free + (p.length - 4) + 1 }
        if wrote then does (.cmdImageWrite t d) 0x00 { e with
          img.reprov := some { x with nextOff := off + (p.length - 4) }, spi := toTarget off (p.drop 4) }
        else ∃ bs, bs.length ≤ p.length - 4 ∧ does (.cmdImageWrite t d) 0x0E { e with spi := toTarget off bs })) ∧
    (r.op = 0x2A → first (.cmdImageCheck t d)
      [(p != [], 0x04), (c.img.reprov.elim true fun x => decide (x.nextOff < u32At x.header 8), 0x0D)]
      (if wrote then does (.cmdImageCheck t d) 0x01 { begun with spi := toTarget 0 [0x53, 0x4B, 0x50, 0x49], free := c.free + 5 }
       else ∃ bs, bs.length ≤ 4 ∧ does (.cmdImageCheck t d) 0x0E { c with spi := toTarget 0 bs, free := c.free + 5 }))) ∧
  ∀ (s : State) (t : Time), s.chip.spi = [] →
    let ready (f : State → Prop) : Prop := ∃ u, exec (.pendingOutcomeReady t) s = .next u ∧ f u
    let idle : Prop := exec (.pendingOutcomeReady t) s = .next (after t (fun c => c) s)
    (s.chip.host.pend = none → idle) ∧
    ∀ q, s.chip.host.pend = some q →
    (∀ o, q.done = some o → q.outcome = none → q.orphan = false → ready fun u =>
      u.chip.host.pend = some { q with outcome := some o } ∧ u.chip.alert.causes.getLsbD 2 = true ∧ Keeps [.alert, .host] s u) ∧
    (q.done ≠ none → q.outcome = none → q.orphan = true → exec (.pendingOutcomeReady t) s =
      .next (after t (fun c => { c with host.pend := none }) s)) ∧
    (q.done ≠ none → q.outcome ≠ none → idle) ∧
    (q.done = none → q.op ≠ 0x2A ∨ s.chip.img.map = none ∨ nvmRuns s.chip = false ∨ s.chip.seq.restartAt ≠ none → idle) ∧
    (q.op = 0x2A → q.done = none → q.outcome = none → nvmRuns s.chip = true → s.chip.seq.restartAt = none → ∀ m, s.chip.img.map = some m →
      let above (o : Nat × List Byte) (u : State) : Prop :=
        (q.orphan = true → u.chip.host.pend = none ∧ u.chip.alert = s.chip.alert) ∧
        (q.orphan = false → u.chip.host.pend = some { q with done := some o, outcome := some o } ∧
          u.chip.alert.causes.getLsbD 2 = true)
      let judged := checkCopy (checkEnv m s.chip) (copyBytes m (targetCopy s.chip) s.nvm)
      (∀ x, judged = .ok x → ready fun u => above (0, List.replicate 8 0) u ∧ u.chip.img = { s.chip.img with reprov := none } ∧
        Keeps [.alert, .host, .img] s u) ∧
      (∀ e, judged = .error e → ready fun u => above (0x0F, u8B e.reason.code ++ [0] ++ u16B e.tag ++ u32B e.offset) u ∧
        u.nvm = s.nvm.apply [(targetAt m s.chip, [0, 0, 0, 0])] ∧ Keeps [.nvm, .alert, .host] s u))

/-- Requests that fail (R700, Table 14.7): every command of Table 14.6 answers the status of the first check it fails: BUSY in
CONFIGURE, LENGTH, NO_SESSION, AUTH, REPLAY, then ROLE and MODE; nothing of its effect happens. A request for another opcode is none
of the command's, and a reserved opcode that fails none of the orders before it is answered UNKNOWN_OPCODE. Where nothing arrives
whole, nothing happens. -/
def Obligations.RequestsFailAtTheFirstCheck : Prop :=
  ∀ (s : State) (t : Time) (d : Delivery),
    let idle (i : Instr) : Prop := exec i s = .next (became (tick t s.chip) s)
    ((receive d (tick t s.chip)).1 = none → (∀ op, ∀ i, commandOf t d op = some i → idle i) ∧ idle (.unknownOpcode t d)) ∧
    ∀ (r : Request) (c : Chip), receive d (tick t s.chip) = (some r, c) →
    let ks := (sessOf r c).map (·.ks)
    let fails (i : Instr) : Prop :=
      let answersAs (status : Nat) (e : Chip) : Prop := exec i s = .next (became (reply r ks status [] (noteAnswer r status e)) s)
      (c.seq.mode = .configure → answersAs 0x02 c) ∧
      (busy r c = true → answersAs 0x02 c) ∧
      (busy r c = false → (r.msg.length < 8 ∨ (r.sid ≠ 0 ∧ r.msg.length < 16) → answersAs 0x04 c) ∧
        (8 ≤ r.msg.length → r.sid = 0 → (r.op = 0x02 ∨ r.op = 0x03 ∨ r.op = 0x04 ∨ r.op = 0x09 ∨ r.op = 0x0A ∨
          (0x10 ≤ r.op ∧ knownOps.contains r.op = true)) → answersAs 0x06 c) ∧
        (16 ≤ r.msg.length → r.sid ≠ 0 →
          (sessOf r c = none → answersAs 0x0A c) ∧
          (∀ x, sessOf r c = some x → (x.half = true → r.op ≠ 0x09 → answersAs 0x0A c) ∧
            (x.half = false ∨ r.op = 0x09 → r.mac ≠ sessionMac x.ks 0x51 r.link r.addr r.body → answersAs 0x08 (macFails r x c)) ∧
            (x.half = false ∨ r.op = 0x09 → r.mac = sessionMac x.ks 0x51 r.link r.addr r.body → r.ctr ≤ x.counter →
              answersAs 0x09 { c with host.auth := bump 255 1 c.host.auth }))))
    (∀ op, ∀ i, commandOf t d op = some i → r.op ≠ op → idle i) ∧
    (knownOps.contains r.op = true → idle (.unknownOpcode t d)) ∧
    (∀ i, commandOf t d r.op = some i → fails i) ∧ (knownOps.contains r.op = false → fails (.unknownOpcode t d)) ∧
    (∀ i, commandOf t d r.op = some i → 0x20 ≤ r.op → r.op ≤ 0x2A → ∀ w k e, Accepted d (tick t s.chip) r w k e →
      (w.isRole [.depot] = false → exec i s = .next (became (answered r w k 0x06 [] e) s)) ∧
      (w.isRole [.depot] = true → 0x23 ≤ r.op → e.seq.mode ≠ .depot → exec i s = .next (became (answered r w k 0x07 [] e) s))) ∧
    (knownOps.contains r.op = false → busy r c = false →
      (8 ≤ r.msg.length → r.sid = 0 → exec (.unknownOpcode t d) s = .next (became (reply r none 0x03 [] (noteAnswer r 0x03 c)) s)) ∧
      (16 ≤ r.msg.length → r.sid ≠ 0 → ∀ x, sessOf r c = some x → x.half = false →
        r.mac = sessionMac x.ks 0x51 r.link r.addr r.body → x.counter < r.ctr →
        exec (.unknownOpcode t d) s =
          .next (became (counterSpent r (reply r (some x.ks) 0x03 [] (noteAnswer r 0x03 (acceptRequest r c)))) s)))

/-- Caravan time (R703 … R705, R722): a source hands a TIME_SYNC each second; a TIME_SYNC stamps the local time, and a source that hears a
lower address stops, until the lower one has been silent for 10 s; the TIME_FOLLOW of the lowest source steps or slews the time, and any
other only counts as a frame; after 10 s without one the source is lost, with alert 4. -/
def Obligations.CaravanTimeFollowsTheLowestSource : Prop :=
  ∀ (s : State) (t : Time), s.chip.spi = [] →
    let v := s.chip.caravan
    let now := max s.chip.now t
    let here := tick t s.chip
    let idle (i : Instr) : Prop := exec i s = .next (after t (fun c => c) s)
    let may : Prop := running s.chip = true ∧ timeDuty s.chip = true ∧ canAwake s.chip = true
    let barred : Prop := v.stopped = true ∧ lowerHeard here = true
    let due : Prop := ∀ t0, v.sendAt = some t0 → t0 + sec 1 ≤ now
    (may → ¬barred → due → exec (.timeSyncSend t) s = .next (after t (fun c =>
      let q := (c.caravan.sendSeq + 1) % 32
      let f : RuellFrame := { prio := 1, kind := 0x08, device := ownAddr c, seq := q % 32, data := [], fd := sendsFd c }
      { c with
        can := { c.can with queue := c.can.queue ++ [(f, c.now)] }
        caravan := { c.caravan with stopped := false, sendSeq := q, sendAt := some c.now } }) s)) ∧
    (may → ¬barred → ¬due → exec (.timeSyncSend t) s = .next (after t (fun c => { c with caravan.stopped := false }) s)) ∧
    (¬may ∨ barred → idle (.timeSyncSend t)) ∧
    (∀ src seq, canTakes s.chip = true → src ≠ ownAddr s.chip → ∃ u, exec (.timeSync t src seq) s = .next u ∧
      u.chip.caravan.stamps = v.stamps.filter (·.1 != src) ++ [(src, seq, now, caravanAt s.chip.ret now)] ∧
      u.chip.caravan.heard = v.heard.filter (·.1 != src) ++ [(src, now)] ∧
      u.chip.can = { goodReceive s.chip.can with frameAt := now, rx := bump 65535 0 s.chip.can.rx } ∧
      (actsAsSource s.chip = true → src < ownAddr s.chip →
        u.chip.caravan.stopped = true ∧ u.chip.ret.sticky.getLsbD F.caravanTime = true) ∧
      (actsAsSource s.chip = false ∨ ownAddr s.chip < src → u.chip.caravan.stopped = v.stopped ∧ u.chip.ret = s.chip.ret) ∧
      Keeps [.ret, .jrn, .alert, .can, .caravan] s u) ∧
    (∀ src seq us_ b, canTakes s.chip = false ∨ src = ownAddr s.chip → idle (.timeSync t src seq) ∧ idle (.timeFollow t src seq us_ b)) ∧
    (∀ src seq us_ b, canTakes s.chip = true → src ≠ ownAddr s.chip →
      (∀ x ∈ v.stamps, x.1 = src → x.2.1 ≠ seq) ∨ actsAsSource s.chip = true ∨ followed here ≠ some src →
      exec (.timeFollow t src seq us_ b) s = .next (after t (fun c =>
        { c with can := { goodReceive c.can with frameAt := c.now, rx := bump 65535 0 c.can.rx } }) s)) ∧
    (∀ src seq at_ own, v.stamps.find? (fun x => x.1 == src && x.2.1 == seq) = some (src, seq, at_, own) →
      ∀ us_ b, canTakes s.chip = true → src ≠ ownAddr s.chip →
      actsAsSource s.chip = false → followed here = some src → ∃ u, exec (.timeFollow t src seq us_ b) s = .next u ∧
      let off := (us_ : Rat) - own
      u.chip.caravan.offset = off ∧ u.chip.caravan.synced = true ∧ u.chip.caravan.follow = some src ∧
      u.chip.caravan.followAt = some now ∧ u.chip.caravan.stamps = v.stamps.filter (·.1 != src) ∧
        u.chip.caravan.prev = some (at_, (us_ : Rat)) ∧
      u.chip.ret.cvSet = b ∧ u.chip.ret.cvRef = now ∧
      (1000 < absRat off → u.chip.ret.cvBase = caravanAt s.chip.ret now + off ∧ u.chip.ret.cvSlew = 0 ∧
        u.chip.ret.cvRate = s.chip.ret.cvRate) ∧
      (absRat off ≤ 1000 → u.chip.ret.cvBase = caravanAt s.chip.ret now ∧ u.chip.ret.cvSlew = off ∧
        u.chip.ret.cvRate = rateFrom (if v.follow = some src then v.prev else none) at_ (us_ : Rat) s.chip.ret.cvRate) ∧
      (v.synced = true → 1000000 < absRat off → u.chip.ret.sticky.getLsbD F.caravanTime = true) ∧
      (v.synced = false ∨ absRat off ≤ 1000000 → u.chip.ret.sticky = s.chip.ret.sticky) ∧
      Keeps [.ret, .jrn, .alert, .can, .caravan] s u) ∧
    (let lost : Prop := running s.chip = true ∧ v.synced = true ∧ ∃ t0, v.followAt = some t0 ∧ t0 + sec 10 ≤ now
     (lost → ∃ u, exec (.timeSourceLost t) s = .next u ∧ u.chip.caravan.synced = false ∧ u.chip.alert.causes.getLsbD 4 = true ∧
       u.chip.caravan.counts = bump 255 2 v.counts ∧ Keeps [.alert, .caravan] s u) ∧
     (¬lost → idle (.timeSourceLost t)))

/-- Kersor frames (R736 … R741): without symbol lock no frame is taken; a frame of a wrong length is counted as discarded; one out of
order leaves nothing but its ACK, and so does a JOIN while the pair is joined and its link up; three commas within 10 µs acquire symbol
lock, four bad symbols lose it; after 500 µs without an ACK the unacknowledged frames are sent again in their order, each with the ACK of
now, but not in a split (R765), and by singles only a JOIN (R757).

The records of a joined pair (R743 … R754, R756): SUMMARY, GUEST, PROVISIONAL, CLOSE and LEAVING enter what the gauge keeps of its
partner; the GUEST of an end read (one without a copy too, log entry 128) ends the partner's running slot of that guest; a PROVISIONAL that
is not above the last opens nothing; a RESTORE in step 7 replaces the record of its own guest, in its room or in the cellar, and any other
has no effect; the first RECORDS_END after a join ends step 7 and brings the resync, the second ends it. -/
def Obligations.KersorFramesAndPartnerRecords : Prop :=
  (∀ (s : State) (t : Time) (f : KersorFrame), s.chip.spi = [] →
     let same : Outcome := .next (after t (fun c => c) s)
     let bad : Outcome := .next (after t (fun c =>
       { c with pair := { c.pair with errs := (satInc 65535 c.pair.errs.1, c.pair.errs.2) } }) s)
     (∀ x ∈ ([(36, .summary t), (64, .guestRecord t), (12, .provisional t), (8, .close t), (4, .leaving t), (64, .restore t),
         (4, .recordsEnd t), (56, .join t), (16, .heartbeat t)] : List (Nat × (KersorFrame → Instr))),
       (kTakes s.chip = false → exec (x.2 f) s = same) ∧
       (kTakes s.chip = true → f.payload.length ≠ x.1 → exec (x.2 f) s = bad)) ∧
     (kTakes s.chip = true → f.payload.length = 4 → f.seq ≠ (s.chip.pair.rxSeq + 1) % 256 →
       exec (.leaving t f) s = .next (after t (kAck f.ack) s)) ∧
     (∀ x ∈ ([(36, .summary t), (64, .guestRecord t), (12, .provisional t), (8, .close t), (64, .restore t),
         (4, .recordsEnd t)] : List (Nat × (KersorFrame → Instr))),
       kTakes s.chip = true → f.payload.length = x.1 →
       (f.seq ≠ (s.chip.pair.rxSeq + 1) % 256 → exec (x.2 f) s = .next (after t (kAck f.ack) s)) ∧
       (f.seq = (s.chip.pair.rxSeq + 1) % 256 → s.chip.pair.st ≠ .joined → exec (x.2 f) s =
         .next (after t (fun c => let a := kAck f.ack c; { a with pair := { a.pair with rxSeq := f.seq } }) s))) ∧
     (kTakes s.chip = true → f.payload.length = 56 → s.chip.pair.st = .joined → s.chip.pair.linkLost = false →
       f.seq ≠ (s.chip.pair.rxSeq + 1) % 256 → exec (.join t f) s = .next (after t (kAck f.ack) s)) ∧
     (exec (.kersorFrameDiscarded t) s = if kTakes s.chip then bad else same) ∧
     (∀ n w, linkRuns s.chip = true → 3 ≤ n → w ≤ us 10 →
       exec (.kersorLockAcquired t n w) s = .next (after t (fun c => { c with pair := { c.pair with lock := true } }) s)) ∧
     (∀ n w, linkRuns s.chip = false ∨ n < 3 ∨ us 10 < w → exec (.kersorLockAcquired t n w) s = same) ∧
     (∀ n, 4 ≤ n → exec (.kersorLockLost t n) s =
       .next (after t (fun c => { c with pair := { c.pair with lock := false, hbRun := 0 } }) s)) ∧
     (∀ n, n < 4 → exec (.kersorLockLost t n) s = same) ∧
     let again (x : KTx) : Bool := s.chip.pair.st != .singles || x.rcd.type == 2
     let fs := s.chip.pair.unacked.filter again
     (∀ g gs, linkRuns s.chip = true → s.chip.pair.split = false → fs = g :: gs →
       us 500 ≤ max s.chip.now t - g.sentAt → ∃ u, exec (.kersorRetransmit t) s = .next u ∧
       u.chip.pair.unacked = s.chip.pair.unacked.map (fun x => if again x then { x with
         sentAt := max s.chip.now t, frame := linkFrame x.rcd.type x.seq s.chip.pair.rxSeq x.rcd.payload } else x) ∧
       u.chip.pair.errs = (s.chip.pair.errs.1, min 65535 (s.chip.pair.errs.2 + fs.length)) ∧ Keeps [.pair] s u) ∧
     (linkRuns s.chip = false ∨ s.chip.pair.split = true ∨ fs = [] ∨
         (∃ g gs, fs = g :: gs ∧ max s.chip.now t - g.sentAt < us 500) →
       exec (.kersorRetransmit t) s = same)) ∧
  (∀ (s : State) (t : Time) (f : KersorFrame), s.chip.spi = [] → kTakes s.chip = true → s.chip.pair.st = .joined →
     f.seq = (s.chip.pair.rxSeq + 1) % 256 →
     let p := f.payload
     let pr := (kAck f.ack (tick t s.chip)).pair
     let becomes (i : Instr) (x : Machine.Pair) : Prop :=
       exec i s = .next (after t (fun c => { c with pair := { x with rxSeq := f.seq } }) s)
     let endRead : Bool := (pr.copies.find? (·.1 == u16At p 0)).elim true fun x => endReadRecord x.2 p
     let above : Prop := pr.them.epoch = none ∨ ∃ h, pr.them.epoch = some h ∧ serialAbove (u32At p 0) h = true
     let own (g : Guest) : Prop := inStep7 s.chip = true ∧ g.own = true ∧ slice p 0 24 = guestBody g.cfg
     let restored (u : State) : Prop := u.chip.pair.restored = true ∧
       u.chip.pair.restoredN = satInc 2047 pr.restoredN ∧ u.chip.pair.rxSeq = f.seq
     (p.length = 64 → becomes (.guestRecord t f) { pr with
       copies := (pr.copies.filter fun x => x.1 != u16At p 0) ++ [(u16At p 0, p)]
       them := { pr.them with epochs := pr.them.epochs.filter fun e => !(endRead && e.2.1 == u16At p 0 && e.2.2) } }) ∧
     (p.length = 12 → above → becomes (.provisional t f) { pr with them := { pr.them with
         epoch := some (u32At p 0), epochs := pr.them.epochs ++ [(u32At p 0, u16At p 4 % 1024, false)] } }) ∧
     (p.length = 12 → ¬above → becomes (.provisional t f) pr) ∧
     (p.length = 8 → u8At p 4 ≠ 0 → becomes (.close t f) { pr with them := { pr.them with
       epochs := pr.them.epochs.filter fun x => x.1 != u32At p 0 } }) ∧
     (p.length = 8 → u8At p 4 = 0 → becomes (.close t f) { pr with them := { pr.them with
       epochs := pr.them.epochs.map fun x => if x.1 == u32At p 0 then (x.1, x.2.1, true) else x } }) ∧
     (p.length = 4 → s.chip.pair.linkLost = false → becomes (.leaving t f) { pr with leaving := true }) ∧
     (p.length = 36 → ∃ u, exec (.summary t f) s = .next u ∧ u.chip.pair.them.soc = u16At p 0 % 2 ^ 14 ∧
       u.chip.pair.them.temps = (i16At p 4, i16At p 6) ∧ u.chip.pair.them.eAvail = leNat (slice p 10 6) ∧
       u.chip.pair.them.tte = u32At p 22 ∧ u.chip.pair.them.qFcc = u32At p 26 ∧
       u.chip.pair.them.sumAt = some (max s.chip.now t) ∧ u.chip.pair.rxSeq = f.seq ∧
       ((p.getD 8 0).getLsbD 1 = true → u.chip.tmp.partnerAt = none ∧ u.chip.tmp.partner = s.chip.tmp.partner) ∧
       ((p.getD 8 0).getLsbD 1 = false → u.chip.tmp.partner = i16At p 6 ∧ u.chip.tmp.partnerAt = some (max s.chip.now t)) ∧
       Keeps [.ret, .jrn, .tmp, .pack, .chg, .alert, .spurs, .gauge, .inn, .can, .pair] s u) ∧
     (∀ g, guestByIndex s.chip (u16At p 0) = some g → ∀ rm, roomOf s.chip g.pos = some rm → p.length = 64 → own g →
       ∃ u, exec (.restore t f) s = .next u ∧ restored u ∧
       roomOf u.chip g.pos = some { rm with rcd := decodeRec p, dirty := true } ∧ Keeps [.inn, .pair] s u) ∧
     (∀ g, guestByIndex s.chip (u16At p 0) = some g → p.length = 64 → own g → roomOf s.chip g.pos = none →
       ∃ u, exec (.restore t f) s = .next u ∧ restored u ∧ Keeps [.nvm, .pair] s u ∧
       u.nvm = (if s.chip.inn.persist then s.nvm.apply [(cellarAt s.chip g.pos,
         encodeRec { decodeRec p with writeSeq := ((decodeRec p).writeSeq + 1) % 2 ^ 32 })] else s.nvm)) ∧
     (p.length = 64 → (¬∃ g, guestByIndex s.chip (u16At p 0) = some g ∧ own g) → becomes (.restore t f) pr) ∧
     (p.length = 4 → s.chip.pair.resync = true → becomes (.recordsEnd t f) { pr with resync := false, fresh := true }) ∧
     (p.length = 4 → s.chip.pair.resync = false → s.chip.pair.gotEnd = false → s.chip.pair.sentEnd = false →
       becomes (.recordsEnd t f) { pr with gotEnd := true, done7 := pr.done7 || inStep7 s.chip }) ∧
     (p.length = 4 → s.chip.pair.resync = false → s.chip.pair.gotEnd = false → s.chip.pair.sentEnd = true → ∃ u,
       exec (.recordsEnd t f) s = .next u ∧ u.chip.pair.gotEnd = true ∧ u.chip.pair.resync = true ∧
       u.chip.pair.done7 = (s.chip.pair.done7 || inStep7 s.chip) ∧ u.chip.pair.rxSeq = f.seq ∧ Keeps [.pair] s u) ∧
     (p.length = 4 → s.chip.pair.resync = false → s.chip.pair.gotEnd = true → becomes (.recordsEnd t f) pr))

/-- Joining and losing the link (R749 … R752, R755, R757 … R760, R764, R767): step 7 sends a JOIN every 1 ms and gives up after 60 ms with
F.PAIR_LINK; a JOIN of the other role with the same image joins the pair, one with another image makes it two singles, one with the same
role is a conflict, after which no JOIN joins; a joined pair and singles that stay so keep their state; a running gauge answers each with
a JOIN of STATE 1, but singles that stay so do not (log entry 59). A HEARTBEAT is noted; eight in a row bring a lost link back; 2.2 ms
without one, or one that tells the partner's loss, lose it, and a probe starts unless the partner was leaving or CONFIGURE runs; LEAVING
holds in whatever state the link is, and one that comes within a heartbeat period of the loss outranks the probe. -/
def Obligations.PairsJoinAndLoseTheirLink : Prop :=
  ∀ (s : State) (t : Time) (f : KersorFrame), s.chip.spi = [] →
    let p := f.payload
    let x := s.chip.pair
    let now := max s.chip.now t
    let flags : BitVec 8 := p.getD 1 0
    let service : Prop := (x.st = .joined ∨ x.st = .singles ∨ (x.st = .lost ∧ workingMode s.chip.seq.mode = true)) ∧ x.linkLost = false
    let lost (leaving : Bool) (u : State) : Prop := u.chip.pair.linkLost = true ∧ u.chip.pair.hbRun = 0 ∧
      u.chip.pair.st = (if x.st = .singles then .singles else .lost) ∧
      (leaving = false → u.chip.ret.sticky.getLsbD F.pairLink = true ∧ u.chip.pair.standIn = x.standIn ∧
        (s.chip.seq.mode ≠ .configure → u.chip.pair.drive = some s.chip.share.vD ∧
          u.chip.pair.probe = some { start := now, first := none, second := none }) ∧
        (s.chip.seq.mode = .configure → u.chip.pair.probe = x.probe)) ∧
      (leaving = true → u.chip.pair.standIn = true ∧ u.chip.pair.split = false ∧ u.chip.ret = s.chip.ret) ∧
      (s.chip.seq.mode = .configure → u.chip.pair.done7 = true) ∧ Keeps [.ret, .jrn, .alert, .caravan, .pair] s u
    let due : Prop := linkRuns s.chip = true ∧ service ∧ ∃ t0, x.hbAt = some t0 ∧ t0 + us 2200 ≤ now
    let joining : Prop := inStep7 s.chip = true ∧ x.joinedIn7 = false ∧ x.done7 = false
    let sends : Prop := joining ∧ now < s.chip.seq.stepStart + ms 60 ∧ ∀ t0, x.joinAt = some t0 → t0 + ms 1 ≤ now
    (kTakes s.chip = true → p.length = 16 →
      let told : Prop := service ∧ flags.getLsbD 5 = true
      let back : Prop := x.linkLost = true ∧ workingMode s.chip.seq.mode = true ∧ 7 ≤ x.hbRun ∧
        ∃ t0, x.hbAt = some t0 ∧ now ≤ t0 + us 275
      ∃ u, exec (.heartbeat t f) s = .next u ∧ u.chip.pair.hbAt = some now ∧ u.chip.pair.them.mode = u8At p 0 % 8 ∧
        u.chip.pair.them.flags = flags ∧ u.chip.pair.them.packSt = u8At p 2 % 16 ∧ u.chip.pair.rxSeq = x.rxSeq ∧
        (told → lost (x.leaving && flags.getLsbD 0) u) ∧
        (back → u.chip.pair.linkLost = false ∧ u.chip.pair.split = false ∧ u.chip.pair.leaving = (x.leaving && flags.getLsbD 0) ∧
          u.chip.pair.standIn = (x.standIn && x.absents != 2) ∧
          (x.conflict = false → (∃ k ∈ u.chip.pair.unacked, k.rcd.type = 2) ∨ ∃ r ∈ u.chip.pair.waiting, r.type = 2)) ∧
        (¬back → ¬told → u.chip.pair.linkLost = x.linkLost ∧ u.chip.pair.standIn = x.standIn ∧
          u.chip.pair.leaving = (x.leaving && flags.getLsbD 0)) ∧
        (¬told → u.chip.pair.st = x.st ∧ Keeps [.pair] s u)) ∧
    (kTakes s.chip = true → p.length = 56 → (x.st = .joined → x.linkLost = false → f.seq = (x.rxSeq + 1) % 256) →
      let same : Prop := slice p 24 32 = slice s.chip.img.pairDigest 0 32
      let stays : Prop := x.linkLost = false ∧ (x.st = .joined ∨ (x.st = .singles ∧ (x.conflict = true ∨ ¬same)))
      let other : Prop := ¬stays ∧ u8At p 16 ≠ roleCode s.chip ∧ x.conflict = false
      let answer (r : KRec) : Prop := r.type = 2 ∧ r.payload = joinBytes 1 s.chip
      ∃ u, exec (.join t f) s = .next u ∧ u.chip.pair.rxSeq = f.seq ∧ u.chip.pair.leaving = false ∧ u.chip.pair.them.epoch = none ∧
        (workingMode s.chip.seq.mode = true → (stays → x.st = .joined) →
          (∃ k ∈ u.chip.pair.unacked, answer k.rcd) ∨ ∃ r ∈ u.chip.pair.waiting, answer r) ∧
        (stays → u.chip.pair.st = x.st ∧ u.chip.pair.them = { x.them with epoch := none } ∧ Keeps [.pair] s u) ∧
        (¬stays → u.chip.pair.them.uid = slice p 0 16 ∧ u.chip.img.partnerDigest = slice p 24 32) ∧
        (¬stays → u8At p 16 = roleCode s.chip → u.chip.pair.conflict = true ∧ u.chip.pair.st = .singles ∧
          u.chip.ret.sticky.getLsbD F.pairRole = true ∧
          u.chip.inn.on = (s.chip.inn.on && decide (leNat Config.uid ≤ leNat (slice p 0 16))) ∧
          Keeps [.ret, .img, .jrn, .aux, .alert, .spurs, .inn, .can, .pair] s u) ∧
        (¬stays → u8At p 16 ≠ roleCode s.chip → x.conflict = true → u.chip.pair.st = x.st ∧ u.chip.pair.conflict = true ∧
          Keeps [.img, .pair] s u) ∧
        (other → ¬same → u.chip.pair.st = .singles ∧ u.chip.pair.copies = [] ∧
          u.chip.ret.sticky.getLsbD F.pairImageMismatch = true ∧ Keeps [.ret, .img, .jrn, .alert, .inn, .pair] s u) ∧
        (other → same → u.chip.pair.st = .joined ∧ u.chip.pair.linkLost = false ∧
          u.chip.pair.joinedIn7 = true ∧ u.chip.pair.standIn = false ∧ u.chip.pair.split = false ∧
          u.chip.pair.sentEnd = true ∧ Keeps [.img, .inn, .pair] s u)) ∧
    (sends → ∃ u, exec (.pairJoinSend t) s = .next u ∧ u.chip.pair.joinAt = some now ∧
      (linkRuns s.chip = true → x.unacked.length < 64 → x.waiting = [] → ∃ k, u.chip.pair.unacked = x.unacked ++ [k] ∧ k.rcd.type = 2 ∧
        k.rcd.payload = joinBytes 0 s.chip ∧ k.seq = (x.txSeq + 1) % 256 ∧
        k.frame = linkFrame 2 k.seq x.rxSeq (joinBytes 0 s.chip)) ∧ Keeps [.pair] s u) ∧
    (¬sends → exec (.pairJoinSend t) s = .next (after t (fun c => c) s)) ∧
    (joining → s.chip.seq.stepStart + ms 60 ≤ now → ∃ u,
      exec (.pairJoinTimeout t) s = .next u ∧ u.chip.pair.done7 = true ∧ u.chip.pair.linkLost = true ∧ u.chip.pair.st = .lost ∧
      u.chip.ret.sticky.getLsbD F.pairLink = true ∧ u.chip.seq = { s.chip.seq with notes := s.chip.seq.notes ||| 16 } ∧
      Keeps [.seq, .ret, .jrn, .alert, .pair] s u) ∧
    (¬joining ∨ now < s.chip.seq.stepStart + ms 60 → exec (.pairJoinTimeout t) s = .next (after t (fun c => c) s)) ∧
    (due → ∃ u, exec (.pairLinkLost t) s = .next u ∧ lost x.leaving u) ∧
    (¬due → exec (.pairLinkLost t) s = .next (after t (fun c => c) s)) ∧
    (kTakes s.chip = true → p.length = 4 → f.seq = (x.rxSeq + 1) % 256 →
      let outranks : Prop := x.linkLost = true ∧ x.split = false ∧ ∃ k, x.probe = some k ∧ now ≤ k.start + us 275
      (outranks → ∃ u, exec (.leaving t f) s = .next u ∧ u.chip.pair.leaving = true ∧ u.chip.pair.standIn = true ∧
        u.chip.pair.probe = none ∧ u.chip.pair.drive = none ∧ u.chip.pair.rxSeq = f.seq ∧ Keeps [.caravan, .pair] s u) ∧
      (¬outranks → exec (.leaving t f) s = .next (after t (fun c =>
        let a := kAck f.ack c
        { a with pair := { a.pair with leaving := true, rxSeq := f.seq } }) s)))

/-- The SHARE probe (R760 … R764, R775, Table 15.6): SHARE is held, driven to 0.2 V and to 2.2 V with its readings, codes of its 10-bit
sense; at 2.0 ms their difference gives the verdict, which a link that is up again discards: ABSENT sets its bit and stands in at once,
while split only the second time; any other verdict splits the pair with its bit; while split the probe is repeated after 1 s to 1.1 s. -/
def Obligations.ShareProbesDecideStandInOrSplit : Prop :=
  ∀ (s : State) (t : Time), s.chip.spi = [] →
    let x := s.chip.pair
    let now := max s.chip.now t
    let repeats : Prop := x.split = true ∧ x.probe = none ∧ linkRuns s.chip = true ∧ ∃ t0, x.nextProbe = some t0 ∧ t0 ≤ now
    (∀ p (code : Nat), x.probe = some p →
      let due (k : Nat) : Prop := p.start + probeWindow s.chip + us (300 * k) ≤ now
      (due 0 → exec (.pairProbePhase t 0 code) s =
        .next (after t (fun c => { c with pair := { c.pair with drive := some 200 } }) s)) ∧
      (due 1 → exec (.pairProbePhase t 1 code) s = .next (after t (fun c =>
        { c with pair := { c.pair with drive := some 2200, probe := some { p with first := some code } } }) s)) ∧
      (due 2 → exec (.pairProbePhase t 2 code) s = .next (after t (fun c =>
        { c with pair := { c.pair with drive := some c.share.vD, probe := some { p with second := some code } } }) s)) ∧
      (∀ k, ¬due k ∨ 2 < k → exec (.pairProbePhase t k code) s = .next (after t (fun c => c) s)) ∧
      (now < p.start + ms 2 → exec (.pairProbeDecision t) s = .next (after t (fun c => c) s))) ∧
    (∀ k code, x.probe = none → exec (.pairProbePhase t k code) s = .next (after t (fun c => c) s) ∧
      exec (.pairProbeDecision t) s = .next (after t (fun c => c) s)) ∧
    (∀ p, x.probe = some p → p.start + ms 2 ≤ now →
      let mv (code : Nat) : Rat := (code : Rat) * 2500 / 1024
      let d : Option Rat := p.first.bind fun a => p.second.map fun b => mv b - mv a
      let delta : Int := d.elim x.delta roundRat
      let soon (u : State) : Prop := ∃ next, u.chip.pair.nextProbe = some next ∧ p.start + sec 1 ≤ next ∧ next ≤ p.start + ms 1100
      (x.linkLost = false → exec (.pairProbeDecision t) s = .next (after t (fun c =>
        { c with pair := { c.pair with probe := none, drive := none, delta := delta } }) s)) ∧
      (x.linkLost = true → ∃ u, exec (.pairProbeDecision t) s = .next u ∧ u.chip.pair.probe = none ∧ u.chip.pair.drive = none ∧
        u.chip.pair.delta = delta ∧ u.chip.pair.verdict = probeVerdict (faultSet s.chip F.shareFault) d ∧
        (u.chip.pair.verdict = 1 → u.chip.ret.sticky.getLsbD F.pairPartnerLost = true) ∧
        (u.chip.pair.verdict = 1 → x.split = false ∨ x.absents ≠ 0 → u.chip.pair.standIn = true ∧ u.chip.pair.split = false) ∧
        (u.chip.pair.verdict = 1 → x.split = true → x.absents = 0 → u.chip.pair.split = true ∧ u.chip.pair.absents = 1 ∧
          u.chip.pair.standIn = x.standIn ∧ soon u) ∧
        (u.chip.pair.verdict ≠ 1 → u.chip.pair.split = true ∧ u.chip.pair.absents = 0 ∧ u.chip.pair.standIn = x.standIn ∧
          u.chip.ret.sticky.getLsbD (if u.chip.pair.verdict = 2 then F.pairSplit else F.pairProbe) = true ∧ soon u) ∧
        Keeps [.ret, .jrn, .alert, .free, .caravan, .pair] s u)) ∧
    (∀ bad d, probeVerdict bad (some d) = if bad then 3 else if 1700 ≤ d ∧ d ≤ 2500 then 1 else if 700 ≤ d ∧ d ≤ 1300 then 2 else 3) ∧
    (∀ bad, probeVerdict bad none = 3) ∧
    (repeats → ∃ u, exec (.pairSplitProbeRepeat t) s = .next u ∧ u.chip.pair.nextProbe = none ∧
      u.chip.pair.drive = some s.chip.share.vD ∧ u.chip.pair.probe = some { start := now, first := none, second := none } ∧
      u.chip.pair.probes = satInc 255 x.probes ∧ Keeps [.pair] s u) ∧
    (¬repeats → exec (.pairSplitProbeRepeat t) s = .next (after t (fun c => c) s))

/-- One detection of a fault (R785, R786): its event count rises, whether or not the bit was set; a bit that was clear is set, latches
alert cause 0, becomes the first bit if no bit was set and the last in any case; every other bit keeps its value. -/
def Obligations.DetectionsSetTheirBit : Prop :=
  ∀ (c : Chip) (b : Nat), b < 159 →
    let e := setFault b c
    e.ret.sticky.getLsbD b = true ∧ (∀ k, k ≠ b → e.ret.sticky.getLsbD k = c.ret.sticky.getLsbD k) ∧
    e.jrn.events = updAt c.jrn.events b (satInc 255) ∧ (faultSet e b = true) ∧
    (c.ret.sticky.getLsbD b = true → e.ret = c.ret ∧ e.alert = c.alert) ∧
    (c.ret.sticky.getLsbD b = false → e.alert.causes.getLsbD 0 = true ∧ e.ret.last.map (·.1) = some b ∧
      (c.ret.sticky = 0 → e.ret.first.map (·.1) = some b) ∧ (c.ret.sticky ≠ 0 → e.ret.first = c.ret.first)) ∧
    e.seq = c.seq ∧ e.spurs = c.spurs ∧ e.feedA = c.feedA ∧ e.feedB = c.feedB ∧ e.pack = c.pack ∧ e.spi = c.spi

/-- Cleared bits whose fault's state still holds are set again, and at no other time (R790 … R792, R811): an owner clears bits of
class O only, the depot in DEPOT and LIMP every bit, a guest none; a bit that is detected at the instant of the clear ends set. -/
def Obligations.ClearedBitsReturnWhileTheirStateHolds : Prop :=
  (∀ (role : Role) (mask : BitVec 160) (c : Chip),
    let e := clearSticky role mask c
    let gone := mask &&& clearable role c.seq.mode &&& ~~~ detectedNow c
    let rest := c.ret.sticky &&& ~~~ gone
    (e.ret.sticky = rest ∨ (seqSpent c = true ∧ e.ret.sticky = rest ||| (1#160 <<< F.nvmWrite))) ∧
    (e.ret.sticky ≠ c.ret.sticky → e.jrn.cleared = c.jrn.cleared ||| (c.ret.sticky &&& gone &&& heldBits c)) ∧
    (∀ b, b < 159 → (clearSticky role mask (setFault b c)).ret.sticky.getLsbD b = true)) ∧
  (∀ m, clearable .owner m = ~~~ classDMask ∧ clearable .guest m = 0 ∧
    (m = .depot ∨ m = .limp → clearable .depot m = ~~~ (0 : BitVec 160))) ∧
  ∀ (s : State) (t : Time), s.chip.spi = [] →
    (running s.chip = true → s.chip.jrn.cleared ≠ 0 → ∃ u, exec (.stickyReassert t) s = .next u ∧
      u.chip.ret.sticky = s.chip.ret.sticky ||| s.chip.jrn.cleared ∧ u.chip.jrn.cleared = 0 ∧
      u.chip.jrn.events = s.chip.jrn.events ∧ Keeps [.ret, .jrn] s u) ∧
    (running s.chip = false ∨ s.chip.jrn.cleared = 0 → exec (.stickyReassert t) s = .next (after t (fun c => c) s))

/-- A guest's record of 64 bytes reads back as it was written, and is valid for its contract (R627, R629). -/
def Obligations.GuestRecordsReadBack : Prop :=
  ∀ (g : GuestCfg) (r : GuestRec), r.contract = guestBody g → r.tab < 2 ^ 48 → r.metered < 2 ^ 48 → r.oasis < 2 ^ 32 →
    r.grants < 2 ^ 32 → r.withheld < 2 ^ 16 → r.refunded < 2 ^ 16 → r.next < 2 ^ 32 → r.reason < 2 ^ 8 → r.writeSeq < 2 ^ 32 →
    (encodeRec r).length = 64 ∧ decodeRec (encodeRec r) = r ∧ recValid (encodeRec r) g = true

/-- NVM (R77): bytes that were written read back, and every other byte reads as before; the contents keep their canonical form. -/
def Obligations.NvmReadsWhatWasWritten : Prop :=
  ∀ (m : Nvm) (a : Nat) (bs : List Byte), Nvm.wf m = true →
    (m.writeBytes a bs).readBytes a bs.length = bs ∧
    (∀ k, k < a ∨ a + bs.length ≤ k → (m.writeBytes a bs).read k = m.read k) ∧ Nvm.wf (m.writeBytes a bs) = true

end
end

