-- ==== Sys2Proof/Laws/CheckSums.lean ====
section
/-! SUPPORT. The CRC-16 as the fold that R548 describes, and the answers of a tag that carry a right one. -/

namespace Sys2Proof.Machine

@[simp] theorem crc16From_nil (r : BitVec 16) : crc16From r [] = r := rfl

@[simp] theorem crc16From_cons (r : BitVec 16) (b : Byte) (bs : List Byte) :
    crc16From r (b :: bs) = crc16From (crc16Step r b) bs := by
  show (if r = 0 then crc16From (crc16Step 0 b) bs else crc16From (crc16Step r b) bs) = _
  split
  · next h => rw [h]
  · rfl

theorem crc16From_eq_foldl (r : BitVec 16) (bs : List Byte) : crc16From r bs = bs.foldl crc16Step r := by
  induction bs generalizing r with
  | nil => rfl
  | cons b bs ih => simp [ih]

@[simp] theorem leBytes_length (n v : Nat) : (leBytes n v).length = n := by
  induction n generalizing v with
  | zero => rfl
  | succ n ih => simp [leBytes, ih]

/-- What a tag sends before a right CRC-16 is its answer (R547). -/
theorem answerBody_of_crc (cmd : TagCmd) (bs : List Byte) : answerBody cmd (bs ++ u16B (crc16 (cmd.code :: bs))) = some bs := by
  simp [answerBody, u16B]

end Sys2Proof.Machine
end

