-- ==== Sys2Proof/Laws/Frames.lean ====
section
/-! SUPPORT. The frames of the shared operations: which parts of the gauge each leaves as they are. The ones that many
meanings call are rewriting rules; the others say that the gauge changes in the parts named, and in no other. -/

namespace Sys2Proof.Machine

@[simp] theorem setFeed_frame (c : Chip) (f : FeedId) (x : Feed) :
    (setFeed c f x).now = c.now ∧ (setFeed c f x).vTop = c.vTop ∧ (setFeed c f x).atReset = c.atReset ∧ (setFeed c f x).seq =
    c.seq ∧ (setFeed c f x).ret = c.ret ∧ (setFeed c f x).otp = c.otp ∧ (setFeed c f x).img = c.img ∧ (setFeed c f x).jrn =
    c.jrn ∧ (setFeed c f x).meas = c.meas ∧ (setFeed c f x).cal = c.cal ∧ (setFeed c f x).aux = c.aux ∧ (setFeed c f x).clk =
    c.clk ∧ (setFeed c f x).tmp = c.tmp ∧ (setFeed c f x).prs = c.prs ∧ (setFeed c f x).rail = c.rail ∧ (setFeed c f x).pack =
    c.pack ∧ (setFeed c f x).chg = c.chg ∧ (setFeed c f x).share = c.share ∧ (setFeed c f x).alert = c.alert ∧ (setFeed c f
    x).free = c.free ∧ (setFeed c f x).spurs = c.spurs ∧ (setFeed c f x).totals = c.totals ∧ (setFeed c f x).gauge = c.gauge ∧
    (setFeed c f x).learn = c.learn ∧ (setFeed c f x).tag = c.tag ∧ (setFeed c f x).inn = c.inn ∧ (setFeed c f x).smb = c.smb
    ∧ (setFeed c f x).can = c.can ∧ (setFeed c f x).host = c.host ∧ (setFeed c f x).caravan = c.caravan ∧ (setFeed c f x).pair
    = c.pair ∧ (setFeed c f x).pins = c.pins ∧ (setFeed c f x).spi = c.spi := by
  cases f <;> simp [setFeed]

@[simp] theorem updFeed_frame (f : FeedId) (u : Feed → Feed) (c : Chip) :
    (updFeed f u c).now = c.now ∧ (updFeed f u c).vTop = c.vTop ∧ (updFeed f u c).atReset = c.atReset ∧ (updFeed f u c).seq =
    c.seq ∧ (updFeed f u c).ret = c.ret ∧ (updFeed f u c).otp = c.otp ∧ (updFeed f u c).img = c.img ∧ (updFeed f u c).jrn =
    c.jrn ∧ (updFeed f u c).meas = c.meas ∧ (updFeed f u c).cal = c.cal ∧ (updFeed f u c).aux = c.aux ∧ (updFeed f u c).clk =
    c.clk ∧ (updFeed f u c).tmp = c.tmp ∧ (updFeed f u c).prs = c.prs ∧ (updFeed f u c).rail = c.rail ∧ (updFeed f u c).pack =
    c.pack ∧ (updFeed f u c).chg = c.chg ∧ (updFeed f u c).share = c.share ∧ (updFeed f u c).alert = c.alert ∧ (updFeed f u
    c).free = c.free ∧ (updFeed f u c).spurs = c.spurs ∧ (updFeed f u c).totals = c.totals ∧ (updFeed f u c).gauge = c.gauge ∧
    (updFeed f u c).learn = c.learn ∧ (updFeed f u c).tag = c.tag ∧ (updFeed f u c).inn = c.inn ∧ (updFeed f u c).smb = c.smb
    ∧ (updFeed f u c).can = c.can ∧ (updFeed f u c).host = c.host ∧ (updFeed f u c).caravan = c.caravan ∧ (updFeed f u c).pair
    = c.pair ∧ (updFeed f u c).pins = c.pins ∧ (updFeed f u c).spi = c.spi := by
  simp [updFeed]

@[simp] theorem setChan_frame (c : Chip) (ch : ChId) (x : ModCh) :
    (setChan c ch x).now = c.now ∧ (setChan c ch x).vTop = c.vTop ∧ (setChan c ch x).atReset = c.atReset ∧ (setChan c ch
    x).seq = c.seq ∧ (setChan c ch x).ret = c.ret ∧ (setChan c ch x).otp = c.otp ∧ (setChan c ch x).img = c.img ∧ (setChan c
    ch x).jrn = c.jrn ∧ (setChan c ch x).cal = c.cal ∧ (setChan c ch x).aux = c.aux ∧ (setChan c ch x).clk = c.clk ∧ (setChan
    c ch x).tmp = c.tmp ∧ (setChan c ch x).prs = c.prs ∧ (setChan c ch x).feedA = c.feedA ∧ (setChan c ch x).feedB = c.feedB ∧
    (setChan c ch x).rail = c.rail ∧ (setChan c ch x).pack = c.pack ∧ (setChan c ch x).chg = c.chg ∧ (setChan c ch x).share =
    c.share ∧ (setChan c ch x).alert = c.alert ∧ (setChan c ch x).free = c.free ∧ (setChan c ch x).spurs = c.spurs ∧ (setChan
    c ch x).totals = c.totals ∧ (setChan c ch x).gauge = c.gauge ∧ (setChan c ch x).learn = c.learn ∧ (setChan c ch x).tag =
    c.tag ∧ (setChan c ch x).inn = c.inn ∧ (setChan c ch x).smb = c.smb ∧ (setChan c ch x).can = c.can ∧ (setChan c ch x).host
    = c.host ∧ (setChan c ch x).caravan = c.caravan ∧ (setChan c ch x).pair = c.pair ∧ (setChan c ch x).pins = c.pins ∧
    (setChan c ch x).spi = c.spi := by
  cases ch <;> simp [setChan]

@[simp] theorem updChan_frame (ch : ChId) (u : ModCh → ModCh) (c : Chip) :
    (updChan ch u c).now = c.now ∧ (updChan ch u c).vTop = c.vTop ∧ (updChan ch u c).atReset = c.atReset ∧ (updChan ch u
    c).seq = c.seq ∧ (updChan ch u c).ret = c.ret ∧ (updChan ch u c).otp = c.otp ∧ (updChan ch u c).img = c.img ∧ (updChan ch
    u c).jrn = c.jrn ∧ (updChan ch u c).cal = c.cal ∧ (updChan ch u c).aux = c.aux ∧ (updChan ch u c).clk = c.clk ∧ (updChan
    ch u c).tmp = c.tmp ∧ (updChan ch u c).prs = c.prs ∧ (updChan ch u c).feedA = c.feedA ∧ (updChan ch u c).feedB = c.feedB ∧
    (updChan ch u c).rail = c.rail ∧ (updChan ch u c).pack = c.pack ∧ (updChan ch u c).chg = c.chg ∧ (updChan ch u c).share =
    c.share ∧ (updChan ch u c).alert = c.alert ∧ (updChan ch u c).free = c.free ∧ (updChan ch u c).spurs = c.spurs ∧ (updChan
    ch u c).totals = c.totals ∧ (updChan ch u c).gauge = c.gauge ∧ (updChan ch u c).learn = c.learn ∧ (updChan ch u c).tag =
    c.tag ∧ (updChan ch u c).inn = c.inn ∧ (updChan ch u c).smb = c.smb ∧ (updChan ch u c).can = c.can ∧ (updChan ch u c).host
    = c.host ∧ (updChan ch u c).caravan = c.caravan ∧ (updChan ch u c).pair = c.pair ∧ (updChan ch u c).pins = c.pins ∧
    (updChan ch u c).spi = c.spi := by
  simp [updChan]

@[simp] theorem latchAlert_frame (i : Nat) (c : Chip) :
    (latchAlert i c).now = c.now ∧ (latchAlert i c).vTop = c.vTop ∧ (latchAlert i c).atReset = c.atReset ∧ (latchAlert i
    c).seq = c.seq ∧ (latchAlert i c).ret = c.ret ∧ (latchAlert i c).otp = c.otp ∧ (latchAlert i c).img = c.img ∧ (latchAlert
    i c).jrn = c.jrn ∧ (latchAlert i c).meas = c.meas ∧ (latchAlert i c).cal = c.cal ∧ (latchAlert i c).aux = c.aux ∧
    (latchAlert i c).clk = c.clk ∧ (latchAlert i c).tmp = c.tmp ∧ (latchAlert i c).prs = c.prs ∧ (latchAlert i c).feedA =
    c.feedA ∧ (latchAlert i c).feedB = c.feedB ∧ (latchAlert i c).rail = c.rail ∧ (latchAlert i c).pack = c.pack ∧ (latchAlert
    i c).chg = c.chg ∧ (latchAlert i c).share = c.share ∧ (latchAlert i c).free = c.free ∧ (latchAlert i c).spurs = c.spurs ∧
    (latchAlert i c).totals = c.totals ∧ (latchAlert i c).gauge = c.gauge ∧ (latchAlert i c).learn = c.learn ∧ (latchAlert i
    c).tag = c.tag ∧ (latchAlert i c).inn = c.inn ∧ (latchAlert i c).smb = c.smb ∧ (latchAlert i c).can = c.can ∧ (latchAlert
    i c).host = c.host ∧ (latchAlert i c).caravan = c.caravan ∧ (latchAlert i c).pair = c.pair ∧ (latchAlert i c).pins =
    c.pins ∧ (latchAlert i c).spi = c.spi := by
  unfold latchAlert; split <;> simp

@[simp] theorem setFault_frame (b : Nat) (c : Chip) :
    (setFault b c).now = c.now ∧ (setFault b c).vTop = c.vTop ∧ (setFault b c).atReset = c.atReset ∧ (setFault b c).seq =
    c.seq ∧ (setFault b c).otp = c.otp ∧ (setFault b c).img = c.img ∧ (setFault b c).meas = c.meas ∧ (setFault b c).cal =
    c.cal ∧ (setFault b c).aux = c.aux ∧ (setFault b c).clk = c.clk ∧ (setFault b c).tmp = c.tmp ∧ (setFault b c).prs = c.prs
    ∧ (setFault b c).feedA = c.feedA ∧ (setFault b c).feedB = c.feedB ∧ (setFault b c).rail = c.rail ∧ (setFault b c).pack =
    c.pack ∧ (setFault b c).chg = c.chg ∧ (setFault b c).share = c.share ∧ (setFault b c).free = c.free ∧ (setFault b c).spurs
    = c.spurs ∧ (setFault b c).totals = c.totals ∧ (setFault b c).gauge = c.gauge ∧ (setFault b c).learn = c.learn ∧ (setFault
    b c).tag = c.tag ∧ (setFault b c).inn = c.inn ∧ (setFault b c).smb = c.smb ∧ (setFault b c).can = c.can ∧ (setFault b
    c).host = c.host ∧ (setFault b c).caravan = c.caravan ∧ (setFault b c).pair = c.pair ∧ (setFault b c).pins = c.pins ∧
    (setFault b c).spi = c.spi := by
  simp only [setFault]; split <;> simp

@[simp] theorem setFaultIf_frame (p : Bool) (b : Nat) (c : Chip) :
    (setFaultIf p b c).now = c.now ∧ (setFaultIf p b c).vTop = c.vTop ∧ (setFaultIf p b c).atReset = c.atReset ∧ (setFaultIf p
    b c).seq = c.seq ∧ (setFaultIf p b c).otp = c.otp ∧ (setFaultIf p b c).img = c.img ∧ (setFaultIf p b c).meas = c.meas ∧
    (setFaultIf p b c).cal = c.cal ∧ (setFaultIf p b c).aux = c.aux ∧ (setFaultIf p b c).clk = c.clk ∧ (setFaultIf p b c).tmp
    = c.tmp ∧ (setFaultIf p b c).prs = c.prs ∧ (setFaultIf p b c).feedA = c.feedA ∧ (setFaultIf p b c).feedB = c.feedB ∧
    (setFaultIf p b c).rail = c.rail ∧ (setFaultIf p b c).pack = c.pack ∧ (setFaultIf p b c).chg = c.chg ∧ (setFaultIf p b
    c).share = c.share ∧ (setFaultIf p b c).free = c.free ∧ (setFaultIf p b c).spurs = c.spurs ∧ (setFaultIf p b c).totals =
    c.totals ∧ (setFaultIf p b c).gauge = c.gauge ∧ (setFaultIf p b c).learn = c.learn ∧ (setFaultIf p b c).tag = c.tag ∧
    (setFaultIf p b c).inn = c.inn ∧ (setFaultIf p b c).smb = c.smb ∧ (setFaultIf p b c).can = c.can ∧ (setFaultIf p b c).host
    = c.host ∧ (setFaultIf p b c).caravan = c.caravan ∧ (setFaultIf p b c).pair = c.pair ∧ (setFaultIf p b c).pins = c.pins ∧
    (setFaultIf p b c).spi = c.spi := by
  unfold setFaultIf; split <;> simp

@[simp] theorem requestCommit_frame (c : Chip) :
    (requestCommit c).now = c.now ∧ (requestCommit c).vTop = c.vTop ∧ (requestCommit c).atReset = c.atReset ∧ (requestCommit
    c).seq = c.seq ∧ (requestCommit c).otp = c.otp ∧ (requestCommit c).img = c.img ∧ (requestCommit c).meas = c.meas ∧
    (requestCommit c).cal = c.cal ∧ (requestCommit c).aux = c.aux ∧ (requestCommit c).clk = c.clk ∧ (requestCommit c).tmp =
    c.tmp ∧ (requestCommit c).prs = c.prs ∧ (requestCommit c).feedA = c.feedA ∧ (requestCommit c).feedB = c.feedB ∧
    (requestCommit c).rail = c.rail ∧ (requestCommit c).pack = c.pack ∧ (requestCommit c).chg = c.chg ∧ (requestCommit
    c).share = c.share ∧ (requestCommit c).free = c.free ∧ (requestCommit c).spurs = c.spurs ∧ (requestCommit c).totals =
    c.totals ∧ (requestCommit c).gauge = c.gauge ∧ (requestCommit c).learn = c.learn ∧ (requestCommit c).tag = c.tag ∧
    (requestCommit c).inn = c.inn ∧ (requestCommit c).smb = c.smb ∧ (requestCommit c).can = c.can ∧ (requestCommit c).host =
    c.host ∧ (requestCommit c).caravan = c.caravan ∧ (requestCommit c).pair = c.pair ∧ (requestCommit c).pins = c.pins ∧
    (requestCommit c).spi = c.spi := by
  unfold requestCommit; split <;> simp

@[simp] theorem canHand_frame (f : RuellFrame) (c : Chip) :
    (canHand f c).now = c.now ∧ (canHand f c).vTop = c.vTop ∧ (canHand f c).atReset = c.atReset ∧ (canHand f c).seq = c.seq ∧
    (canHand f c).ret = c.ret ∧ (canHand f c).otp = c.otp ∧ (canHand f c).img = c.img ∧ (canHand f c).jrn = c.jrn ∧ (canHand f
    c).meas = c.meas ∧ (canHand f c).cal = c.cal ∧ (canHand f c).aux = c.aux ∧ (canHand f c).clk = c.clk ∧ (canHand f c).tmp =
    c.tmp ∧ (canHand f c).prs = c.prs ∧ (canHand f c).feedA = c.feedA ∧ (canHand f c).feedB = c.feedB ∧ (canHand f c).rail =
    c.rail ∧ (canHand f c).pack = c.pack ∧ (canHand f c).chg = c.chg ∧ (canHand f c).share = c.share ∧ (canHand f c).alert =
    c.alert ∧ (canHand f c).free = c.free ∧ (canHand f c).spurs = c.spurs ∧ (canHand f c).totals = c.totals ∧ (canHand f
    c).gauge = c.gauge ∧ (canHand f c).learn = c.learn ∧ (canHand f c).tag = c.tag ∧ (canHand f c).inn = c.inn ∧ (canHand f
    c).smb = c.smb ∧ (canHand f c).host = c.host ∧ (canHand f c).caravan = c.caravan ∧ (canHand f c).pair = c.pair ∧ (canHand
    f c).pins = c.pins ∧ (canHand f c).spi = c.spi := by
  unfold canHand; split <;> simp

@[simp] theorem canStart_frame (c : Chip) :
    (canStart c).now = c.now ∧ (canStart c).vTop = c.vTop ∧ (canStart c).atReset = c.atReset ∧ (canStart c).seq = c.seq ∧
    (canStart c).ret = c.ret ∧ (canStart c).otp = c.otp ∧ (canStart c).img = c.img ∧ (canStart c).jrn = c.jrn ∧ (canStart
    c).meas = c.meas ∧ (canStart c).cal = c.cal ∧ (canStart c).aux = c.aux ∧ (canStart c).clk = c.clk ∧ (canStart c).tmp =
    c.tmp ∧ (canStart c).prs = c.prs ∧ (canStart c).feedA = c.feedA ∧ (canStart c).feedB = c.feedB ∧ (canStart c).rail =
    c.rail ∧ (canStart c).pack = c.pack ∧ (canStart c).chg = c.chg ∧ (canStart c).share = c.share ∧ (canStart c).alert =
    c.alert ∧ (canStart c).free = c.free ∧ (canStart c).spurs = c.spurs ∧ (canStart c).totals = c.totals ∧ (canStart c).gauge
    = c.gauge ∧ (canStart c).learn = c.learn ∧ (canStart c).tag = c.tag ∧ (canStart c).inn = c.inn ∧ (canStart c).smb = c.smb
    ∧ (canStart c).host = c.host ∧ (canStart c).caravan = c.caravan ∧ (canStart c).pair = c.pair ∧ (canStart c).pins = c.pins
    ∧ (canStart c).spi = c.spi := by
  unfold canStart; split <;> simp

@[simp] theorem countSymbols_frame (len : Nat) (c : Chip) :
    (countSymbols len c).now = c.now ∧ (countSymbols len c).vTop = c.vTop ∧ (countSymbols len c).atReset = c.atReset ∧
    (countSymbols len c).seq = c.seq ∧ (countSymbols len c).ret = c.ret ∧ (countSymbols len c).otp = c.otp ∧ (countSymbols len
    c).img = c.img ∧ (countSymbols len c).jrn = c.jrn ∧ (countSymbols len c).meas = c.meas ∧ (countSymbols len c).cal = c.cal
    ∧ (countSymbols len c).aux = c.aux ∧ (countSymbols len c).clk = c.clk ∧ (countSymbols len c).tmp = c.tmp ∧ (countSymbols
    len c).prs = c.prs ∧ (countSymbols len c).feedA = c.feedA ∧ (countSymbols len c).feedB = c.feedB ∧ (countSymbols len
    c).rail = c.rail ∧ (countSymbols len c).pack = c.pack ∧ (countSymbols len c).chg = c.chg ∧ (countSymbols len c).share =
    c.share ∧ (countSymbols len c).alert = c.alert ∧ (countSymbols len c).free = c.free ∧ (countSymbols len c).spurs = c.spurs
    ∧ (countSymbols len c).totals = c.totals ∧ (countSymbols len c).gauge = c.gauge ∧ (countSymbols len c).learn = c.learn ∧
    (countSymbols len c).tag = c.tag ∧ (countSymbols len c).inn = c.inn ∧ (countSymbols len c).smb = c.smb ∧ (countSymbols len
    c).can = c.can ∧ (countSymbols len c).host = c.host ∧ (countSymbols len c).caravan = c.caravan ∧ (countSymbols len c).pins
    = c.pins ∧ (countSymbols len c).spi = c.spi := by
  simp only [countSymbols]; (repeat' split) <;> simp only [and_self]

@[simp] theorem kSend_frame (type : Nat) (payload : List Byte) (c : Chip) :
    (kSend type payload c).now = c.now ∧ (kSend type payload c).vTop = c.vTop ∧ (kSend type payload c).atReset = c.atReset ∧
    (kSend type payload c).seq = c.seq ∧ (kSend type payload c).ret = c.ret ∧ (kSend type payload c).otp = c.otp ∧ (kSend type
    payload c).img = c.img ∧ (kSend type payload c).jrn = c.jrn ∧ (kSend type payload c).meas = c.meas ∧ (kSend type payload
    c).cal = c.cal ∧ (kSend type payload c).aux = c.aux ∧ (kSend type payload c).clk = c.clk ∧ (kSend type payload c).tmp =
    c.tmp ∧ (kSend type payload c).prs = c.prs ∧ (kSend type payload c).feedA = c.feedA ∧ (kSend type payload c).feedB =
    c.feedB ∧ (kSend type payload c).rail = c.rail ∧ (kSend type payload c).pack = c.pack ∧ (kSend type payload c).chg = c.chg
    ∧ (kSend type payload c).share = c.share ∧ (kSend type payload c).alert = c.alert ∧ (kSend type payload c).free = c.free ∧
    (kSend type payload c).spurs = c.spurs ∧ (kSend type payload c).totals = c.totals ∧ (kSend type payload c).gauge = c.gauge
    ∧ (kSend type payload c).learn = c.learn ∧ (kSend type payload c).tag = c.tag ∧ (kSend type payload c).inn = c.inn ∧
    (kSend type payload c).smb = c.smb ∧ (kSend type payload c).can = c.can ∧ (kSend type payload c).host = c.host ∧ (kSend
    type payload c).caravan = c.caravan ∧ (kSend type payload c).pins = c.pins ∧ (kSend type payload c).spi = c.spi := by
  simp only [kSend]; split
  · simp
  · split <;> simp

@[simp] theorem kMirror_frame (type : Nat) (payload : List Byte) (c : Chip) :
    (kMirror type payload c).now = c.now ∧ (kMirror type payload c).vTop = c.vTop ∧ (kMirror type payload c).atReset =
    c.atReset ∧ (kMirror type payload c).seq = c.seq ∧ (kMirror type payload c).ret = c.ret ∧ (kMirror type payload c).otp =
    c.otp ∧ (kMirror type payload c).img = c.img ∧ (kMirror type payload c).jrn = c.jrn ∧ (kMirror type payload c).meas =
    c.meas ∧ (kMirror type payload c).cal = c.cal ∧ (kMirror type payload c).aux = c.aux ∧ (kMirror type payload c).clk =
    c.clk ∧ (kMirror type payload c).tmp = c.tmp ∧ (kMirror type payload c).prs = c.prs ∧ (kMirror type payload c).feedA =
    c.feedA ∧ (kMirror type payload c).feedB = c.feedB ∧ (kMirror type payload c).rail = c.rail ∧ (kMirror type payload
    c).pack = c.pack ∧ (kMirror type payload c).chg = c.chg ∧ (kMirror type payload c).share = c.share ∧ (kMirror type payload
    c).alert = c.alert ∧ (kMirror type payload c).free = c.free ∧ (kMirror type payload c).spurs = c.spurs ∧ (kMirror type
    payload c).totals = c.totals ∧ (kMirror type payload c).gauge = c.gauge ∧ (kMirror type payload c).learn = c.learn ∧
    (kMirror type payload c).tag = c.tag ∧ (kMirror type payload c).inn = c.inn ∧ (kMirror type payload c).smb = c.smb ∧
    (kMirror type payload c).can = c.can ∧ (kMirror type payload c).host = c.host ∧ (kMirror type payload c).caravan =
    c.caravan ∧ (kMirror type payload c).pins = c.pins ∧ (kMirror type payload c).spi = c.spi := by
  unfold kMirror; split <;> simp

@[simp] theorem updSpurInn_frame (n : Fin 8) (f : SpurInn → SpurInn) (c : Chip) :
    (updSpurInn n f c).now = c.now ∧ (updSpurInn n f c).vTop = c.vTop ∧ (updSpurInn n f c).atReset = c.atReset ∧ (updSpurInn n
    f c).seq = c.seq ∧ (updSpurInn n f c).ret = c.ret ∧ (updSpurInn n f c).otp = c.otp ∧ (updSpurInn n f c).img = c.img ∧
    (updSpurInn n f c).jrn = c.jrn ∧ (updSpurInn n f c).meas = c.meas ∧ (updSpurInn n f c).cal = c.cal ∧ (updSpurInn n f
    c).aux = c.aux ∧ (updSpurInn n f c).clk = c.clk ∧ (updSpurInn n f c).tmp = c.tmp ∧ (updSpurInn n f c).prs = c.prs ∧
    (updSpurInn n f c).feedA = c.feedA ∧ (updSpurInn n f c).feedB = c.feedB ∧ (updSpurInn n f c).rail = c.rail ∧ (updSpurInn n
    f c).pack = c.pack ∧ (updSpurInn n f c).chg = c.chg ∧ (updSpurInn n f c).share = c.share ∧ (updSpurInn n f c).alert =
    c.alert ∧ (updSpurInn n f c).free = c.free ∧ (updSpurInn n f c).spurs = c.spurs ∧ (updSpurInn n f c).totals = c.totals ∧
    (updSpurInn n f c).gauge = c.gauge ∧ (updSpurInn n f c).learn = c.learn ∧ (updSpurInn n f c).tag = c.tag ∧ (updSpurInn n f
    c).smb = c.smb ∧ (updSpurInn n f c).can = c.can ∧ (updSpurInn n f c).host = c.host ∧ (updSpurInn n f c).caravan =
    c.caravan ∧ (updSpurInn n f c).pair = c.pair ∧ (updSpurInn n f c).pins = c.pins ∧ (updSpurInn n f c).spi = c.spi := by
  simp [updSpurInn, setSpurInn]

@[simp] theorem setSpur_frame (c : Chip) (n : Fin 8) (x : Spur) :
    (setSpur c n x).now = c.now ∧ (setSpur c n x).vTop = c.vTop ∧ (setSpur c n x).atReset = c.atReset ∧ (setSpur c n x).seq =
    c.seq ∧ (setSpur c n x).ret = c.ret ∧ (setSpur c n x).otp = c.otp ∧ (setSpur c n x).img = c.img ∧ (setSpur c n x).jrn =
    c.jrn ∧ (setSpur c n x).meas = c.meas ∧ (setSpur c n x).cal = c.cal ∧ (setSpur c n x).aux = c.aux ∧ (setSpur c n x).clk =
    c.clk ∧ (setSpur c n x).tmp = c.tmp ∧ (setSpur c n x).prs = c.prs ∧ (setSpur c n x).feedA = c.feedA ∧ (setSpur c n
    x).feedB = c.feedB ∧ (setSpur c n x).rail = c.rail ∧ (setSpur c n x).pack = c.pack ∧ (setSpur c n x).chg = c.chg ∧
    (setSpur c n x).share = c.share ∧ (setSpur c n x).alert = c.alert ∧ (setSpur c n x).free = c.free ∧ (setSpur c n x).totals
    = c.totals ∧ (setSpur c n x).gauge = c.gauge ∧ (setSpur c n x).learn = c.learn ∧ (setSpur c n x).tag = c.tag ∧ (setSpur c
    n x).inn = c.inn ∧ (setSpur c n x).smb = c.smb ∧ (setSpur c n x).can = c.can ∧ (setSpur c n x).host = c.host ∧ (setSpur c
    n x).caravan = c.caravan ∧ (setSpur c n x).pair = c.pair ∧ (setSpur c n x).pins = c.pins ∧ (setSpur c n x).spi = c.spi := by
  simp [setSpur]

@[simp] theorem updSpur_frame (n : Fin 8) (f : Spur → Spur) (c : Chip) :
    (updSpur n f c).now = c.now ∧ (updSpur n f c).vTop = c.vTop ∧ (updSpur n f c).atReset = c.atReset ∧ (updSpur n f c).seq =
    c.seq ∧ (updSpur n f c).ret = c.ret ∧ (updSpur n f c).otp = c.otp ∧ (updSpur n f c).img = c.img ∧ (updSpur n f c).jrn =
    c.jrn ∧ (updSpur n f c).meas = c.meas ∧ (updSpur n f c).cal = c.cal ∧ (updSpur n f c).aux = c.aux ∧ (updSpur n f c).clk =
    c.clk ∧ (updSpur n f c).tmp = c.tmp ∧ (updSpur n f c).prs = c.prs ∧ (updSpur n f c).feedA = c.feedA ∧ (updSpur n f
    c).feedB = c.feedB ∧ (updSpur n f c).rail = c.rail ∧ (updSpur n f c).pack = c.pack ∧ (updSpur n f c).chg = c.chg ∧
    (updSpur n f c).share = c.share ∧ (updSpur n f c).alert = c.alert ∧ (updSpur n f c).free = c.free ∧ (updSpur n f c).totals
    = c.totals ∧ (updSpur n f c).gauge = c.gauge ∧ (updSpur n f c).learn = c.learn ∧ (updSpur n f c).tag = c.tag ∧ (updSpur n
    f c).inn = c.inn ∧ (updSpur n f c).smb = c.smb ∧ (updSpur n f c).can = c.can ∧ (updSpur n f c).host = c.host ∧ (updSpur n
    f c).caravan = c.caravan ∧ (updSpur n f c).pair = c.pair ∧ (updSpur n f c).pins = c.pins ∧ (updSpur n f c).spi = c.spi := by
  simp [updSpur]

@[simp] theorem takeCommand_frame (n : Fin 8) (c : Chip) :
    (takeCommand n c).now = c.now ∧ (takeCommand n c).vTop = c.vTop ∧ (takeCommand n c).atReset = c.atReset ∧ (takeCommand n
    c).seq = c.seq ∧ (takeCommand n c).ret = c.ret ∧ (takeCommand n c).otp = c.otp ∧ (takeCommand n c).img = c.img ∧
    (takeCommand n c).jrn = c.jrn ∧ (takeCommand n c).meas = c.meas ∧ (takeCommand n c).cal = c.cal ∧ (takeCommand n c).aux =
    c.aux ∧ (takeCommand n c).clk = c.clk ∧ (takeCommand n c).tmp = c.tmp ∧ (takeCommand n c).prs = c.prs ∧ (takeCommand n
    c).feedA = c.feedA ∧ (takeCommand n c).feedB = c.feedB ∧ (takeCommand n c).rail = c.rail ∧ (takeCommand n c).pack = c.pack
    ∧ (takeCommand n c).chg = c.chg ∧ (takeCommand n c).share = c.share ∧ (takeCommand n c).alert = c.alert ∧ (takeCommand n
    c).free = c.free ∧ (takeCommand n c).totals = c.totals ∧ (takeCommand n c).gauge = c.gauge ∧ (takeCommand n c).learn =
    c.learn ∧ (takeCommand n c).tag = c.tag ∧ (takeCommand n c).inn = c.inn ∧ (takeCommand n c).smb = c.smb ∧ (takeCommand n
    c).can = c.can ∧ (takeCommand n c).host = c.host ∧ (takeCommand n c).caravan = c.caravan ∧ (takeCommand n c).pair = c.pair
    ∧ (takeCommand n c).pins = c.pins ∧ (takeCommand n c).spi = c.spi := by
  simp [takeCommand]

@[simp] theorem takeCommands_frame (c : Chip) :
    (takeCommands c).now = c.now ∧ (takeCommands c).vTop = c.vTop ∧ (takeCommands c).atReset = c.atReset ∧ (takeCommands
    c).seq = c.seq ∧ (takeCommands c).ret = c.ret ∧ (takeCommands c).otp = c.otp ∧ (takeCommands c).img = c.img ∧
    (takeCommands c).jrn = c.jrn ∧ (takeCommands c).meas = c.meas ∧ (takeCommands c).cal = c.cal ∧ (takeCommands c).aux =
    c.aux ∧ (takeCommands c).clk = c.clk ∧ (takeCommands c).tmp = c.tmp ∧ (takeCommands c).prs = c.prs ∧ (takeCommands
    c).feedA = c.feedA ∧ (takeCommands c).feedB = c.feedB ∧ (takeCommands c).rail = c.rail ∧ (takeCommands c).pack = c.pack ∧
    (takeCommands c).chg = c.chg ∧ (takeCommands c).share = c.share ∧ (takeCommands c).alert = c.alert ∧ (takeCommands c).free
    = c.free ∧ (takeCommands c).totals = c.totals ∧ (takeCommands c).gauge = c.gauge ∧ (takeCommands c).learn = c.learn ∧
    (takeCommands c).tag = c.tag ∧ (takeCommands c).inn = c.inn ∧ (takeCommands c).smb = c.smb ∧ (takeCommands c).can = c.can
    ∧ (takeCommands c).host = c.host ∧ (takeCommands c).caravan = c.caravan ∧ (takeCommands c).pair = c.pair ∧ (takeCommands
    c).pins = c.pins ∧ (takeCommands c).spi = c.spi := by
  unfold takeCommands
  generalize List.finRange 8 = l
  induction l generalizing c with
  | nil => simp
  | cons a l ih => simpa using ih (takeCommand a c)

@[simp] theorem updGov_frame (f : Gov → Gov) (c : Chip) :
    (updGov f c).now = c.now ∧ (updGov f c).vTop = c.vTop ∧ (updGov f c).atReset = c.atReset ∧ (updGov f c).seq = c.seq ∧
    (updGov f c).ret = c.ret ∧ (updGov f c).otp = c.otp ∧ (updGov f c).img = c.img ∧ (updGov f c).jrn = c.jrn ∧ (updGov f
    c).meas = c.meas ∧ (updGov f c).cal = c.cal ∧ (updGov f c).aux = c.aux ∧ (updGov f c).clk = c.clk ∧ (updGov f c).tmp =
    c.tmp ∧ (updGov f c).prs = c.prs ∧ (updGov f c).feedA = c.feedA ∧ (updGov f c).feedB = c.feedB ∧ (updGov f c).rail =
    c.rail ∧ (updGov f c).pack = c.pack ∧ (updGov f c).chg = c.chg ∧ (updGov f c).share = c.share ∧ (updGov f c).alert =
    c.alert ∧ (updGov f c).free = c.free ∧ (updGov f c).spurs = c.spurs ∧ (updGov f c).totals = c.totals ∧ (updGov f c).learn
    = c.learn ∧ (updGov f c).tag = c.tag ∧ (updGov f c).inn = c.inn ∧ (updGov f c).smb = c.smb ∧ (updGov f c).can = c.can ∧
    (updGov f c).host = c.host ∧ (updGov f c).caravan = c.caravan ∧ (updGov f c).pair = c.pair ∧ (updGov f c).pins = c.pins ∧
    (updGov f c).spi = c.spi := by
  simp [updGov]

@[simp] theorem enterPack_frame (st : PackSt) (c : Chip) :
    (enterPack st c).now = c.now ∧ (enterPack st c).vTop = c.vTop ∧ (enterPack st c).atReset = c.atReset ∧ (enterPack st
    c).seq = c.seq ∧ (enterPack st c).ret = c.ret ∧ (enterPack st c).otp = c.otp ∧ (enterPack st c).img = c.img ∧ (enterPack
    st c).jrn = c.jrn ∧ (enterPack st c).meas = c.meas ∧ (enterPack st c).cal = c.cal ∧ (enterPack st c).aux = c.aux ∧
    (enterPack st c).clk = c.clk ∧ (enterPack st c).tmp = c.tmp ∧ (enterPack st c).prs = c.prs ∧ (enterPack st c).feedA =
    c.feedA ∧ (enterPack st c).feedB = c.feedB ∧ (enterPack st c).rail = c.rail ∧ (enterPack st c).chg = c.chg ∧ (enterPack st
    c).share = c.share ∧ (enterPack st c).alert = c.alert ∧ (enterPack st c).free = c.free ∧ (enterPack st c).spurs = c.spurs
    ∧ (enterPack st c).totals = c.totals ∧ (enterPack st c).gauge = c.gauge ∧ (enterPack st c).learn = c.learn ∧ (enterPack st
    c).tag = c.tag ∧ (enterPack st c).inn = c.inn ∧ (enterPack st c).smb = c.smb ∧ (enterPack st c).can = c.can ∧ (enterPack
    st c).host = c.host ∧ (enterPack st c).caravan = c.caravan ∧ (enterPack st c).pair = c.pair ∧ (enterPack st c).pins =
    c.pins ∧ (enterPack st c).spi = c.spi := by
  simp [enterPack]

@[simp] theorem packOff_frame (st : PackSt) (cause : Nat) (c : Chip) :
    (packOff st cause c).now = c.now ∧ (packOff st cause c).vTop = c.vTop ∧ (packOff st cause c).atReset = c.atReset ∧
    (packOff st cause c).seq = c.seq ∧ (packOff st cause c).ret = c.ret ∧ (packOff st cause c).otp = c.otp ∧ (packOff st cause
    c).img = c.img ∧ (packOff st cause c).jrn = c.jrn ∧ (packOff st cause c).meas = c.meas ∧ (packOff st cause c).cal = c.cal
    ∧ (packOff st cause c).aux = c.aux ∧ (packOff st cause c).clk = c.clk ∧ (packOff st cause c).tmp = c.tmp ∧ (packOff st
    cause c).prs = c.prs ∧ (packOff st cause c).feedA = c.feedA ∧ (packOff st cause c).feedB = c.feedB ∧ (packOff st cause
    c).rail = c.rail ∧ (packOff st cause c).chg = c.chg ∧ (packOff st cause c).share = c.share ∧ (packOff st cause c).alert =
    c.alert ∧ (packOff st cause c).free = c.free ∧ (packOff st cause c).spurs = c.spurs ∧ (packOff st cause c).totals =
    c.totals ∧ (packOff st cause c).gauge = c.gauge ∧ (packOff st cause c).learn = c.learn ∧ (packOff st cause c).tag = c.tag
    ∧ (packOff st cause c).inn = c.inn ∧ (packOff st cause c).smb = c.smb ∧ (packOff st cause c).can = c.can ∧ (packOff st
    cause c).host = c.host ∧ (packOff st cause c).caravan = c.caravan ∧ (packOff st cause c).pair = c.pair ∧ (packOff st cause
    c).pins = c.pins ∧ (packOff st cause c).spi = c.spi := by
  simp [packOff]

@[simp] theorem endCharge_frame (cause : Nat) (next : PackSt) (c : Chip) :
    (endCharge cause next c).now = c.now ∧ (endCharge cause next c).vTop = c.vTop ∧ (endCharge cause next c).atReset =
    c.atReset ∧ (endCharge cause next c).seq = c.seq ∧ (endCharge cause next c).ret = c.ret ∧ (endCharge cause next c).otp =
    c.otp ∧ (endCharge cause next c).img = c.img ∧ (endCharge cause next c).jrn = c.jrn ∧ (endCharge cause next c).meas =
    c.meas ∧ (endCharge cause next c).cal = c.cal ∧ (endCharge cause next c).aux = c.aux ∧ (endCharge cause next c).clk =
    c.clk ∧ (endCharge cause next c).tmp = c.tmp ∧ (endCharge cause next c).prs = c.prs ∧ (endCharge cause next c).feedA =
    c.feedA ∧ (endCharge cause next c).feedB = c.feedB ∧ (endCharge cause next c).rail = c.rail ∧ (endCharge cause next
    c).share = c.share ∧ (endCharge cause next c).alert = c.alert ∧ (endCharge cause next c).free = c.free ∧ (endCharge cause
    next c).spurs = c.spurs ∧ (endCharge cause next c).totals = c.totals ∧ (endCharge cause next c).tag = c.tag ∧ (endCharge
    cause next c).inn = c.inn ∧ (endCharge cause next c).smb = c.smb ∧ (endCharge cause next c).can = c.can ∧ (endCharge cause
    next c).host = c.host ∧ (endCharge cause next c).caravan = c.caravan ∧ (endCharge cause next c).pair = c.pair ∧ (endCharge
    cause next c).pins = c.pins ∧ (endCharge cause next c).spi = c.spi := by
  unfold endCharge; split <;> simp [noteEnd]

@[simp] theorem packMirage_frame (c : Chip) :
    (packMirage c).now = c.now ∧ (packMirage c).vTop = c.vTop ∧ (packMirage c).atReset = c.atReset ∧ (packMirage c).seq =
    c.seq ∧ (packMirage c).otp = c.otp ∧ (packMirage c).img = c.img ∧ (packMirage c).meas = c.meas ∧ (packMirage c).cal =
    c.cal ∧ (packMirage c).aux = c.aux ∧ (packMirage c).clk = c.clk ∧ (packMirage c).tmp = c.tmp ∧ (packMirage c).prs = c.prs
    ∧ (packMirage c).feedA = c.feedA ∧ (packMirage c).feedB = c.feedB ∧ (packMirage c).rail = c.rail ∧ (packMirage c).share =
    c.share ∧ (packMirage c).free = c.free ∧ (packMirage c).spurs = c.spurs ∧ (packMirage c).totals = c.totals ∧ (packMirage
    c).tag = c.tag ∧ (packMirage c).inn = c.inn ∧ (packMirage c).smb = c.smb ∧ (packMirage c).can = c.can ∧ (packMirage
    c).host = c.host ∧ (packMirage c).caravan = c.caravan ∧ (packMirage c).pair = c.pair ∧ (packMirage c).pins = c.pins ∧
    (packMirage c).spi = c.spi := by
  unfold packMirage; split <;> simp

@[simp] theorem packFail_frame (cause : Nat) (c : Chip) :
    (packFail cause c).now = c.now ∧ (packFail cause c).vTop = c.vTop ∧ (packFail cause c).atReset = c.atReset ∧ (packFail
    cause c).seq = c.seq ∧ (packFail cause c).otp = c.otp ∧ (packFail cause c).img = c.img ∧ (packFail cause c).meas = c.meas
    ∧ (packFail cause c).cal = c.cal ∧ (packFail cause c).aux = c.aux ∧ (packFail cause c).clk = c.clk ∧ (packFail cause
    c).tmp = c.tmp ∧ (packFail cause c).prs = c.prs ∧ (packFail cause c).feedA = c.feedA ∧ (packFail cause c).feedB = c.feedB
    ∧ (packFail cause c).rail = c.rail ∧ (packFail cause c).share = c.share ∧ (packFail cause c).free = c.free ∧ (packFail
    cause c).spurs = c.spurs ∧ (packFail cause c).totals = c.totals ∧ (packFail cause c).tag = c.tag ∧ (packFail cause c).inn
    = c.inn ∧ (packFail cause c).smb = c.smb ∧ (packFail cause c).can = c.can ∧ (packFail cause c).host = c.host ∧ (packFail
    cause c).caravan = c.caravan ∧ (packFail cause c).pair = c.pair ∧ (packFail cause c).pins = c.pins ∧ (packFail cause
    c).spi = c.spi := by
  simp only [packFail]; split <;> simp

@[simp] theorem waitChecks_frame (c : Chip) :
    (waitChecks c).now = c.now ∧ (waitChecks c).vTop = c.vTop ∧ (waitChecks c).atReset = c.atReset ∧ (waitChecks c).seq =
    c.seq ∧ (waitChecks c).otp = c.otp ∧ (waitChecks c).img = c.img ∧ (waitChecks c).meas = c.meas ∧ (waitChecks c).cal =
    c.cal ∧ (waitChecks c).aux = c.aux ∧ (waitChecks c).clk = c.clk ∧ (waitChecks c).tmp = c.tmp ∧ (waitChecks c).prs = c.prs
    ∧ (waitChecks c).feedA = c.feedA ∧ (waitChecks c).feedB = c.feedB ∧ (waitChecks c).rail = c.rail ∧ (waitChecks c).chg =
    c.chg ∧ (waitChecks c).share = c.share ∧ (waitChecks c).free = c.free ∧ (waitChecks c).spurs = c.spurs ∧ (waitChecks
    c).totals = c.totals ∧ (waitChecks c).gauge = c.gauge ∧ (waitChecks c).learn = c.learn ∧ (waitChecks c).tag = c.tag ∧
    (waitChecks c).inn = c.inn ∧ (waitChecks c).smb = c.smb ∧ (waitChecks c).can = c.can ∧ (waitChecks c).host = c.host ∧
    (waitChecks c).caravan = c.caravan ∧ (waitChecks c).pair = c.pair ∧ (waitChecks c).pins = c.pins ∧ (waitChecks c).spi =
    c.spi := by
  unfold waitChecks; (repeat' split) <;> simp

@[simp] theorem enterWait_frame (c : Chip) :
    (enterWait c).now = c.now ∧ (enterWait c).vTop = c.vTop ∧ (enterWait c).atReset = c.atReset ∧ (enterWait c).seq = c.seq ∧
    (enterWait c).otp = c.otp ∧ (enterWait c).img = c.img ∧ (enterWait c).meas = c.meas ∧ (enterWait c).cal = c.cal ∧
    (enterWait c).aux = c.aux ∧ (enterWait c).clk = c.clk ∧ (enterWait c).tmp = c.tmp ∧ (enterWait c).prs = c.prs ∧ (enterWait
    c).feedA = c.feedA ∧ (enterWait c).feedB = c.feedB ∧ (enterWait c).rail = c.rail ∧ (enterWait c).chg = c.chg ∧ (enterWait
    c).share = c.share ∧ (enterWait c).free = c.free ∧ (enterWait c).spurs = c.spurs ∧ (enterWait c).totals = c.totals ∧
    (enterWait c).gauge = c.gauge ∧ (enterWait c).learn = c.learn ∧ (enterWait c).tag = c.tag ∧ (enterWait c).inn = c.inn ∧
    (enterWait c).smb = c.smb ∧ (enterWait c).can = c.can ∧ (enterWait c).host = c.host ∧ (enterWait c).caravan = c.caravan ∧
    (enterWait c).pair = c.pair ∧ (enterWait c).pins = c.pins ∧ (enterWait c).spi = c.spi := by
  simp [enterWait]

@[simp] theorem packPolicies_frame (c : Chip) :
    (packPolicies c).now = c.now ∧ (packPolicies c).vTop = c.vTop ∧ (packPolicies c).atReset = c.atReset ∧ (packPolicies
    c).seq = c.seq ∧ (packPolicies c).ret = c.ret ∧ (packPolicies c).otp = c.otp ∧ (packPolicies c).img = c.img ∧
    (packPolicies c).jrn = c.jrn ∧ (packPolicies c).meas = c.meas ∧ (packPolicies c).cal = c.cal ∧ (packPolicies c).aux =
    c.aux ∧ (packPolicies c).clk = c.clk ∧ (packPolicies c).tmp = c.tmp ∧ (packPolicies c).prs = c.prs ∧ (packPolicies
    c).feedA = c.feedA ∧ (packPolicies c).feedB = c.feedB ∧ (packPolicies c).rail = c.rail ∧ (packPolicies c).share = c.share
    ∧ (packPolicies c).alert = c.alert ∧ (packPolicies c).free = c.free ∧ (packPolicies c).spurs = c.spurs ∧ (packPolicies
    c).totals = c.totals ∧ (packPolicies c).tag = c.tag ∧ (packPolicies c).inn = c.inn ∧ (packPolicies c).smb = c.smb ∧
    (packPolicies c).can = c.can ∧ (packPolicies c).host = c.host ∧ (packPolicies c).caravan = c.caravan ∧ (packPolicies
    c).pair = c.pair ∧ (packPolicies c).pins = c.pins ∧ (packPolicies c).spi = c.spi := by
  simp only [packPolicies]; (repeat' split) <;> simp

@[simp] theorem startTxn_frame (cmd : TagCmd) (c : Chip) :
    (startTxn cmd c).now = c.now ∧ (startTxn cmd c).vTop = c.vTop ∧ (startTxn cmd c).atReset = c.atReset ∧ (startTxn cmd
    c).seq = c.seq ∧ (startTxn cmd c).ret = c.ret ∧ (startTxn cmd c).otp = c.otp ∧ (startTxn cmd c).img = c.img ∧ (startTxn
    cmd c).jrn = c.jrn ∧ (startTxn cmd c).meas = c.meas ∧ (startTxn cmd c).cal = c.cal ∧ (startTxn cmd c).aux = c.aux ∧
    (startTxn cmd c).clk = c.clk ∧ (startTxn cmd c).tmp = c.tmp ∧ (startTxn cmd c).prs = c.prs ∧ (startTxn cmd c).feedA =
    c.feedA ∧ (startTxn cmd c).feedB = c.feedB ∧ (startTxn cmd c).rail = c.rail ∧ (startTxn cmd c).pack = c.pack ∧ (startTxn
    cmd c).chg = c.chg ∧ (startTxn cmd c).share = c.share ∧ (startTxn cmd c).alert = c.alert ∧ (startTxn cmd c).free = c.free
    ∧ (startTxn cmd c).spurs = c.spurs ∧ (startTxn cmd c).totals = c.totals ∧ (startTxn cmd c).gauge = c.gauge ∧ (startTxn cmd
    c).learn = c.learn ∧ (startTxn cmd c).inn = c.inn ∧ (startTxn cmd c).smb = c.smb ∧ (startTxn cmd c).can = c.can ∧
    (startTxn cmd c).host = c.host ∧ (startTxn cmd c).caravan = c.caravan ∧ (startTxn cmd c).pair = c.pair ∧ (startTxn cmd
    c).pins = c.pins ∧ (startTxn cmd c).spi = c.spi := by
  simp [startTxn]

@[simp] theorem kickTool_frame (c : Chip) :
    (kickTool c).now = c.now ∧ (kickTool c).vTop = c.vTop ∧ (kickTool c).atReset = c.atReset ∧ (kickTool c).seq = c.seq ∧
    (kickTool c).ret = c.ret ∧ (kickTool c).otp = c.otp ∧ (kickTool c).img = c.img ∧ (kickTool c).jrn = c.jrn ∧ (kickTool
    c).meas = c.meas ∧ (kickTool c).cal = c.cal ∧ (kickTool c).aux = c.aux ∧ (kickTool c).clk = c.clk ∧ (kickTool c).tmp =
    c.tmp ∧ (kickTool c).prs = c.prs ∧ (kickTool c).feedA = c.feedA ∧ (kickTool c).feedB = c.feedB ∧ (kickTool c).rail =
    c.rail ∧ (kickTool c).pack = c.pack ∧ (kickTool c).chg = c.chg ∧ (kickTool c).share = c.share ∧ (kickTool c).alert =
    c.alert ∧ (kickTool c).free = c.free ∧ (kickTool c).spurs = c.spurs ∧ (kickTool c).totals = c.totals ∧ (kickTool c).gauge
    = c.gauge ∧ (kickTool c).learn = c.learn ∧ (kickTool c).inn = c.inn ∧ (kickTool c).smb = c.smb ∧ (kickTool c).can = c.can
    ∧ (kickTool c).host = c.host ∧ (kickTool c).caravan = c.caravan ∧ (kickTool c).pair = c.pair ∧ (kickTool c).pins = c.pins
    ∧ (kickTool c).spi = c.spi := by
  unfold kickTool; (repeat' split) <;> simp

@[simp] theorem skipWaiting_frame (c : Chip) :
    (skipWaiting c).now = c.now ∧ (skipWaiting c).vTop = c.vTop ∧ (skipWaiting c).atReset = c.atReset ∧ (skipWaiting c).seq =
    c.seq ∧ (skipWaiting c).ret = c.ret ∧ (skipWaiting c).otp = c.otp ∧ (skipWaiting c).img = c.img ∧ (skipWaiting c).jrn =
    c.jrn ∧ (skipWaiting c).meas = c.meas ∧ (skipWaiting c).cal = c.cal ∧ (skipWaiting c).aux = c.aux ∧ (skipWaiting c).clk =
    c.clk ∧ (skipWaiting c).tmp = c.tmp ∧ (skipWaiting c).prs = c.prs ∧ (skipWaiting c).feedA = c.feedA ∧ (skipWaiting
    c).feedB = c.feedB ∧ (skipWaiting c).rail = c.rail ∧ (skipWaiting c).pack = c.pack ∧ (skipWaiting c).chg = c.chg ∧
    (skipWaiting c).share = c.share ∧ (skipWaiting c).alert = c.alert ∧ (skipWaiting c).free = c.free ∧ (skipWaiting c).spurs
    = c.spurs ∧ (skipWaiting c).totals = c.totals ∧ (skipWaiting c).gauge = c.gauge ∧ (skipWaiting c).inn = c.inn ∧
    (skipWaiting c).smb = c.smb ∧ (skipWaiting c).can = c.can ∧ (skipWaiting c).caravan = c.caravan ∧ (skipWaiting c).pair =
    c.pair ∧ (skipWaiting c).pins = c.pins ∧ (skipWaiting c).spi = c.spi := by
  simp only [skipWaiting, pendDone]; (repeat' split) <;> simp

@[simp] theorem skipDue_frame (c : Chip) :
    (skipDue c).now = c.now ∧ (skipDue c).vTop = c.vTop ∧ (skipDue c).atReset = c.atReset ∧ (skipDue c).seq = c.seq ∧ (skipDue
    c).ret = c.ret ∧ (skipDue c).otp = c.otp ∧ (skipDue c).img = c.img ∧ (skipDue c).jrn = c.jrn ∧ (skipDue c).meas = c.meas ∧
    (skipDue c).cal = c.cal ∧ (skipDue c).aux = c.aux ∧ (skipDue c).clk = c.clk ∧ (skipDue c).tmp = c.tmp ∧ (skipDue c).prs =
    c.prs ∧ (skipDue c).feedA = c.feedA ∧ (skipDue c).feedB = c.feedB ∧ (skipDue c).rail = c.rail ∧ (skipDue c).pack = c.pack
    ∧ (skipDue c).chg = c.chg ∧ (skipDue c).share = c.share ∧ (skipDue c).alert = c.alert ∧ (skipDue c).free = c.free ∧
    (skipDue c).spurs = c.spurs ∧ (skipDue c).totals = c.totals ∧ (skipDue c).gauge = c.gauge ∧ (skipDue c).inn = c.inn ∧
    (skipDue c).smb = c.smb ∧ (skipDue c).can = c.can ∧ (skipDue c).caravan = c.caravan ∧ (skipDue c).pair = c.pair ∧ (skipDue
    c).pins = c.pins ∧ (skipDue c).spi = c.spi := by
  unfold skipDue; split <;> simp

@[simp] theorem setVerdict_frame (v : Verdict) (reason : Nat) (c : Chip) :
    (setVerdict v reason c).now = c.now ∧ (setVerdict v reason c).vTop = c.vTop ∧ (setVerdict v reason c).atReset = c.atReset
    ∧ (setVerdict v reason c).seq = c.seq ∧ (setVerdict v reason c).otp = c.otp ∧ (setVerdict v reason c).img = c.img ∧
    (setVerdict v reason c).meas = c.meas ∧ (setVerdict v reason c).cal = c.cal ∧ (setVerdict v reason c).aux = c.aux ∧
    (setVerdict v reason c).clk = c.clk ∧ (setVerdict v reason c).tmp = c.tmp ∧ (setVerdict v reason c).prs = c.prs ∧
    (setVerdict v reason c).feedA = c.feedA ∧ (setVerdict v reason c).feedB = c.feedB ∧ (setVerdict v reason c).rail = c.rail
    ∧ (setVerdict v reason c).share = c.share ∧ (setVerdict v reason c).free = c.free ∧ (setVerdict v reason c).spurs =
    c.spurs ∧ (setVerdict v reason c).totals = c.totals ∧ (setVerdict v reason c).inn = c.inn ∧ (setVerdict v reason c).smb =
    c.smb ∧ (setVerdict v reason c).can = c.can ∧ (setVerdict v reason c).caravan = c.caravan ∧ (setVerdict v reason c).pair =
    c.pair ∧ (setVerdict v reason c).pins = c.pins ∧ (setVerdict v reason c).spi = c.spi := by
  simp [setVerdict]

@[simp] theorem countCycle_frame (m : Rat) (c : Chip) :
    (countCycle m c).now = c.now ∧ (countCycle m c).vTop = c.vTop ∧ (countCycle m c).atReset = c.atReset ∧ (countCycle m
    c).seq = c.seq ∧ (countCycle m c).ret = c.ret ∧ (countCycle m c).otp = c.otp ∧ (countCycle m c).img = c.img ∧ (countCycle
    m c).jrn = c.jrn ∧ (countCycle m c).meas = c.meas ∧ (countCycle m c).cal = c.cal ∧ (countCycle m c).aux = c.aux ∧
    (countCycle m c).clk = c.clk ∧ (countCycle m c).tmp = c.tmp ∧ (countCycle m c).prs = c.prs ∧ (countCycle m c).feedA =
    c.feedA ∧ (countCycle m c).feedB = c.feedB ∧ (countCycle m c).rail = c.rail ∧ (countCycle m c).pack = c.pack ∧ (countCycle
    m c).chg = c.chg ∧ (countCycle m c).share = c.share ∧ (countCycle m c).alert = c.alert ∧ (countCycle m c).free = c.free ∧
    (countCycle m c).spurs = c.spurs ∧ (countCycle m c).totals = c.totals ∧ (countCycle m c).gauge = c.gauge ∧ (countCycle m
    c).tag = c.tag ∧ (countCycle m c).inn = c.inn ∧ (countCycle m c).smb = c.smb ∧ (countCycle m c).can = c.can ∧ (countCycle
    m c).host = c.host ∧ (countCycle m c).caravan = c.caravan ∧ (countCycle m c).pair = c.pair ∧ (countCycle m c).pins =
    c.pins ∧ (countCycle m c).spi = c.spi := by
  simp only [countCycle]; (repeat' split) <;> simp

@[simp] theorem clearEod_frame (c : Chip) :
    (clearEod c).now = c.now ∧ (clearEod c).vTop = c.vTop ∧ (clearEod c).atReset = c.atReset ∧ (clearEod c).seq = c.seq ∧
    (clearEod c).ret = c.ret ∧ (clearEod c).otp = c.otp ∧ (clearEod c).img = c.img ∧ (clearEod c).jrn = c.jrn ∧ (clearEod
    c).meas = c.meas ∧ (clearEod c).cal = c.cal ∧ (clearEod c).aux = c.aux ∧ (clearEod c).clk = c.clk ∧ (clearEod c).tmp =
    c.tmp ∧ (clearEod c).prs = c.prs ∧ (clearEod c).feedA = c.feedA ∧ (clearEod c).feedB = c.feedB ∧ (clearEod c).rail =
    c.rail ∧ (clearEod c).pack = c.pack ∧ (clearEod c).chg = c.chg ∧ (clearEod c).share = c.share ∧ (clearEod c).alert =
    c.alert ∧ (clearEod c).free = c.free ∧ (clearEod c).spurs = c.spurs ∧ (clearEod c).totals = c.totals ∧ (clearEod c).tag =
    c.tag ∧ (clearEod c).inn = c.inn ∧ (clearEod c).smb = c.smb ∧ (clearEod c).can = c.can ∧ (clearEod c).host = c.host ∧
    (clearEod c).caravan = c.caravan ∧ (clearEod c).pair = c.pair ∧ (clearEod c).pins = c.pins ∧ (clearEod c).spi = c.spi := by
  unfold clearEod; split <;> simp

@[simp] theorem countUnits_frame (q : Rat) (c : Chip) :
    (countUnits q c).now = c.now ∧ (countUnits q c).vTop = c.vTop ∧ (countUnits q c).atReset = c.atReset ∧ (countUnits q
    c).seq = c.seq ∧ (countUnits q c).ret = c.ret ∧ (countUnits q c).otp = c.otp ∧ (countUnits q c).img = c.img ∧ (countUnits
    q c).jrn = c.jrn ∧ (countUnits q c).meas = c.meas ∧ (countUnits q c).cal = c.cal ∧ (countUnits q c).aux = c.aux ∧
    (countUnits q c).clk = c.clk ∧ (countUnits q c).tmp = c.tmp ∧ (countUnits q c).prs = c.prs ∧ (countUnits q c).feedA =
    c.feedA ∧ (countUnits q c).feedB = c.feedB ∧ (countUnits q c).rail = c.rail ∧ (countUnits q c).pack = c.pack ∧ (countUnits
    q c).chg = c.chg ∧ (countUnits q c).share = c.share ∧ (countUnits q c).alert = c.alert ∧ (countUnits q c).free = c.free ∧
    (countUnits q c).spurs = c.spurs ∧ (countUnits q c).totals = c.totals ∧ (countUnits q c).learn = c.learn ∧ (countUnits q
    c).tag = c.tag ∧ (countUnits q c).inn = c.inn ∧ (countUnits q c).smb = c.smb ∧ (countUnits q c).can = c.can ∧ (countUnits
    q c).host = c.host ∧ (countUnits q c).caravan = c.caravan ∧ (countUnits q c).pair = c.pair ∧ (countUnits q c).pins =
    c.pins ∧ (countUnits q c).spi = c.spi := by
  simp [countUnits]

@[simp] theorem limpFigures_frame (c : Chip) :
    (limpFigures c).now = c.now ∧ (limpFigures c).vTop = c.vTop ∧ (limpFigures c).atReset = c.atReset ∧ (limpFigures c).seq =
    c.seq ∧ (limpFigures c).ret = c.ret ∧ (limpFigures c).otp = c.otp ∧ (limpFigures c).img = c.img ∧ (limpFigures c).jrn =
    c.jrn ∧ (limpFigures c).meas = c.meas ∧ (limpFigures c).cal = c.cal ∧ (limpFigures c).aux = c.aux ∧ (limpFigures c).clk =
    c.clk ∧ (limpFigures c).tmp = c.tmp ∧ (limpFigures c).prs = c.prs ∧ (limpFigures c).feedA = c.feedA ∧ (limpFigures
    c).feedB = c.feedB ∧ (limpFigures c).rail = c.rail ∧ (limpFigures c).pack = c.pack ∧ (limpFigures c).chg = c.chg ∧
    (limpFigures c).share = c.share ∧ (limpFigures c).alert = c.alert ∧ (limpFigures c).free = c.free ∧ (limpFigures c).spurs
    = c.spurs ∧ (limpFigures c).totals = c.totals ∧ (limpFigures c).gauge = c.gauge ∧ (limpFigures c).tag = c.tag ∧
    (limpFigures c).inn = c.inn ∧ (limpFigures c).smb = c.smb ∧ (limpFigures c).can = c.can ∧ (limpFigures c).host = c.host ∧
    (limpFigures c).caravan = c.caravan ∧ (limpFigures c).pair = c.pair ∧ (limpFigures c).pins = c.pins ∧ (limpFigures c).spi
    = c.spi := by
  simp [limpFigures]

@[simp] theorem limpCount_frame (mah : Rat) (c : Chip) :
    (limpCount mah c).now = c.now ∧ (limpCount mah c).vTop = c.vTop ∧ (limpCount mah c).atReset = c.atReset ∧ (limpCount mah
    c).seq = c.seq ∧ (limpCount mah c).ret = c.ret ∧ (limpCount mah c).otp = c.otp ∧ (limpCount mah c).img = c.img ∧
    (limpCount mah c).jrn = c.jrn ∧ (limpCount mah c).meas = c.meas ∧ (limpCount mah c).cal = c.cal ∧ (limpCount mah c).aux =
    c.aux ∧ (limpCount mah c).clk = c.clk ∧ (limpCount mah c).tmp = c.tmp ∧ (limpCount mah c).prs = c.prs ∧ (limpCount mah
    c).feedA = c.feedA ∧ (limpCount mah c).feedB = c.feedB ∧ (limpCount mah c).rail = c.rail ∧ (limpCount mah c).pack = c.pack
    ∧ (limpCount mah c).chg = c.chg ∧ (limpCount mah c).share = c.share ∧ (limpCount mah c).alert = c.alert ∧ (limpCount mah
    c).free = c.free ∧ (limpCount mah c).spurs = c.spurs ∧ (limpCount mah c).totals = c.totals ∧ (limpCount mah c).tag = c.tag
    ∧ (limpCount mah c).inn = c.inn ∧ (limpCount mah c).smb = c.smb ∧ (limpCount mah c).can = c.can ∧ (limpCount mah c).host =
    c.host ∧ (limpCount mah c).caravan = c.caravan ∧ (limpCount mah c).pair = c.pair ∧ (limpCount mah c).pins = c.pins ∧
    (limpCount mah c).spi = c.spi := by
  unfold limpCount; split <;> simp

@[simp] theorem countOut_frame (q : Rat) (c : Chip) :
    (countOut q c).now = c.now ∧ (countOut q c).vTop = c.vTop ∧ (countOut q c).atReset = c.atReset ∧ (countOut q c).seq =
    c.seq ∧ (countOut q c).ret = c.ret ∧ (countOut q c).otp = c.otp ∧ (countOut q c).img = c.img ∧ (countOut q c).jrn = c.jrn
    ∧ (countOut q c).meas = c.meas ∧ (countOut q c).cal = c.cal ∧ (countOut q c).aux = c.aux ∧ (countOut q c).clk = c.clk ∧
    (countOut q c).tmp = c.tmp ∧ (countOut q c).prs = c.prs ∧ (countOut q c).feedA = c.feedA ∧ (countOut q c).feedB = c.feedB
    ∧ (countOut q c).rail = c.rail ∧ (countOut q c).pack = c.pack ∧ (countOut q c).chg = c.chg ∧ (countOut q c).share =
    c.share ∧ (countOut q c).alert = c.alert ∧ (countOut q c).free = c.free ∧ (countOut q c).spurs = c.spurs ∧ (countOut q
    c).totals = c.totals ∧ (countOut q c).tag = c.tag ∧ (countOut q c).inn = c.inn ∧ (countOut q c).smb = c.smb ∧ (countOut q
    c).can = c.can ∧ (countOut q c).host = c.host ∧ (countOut q c).caravan = c.caravan ∧ (countOut q c).pair = c.pair ∧
    (countOut q c).pins = c.pins ∧ (countOut q c).spi = c.spi := by
  unfold countOut; split <;> simp

@[simp] theorem countSelf_frame (c : Chip) :
    (countSelf c).now = c.now ∧ (countSelf c).vTop = c.vTop ∧ (countSelf c).atReset = c.atReset ∧ (countSelf c).seq = c.seq ∧
    (countSelf c).ret = c.ret ∧ (countSelf c).otp = c.otp ∧ (countSelf c).img = c.img ∧ (countSelf c).jrn = c.jrn ∧ (countSelf
    c).meas = c.meas ∧ (countSelf c).cal = c.cal ∧ (countSelf c).aux = c.aux ∧ (countSelf c).clk = c.clk ∧ (countSelf c).tmp =
    c.tmp ∧ (countSelf c).prs = c.prs ∧ (countSelf c).feedA = c.feedA ∧ (countSelf c).feedB = c.feedB ∧ (countSelf c).rail =
    c.rail ∧ (countSelf c).pack = c.pack ∧ (countSelf c).chg = c.chg ∧ (countSelf c).share = c.share ∧ (countSelf c).alert =
    c.alert ∧ (countSelf c).free = c.free ∧ (countSelf c).spurs = c.spurs ∧ (countSelf c).totals = c.totals ∧ (countSelf
    c).tag = c.tag ∧ (countSelf c).inn = c.inn ∧ (countSelf c).smb = c.smb ∧ (countSelf c).can = c.can ∧ (countSelf c).host =
    c.host ∧ (countSelf c).caravan = c.caravan ∧ (countSelf c).pair = c.pair ∧ (countSelf c).pins = c.pins ∧ (countSelf c).spi
    = c.spi := by
  simp [countSelf]

@[simp] theorem meterPack_frame (q v : Rat) (c : Chip) :
    (meterPack q v c).now = c.now ∧ (meterPack q v c).vTop = c.vTop ∧ (meterPack q v c).atReset = c.atReset ∧ (meterPack q v
    c).seq = c.seq ∧ (meterPack q v c).ret = c.ret ∧ (meterPack q v c).otp = c.otp ∧ (meterPack q v c).img = c.img ∧
    (meterPack q v c).jrn = c.jrn ∧ (meterPack q v c).meas = c.meas ∧ (meterPack q v c).cal = c.cal ∧ (meterPack q v c).aux =
    c.aux ∧ (meterPack q v c).clk = c.clk ∧ (meterPack q v c).tmp = c.tmp ∧ (meterPack q v c).prs = c.prs ∧ (meterPack q v
    c).feedA = c.feedA ∧ (meterPack q v c).feedB = c.feedB ∧ (meterPack q v c).rail = c.rail ∧ (meterPack q v c).chg = c.chg ∧
    (meterPack q v c).share = c.share ∧ (meterPack q v c).alert = c.alert ∧ (meterPack q v c).free = c.free ∧ (meterPack q v
    c).spurs = c.spurs ∧ (meterPack q v c).totals = c.totals ∧ (meterPack q v c).gauge = c.gauge ∧ (meterPack q v c).tag =
    c.tag ∧ (meterPack q v c).inn = c.inn ∧ (meterPack q v c).smb = c.smb ∧ (meterPack q v c).can = c.can ∧ (meterPack q v
    c).host = c.host ∧ (meterPack q v c).caravan = c.caravan ∧ (meterPack q v c).pair = c.pair ∧ (meterPack q v c).pins =
    c.pins ∧ (meterPack q v c).spi = c.spi := by
  simp only [meterPack]; split <;> simp

@[simp] theorem mapChans_frame (f : ModCh → ModCh) (c : Chip) :
    (mapChans f c).now = c.now ∧ (mapChans f c).vTop = c.vTop ∧ (mapChans f c).atReset = c.atReset ∧ (mapChans f c).seq =
    c.seq ∧ (mapChans f c).ret = c.ret ∧ (mapChans f c).otp = c.otp ∧ (mapChans f c).img = c.img ∧ (mapChans f c).jrn = c.jrn
    ∧ (mapChans f c).cal = c.cal ∧ (mapChans f c).aux = c.aux ∧ (mapChans f c).clk = c.clk ∧ (mapChans f c).tmp = c.tmp ∧
    (mapChans f c).prs = c.prs ∧ (mapChans f c).feedA = c.feedA ∧ (mapChans f c).feedB = c.feedB ∧ (mapChans f c).rail =
    c.rail ∧ (mapChans f c).pack = c.pack ∧ (mapChans f c).chg = c.chg ∧ (mapChans f c).share = c.share ∧ (mapChans f c).alert
    = c.alert ∧ (mapChans f c).free = c.free ∧ (mapChans f c).spurs = c.spurs ∧ (mapChans f c).totals = c.totals ∧ (mapChans f
    c).gauge = c.gauge ∧ (mapChans f c).learn = c.learn ∧ (mapChans f c).tag = c.tag ∧ (mapChans f c).inn = c.inn ∧ (mapChans
    f c).smb = c.smb ∧ (mapChans f c).can = c.can ∧ (mapChans f c).host = c.host ∧ (mapChans f c).caravan = c.caravan ∧
    (mapChans f c).pair = c.pair ∧ (mapChans f c).pins = c.pins ∧ (mapChans f c).spi = c.spi := by
  simp [mapChans]

@[simp] theorem followMods_frame (c : Chip) :
    (followMods c).now = c.now ∧ (followMods c).vTop = c.vTop ∧ (followMods c).atReset = c.atReset ∧ (followMods c).seq =
    c.seq ∧ (followMods c).ret = c.ret ∧ (followMods c).otp = c.otp ∧ (followMods c).img = c.img ∧ (followMods c).jrn = c.jrn
    ∧ (followMods c).cal = c.cal ∧ (followMods c).aux = c.aux ∧ (followMods c).clk = c.clk ∧ (followMods c).tmp = c.tmp ∧
    (followMods c).prs = c.prs ∧ (followMods c).feedA = c.feedA ∧ (followMods c).feedB = c.feedB ∧ (followMods c).rail =
    c.rail ∧ (followMods c).pack = c.pack ∧ (followMods c).chg = c.chg ∧ (followMods c).share = c.share ∧ (followMods c).alert
    = c.alert ∧ (followMods c).free = c.free ∧ (followMods c).spurs = c.spurs ∧ (followMods c).totals = c.totals ∧ (followMods
    c).learn = c.learn ∧ (followMods c).tag = c.tag ∧ (followMods c).inn = c.inn ∧ (followMods c).smb = c.smb ∧ (followMods
    c).can = c.can ∧ (followMods c).host = c.host ∧ (followMods c).caravan = c.caravan ∧ (followMods c).pair = c.pair ∧
    (followMods c).pins = c.pins ∧ (followMods c).spi = c.spi := by
  unfold followMods; split <;> simp [startMods, stopMods]

@[simp] theorem leaveDuty_frame (c : Chip) :
    (leaveDuty c).now = c.now ∧ (leaveDuty c).vTop = c.vTop ∧ (leaveDuty c).atReset = c.atReset ∧ (leaveDuty c).seq = c.seq ∧
    (leaveDuty c).ret = c.ret ∧ (leaveDuty c).otp = c.otp ∧ (leaveDuty c).img = c.img ∧ (leaveDuty c).jrn = c.jrn ∧ (leaveDuty
    c).cal = c.cal ∧ (leaveDuty c).aux = c.aux ∧ (leaveDuty c).clk = c.clk ∧ (leaveDuty c).tmp = c.tmp ∧ (leaveDuty c).prs =
    c.prs ∧ (leaveDuty c).feedA = c.feedA ∧ (leaveDuty c).feedB = c.feedB ∧ (leaveDuty c).rail = c.rail ∧ (leaveDuty c).chg =
    c.chg ∧ (leaveDuty c).share = c.share ∧ (leaveDuty c).alert = c.alert ∧ (leaveDuty c).free = c.free ∧ (leaveDuty c).spurs
    = c.spurs ∧ (leaveDuty c).totals = c.totals ∧ (leaveDuty c).tag = c.tag ∧ (leaveDuty c).inn = c.inn ∧ (leaveDuty c).smb =
    c.smb ∧ (leaveDuty c).can = c.can ∧ (leaveDuty c).host = c.host ∧ (leaveDuty c).caravan = c.caravan ∧ (leaveDuty c).pair =
    c.pair ∧ (leaveDuty c).pins = c.pins ∧ (leaveDuty c).spi = c.spi := by
  simp only [leaveDuty, countDuty]; split <;> simp

@[simp] theorem setMode_frame (m : Mode) (c : Chip) :
    (setMode m c).now = c.now ∧ (setMode m c).vTop = c.vTop ∧ (setMode m c).atReset = c.atReset ∧ (setMode m c).ret = c.ret ∧
    (setMode m c).otp = c.otp ∧ (setMode m c).img = c.img ∧ (setMode m c).jrn = c.jrn ∧ (setMode m c).cal = c.cal ∧ (setMode m
    c).aux = c.aux ∧ (setMode m c).clk = c.clk ∧ (setMode m c).tmp = c.tmp ∧ (setMode m c).prs = c.prs ∧ (setMode m c).feedA =
    c.feedA ∧ (setMode m c).feedB = c.feedB ∧ (setMode m c).rail = c.rail ∧ (setMode m c).chg = c.chg ∧ (setMode m c).share =
    c.share ∧ (setMode m c).free = c.free ∧ (setMode m c).spurs = c.spurs ∧ (setMode m c).totals = c.totals ∧ (setMode m
    c).tag = c.tag ∧ (setMode m c).inn = c.inn ∧ (setMode m c).smb = c.smb ∧ (setMode m c).can = c.can ∧ (setMode m c).host =
    c.host ∧ (setMode m c).caravan = c.caravan ∧ (setMode m c).pair = c.pair ∧ (setMode m c).pins = c.pins ∧ (setMode m c).spi
    = c.spi := by
  simp only [setMode, leaveParked]; split <;> simp

@[simp] theorem enterCoupled_frame (c : Chip) :
    (enterCoupled c).now = c.now ∧ (enterCoupled c).vTop = c.vTop ∧ (enterCoupled c).atReset = c.atReset ∧ (enterCoupled
    c).ret = c.ret ∧ (enterCoupled c).otp = c.otp ∧ (enterCoupled c).img = c.img ∧ (enterCoupled c).jrn = c.jrn ∧
    (enterCoupled c).cal = c.cal ∧ (enterCoupled c).aux = c.aux ∧ (enterCoupled c).clk = c.clk ∧ (enterCoupled c).tmp = c.tmp
    ∧ (enterCoupled c).prs = c.prs ∧ (enterCoupled c).feedA = c.feedA ∧ (enterCoupled c).feedB = c.feedB ∧ (enterCoupled
    c).rail = c.rail ∧ (enterCoupled c).share = c.share ∧ (enterCoupled c).free = c.free ∧ (enterCoupled c).spurs = c.spurs ∧
    (enterCoupled c).totals = c.totals ∧ (enterCoupled c).tag = c.tag ∧ (enterCoupled c).inn = c.inn ∧ (enterCoupled c).smb =
    c.smb ∧ (enterCoupled c).host = c.host ∧ (enterCoupled c).caravan = c.caravan ∧ (enterCoupled c).pair = c.pair ∧
    (enterCoupled c).pins = c.pins ∧ (enterCoupled c).spi = c.spi := by
  simp [enterCoupled]

@[simp] theorem feedTo_frame (f : FeedId) (st : FeedSt) (inr : Option Inrush) (c : Chip) :
    (feedTo f st inr c).now = c.now ∧ (feedTo f st inr c).vTop = c.vTop ∧ (feedTo f st inr c).atReset = c.atReset ∧ (feedTo f
    st inr c).seq = c.seq ∧ (feedTo f st inr c).ret = c.ret ∧ (feedTo f st inr c).otp = c.otp ∧ (feedTo f st inr c).img =
    c.img ∧ (feedTo f st inr c).jrn = c.jrn ∧ (feedTo f st inr c).meas = c.meas ∧ (feedTo f st inr c).cal = c.cal ∧ (feedTo f
    st inr c).aux = c.aux ∧ (feedTo f st inr c).clk = c.clk ∧ (feedTo f st inr c).tmp = c.tmp ∧ (feedTo f st inr c).prs =
    c.prs ∧ (feedTo f st inr c).rail = c.rail ∧ (feedTo f st inr c).pack = c.pack ∧ (feedTo f st inr c).chg = c.chg ∧ (feedTo
    f st inr c).share = c.share ∧ (feedTo f st inr c).alert = c.alert ∧ (feedTo f st inr c).free = c.free ∧ (feedTo f st inr
    c).spurs = c.spurs ∧ (feedTo f st inr c).totals = c.totals ∧ (feedTo f st inr c).gauge = c.gauge ∧ (feedTo f st inr
    c).learn = c.learn ∧ (feedTo f st inr c).tag = c.tag ∧ (feedTo f st inr c).inn = c.inn ∧ (feedTo f st inr c).smb = c.smb ∧
    (feedTo f st inr c).can = c.can ∧ (feedTo f st inr c).host = c.host ∧ (feedTo f st inr c).caravan = c.caravan ∧ (feedTo f
    st inr c).pair = c.pair ∧ (feedTo f st inr c).pins = c.pins ∧ (feedTo f st inr c).spi = c.spi := by
  simp [feedTo]

@[simp] theorem feedOff_frame (f : FeedId) (st : FeedSt) (cause : Nat) (c : Chip) :
    (feedOff f st cause c).now = c.now ∧ (feedOff f st cause c).vTop = c.vTop ∧ (feedOff f st cause c).atReset = c.atReset ∧
    (feedOff f st cause c).seq = c.seq ∧ (feedOff f st cause c).ret = c.ret ∧ (feedOff f st cause c).otp = c.otp ∧ (feedOff f
    st cause c).img = c.img ∧ (feedOff f st cause c).jrn = c.jrn ∧ (feedOff f st cause c).meas = c.meas ∧ (feedOff f st cause
    c).cal = c.cal ∧ (feedOff f st cause c).aux = c.aux ∧ (feedOff f st cause c).clk = c.clk ∧ (feedOff f st cause c).tmp =
    c.tmp ∧ (feedOff f st cause c).prs = c.prs ∧ (feedOff f st cause c).rail = c.rail ∧ (feedOff f st cause c).pack = c.pack ∧
    (feedOff f st cause c).chg = c.chg ∧ (feedOff f st cause c).share = c.share ∧ (feedOff f st cause c).alert = c.alert ∧
    (feedOff f st cause c).free = c.free ∧ (feedOff f st cause c).spurs = c.spurs ∧ (feedOff f st cause c).totals = c.totals ∧
    (feedOff f st cause c).gauge = c.gauge ∧ (feedOff f st cause c).learn = c.learn ∧ (feedOff f st cause c).tag = c.tag ∧
    (feedOff f st cause c).inn = c.inn ∧ (feedOff f st cause c).smb = c.smb ∧ (feedOff f st cause c).can = c.can ∧ (feedOff f
    st cause c).host = c.host ∧ (feedOff f st cause c).caravan = c.caravan ∧ (feedOff f st cause c).pair = c.pair ∧ (feedOff f
    st cause c).pins = c.pins ∧ (feedOff f st cause c).spi = c.spi := by
  simp [feedOff]

@[simp] theorem noteCap_frame (f : FeedId) (x : Inrush) (c : Chip) :
    (noteCap f x c).now = c.now ∧ (noteCap f x c).vTop = c.vTop ∧ (noteCap f x c).atReset = c.atReset ∧ (noteCap f x c).seq =
    c.seq ∧ (noteCap f x c).ret = c.ret ∧ (noteCap f x c).otp = c.otp ∧ (noteCap f x c).img = c.img ∧ (noteCap f x c).jrn =
    c.jrn ∧ (noteCap f x c).meas = c.meas ∧ (noteCap f x c).cal = c.cal ∧ (noteCap f x c).aux = c.aux ∧ (noteCap f x c).clk =
    c.clk ∧ (noteCap f x c).tmp = c.tmp ∧ (noteCap f x c).prs = c.prs ∧ (noteCap f x c).pack = c.pack ∧ (noteCap f x c).chg =
    c.chg ∧ (noteCap f x c).share = c.share ∧ (noteCap f x c).alert = c.alert ∧ (noteCap f x c).free = c.free ∧ (noteCap f x
    c).spurs = c.spurs ∧ (noteCap f x c).totals = c.totals ∧ (noteCap f x c).gauge = c.gauge ∧ (noteCap f x c).learn = c.learn
    ∧ (noteCap f x c).tag = c.tag ∧ (noteCap f x c).inn = c.inn ∧ (noteCap f x c).smb = c.smb ∧ (noteCap f x c).can = c.can ∧
    (noteCap f x c).host = c.host ∧ (noteCap f x c).caravan = c.caravan ∧ (noteCap f x c).pair = c.pair ∧ (noteCap f x c).pins
    = c.pins ∧ (noteCap f x c).spi = c.spi := by
  simp [noteCap]

@[simp] theorem noteInrush_frame (f : FeedId) (c : Chip) :
    (noteInrush f c).now = c.now ∧ (noteInrush f c).vTop = c.vTop ∧ (noteInrush f c).atReset = c.atReset ∧ (noteInrush f
    c).seq = c.seq ∧ (noteInrush f c).ret = c.ret ∧ (noteInrush f c).otp = c.otp ∧ (noteInrush f c).img = c.img ∧ (noteInrush
    f c).jrn = c.jrn ∧ (noteInrush f c).meas = c.meas ∧ (noteInrush f c).cal = c.cal ∧ (noteInrush f c).aux = c.aux ∧
    (noteInrush f c).clk = c.clk ∧ (noteInrush f c).tmp = c.tmp ∧ (noteInrush f c).prs = c.prs ∧ (noteInrush f c).pack =
    c.pack ∧ (noteInrush f c).chg = c.chg ∧ (noteInrush f c).share = c.share ∧ (noteInrush f c).alert = c.alert ∧ (noteInrush
    f c).free = c.free ∧ (noteInrush f c).spurs = c.spurs ∧ (noteInrush f c).totals = c.totals ∧ (noteInrush f c).gauge =
    c.gauge ∧ (noteInrush f c).learn = c.learn ∧ (noteInrush f c).tag = c.tag ∧ (noteInrush f c).inn = c.inn ∧ (noteInrush f
    c).smb = c.smb ∧ (noteInrush f c).can = c.can ∧ (noteInrush f c).host = c.host ∧ (noteInrush f c).caravan = c.caravan ∧
    (noteInrush f c).pair = c.pair ∧ (noteInrush f c).pins = c.pins ∧ (noteInrush f c).spi = c.spi := by
  simp only [noteInrush]; (repeat' split) <;> simp

theorem setRooms_frame (c : Chip) (rs : List Room) :
    (setRooms c rs) = { c with inn := (setRooms c rs).inn } := by
  rfl

theorem updSlot_frame (n : Fin 8) (start : Nat) (f : Slot → Slot) (c : Chip) :
    (updSlot n start f c) = { c with inn := (updSlot n start f c).inn } := by
  rfl

theorem setTs_frame (k : TsId) (x : Sensor) (c : Chip) :
    (setTs k x c) = { c with tmp := (setTs k x c).tmp } := by
  unfold setTs; split <;> rfl

theorem tagEvent_frame (cause : Nat) (c : Chip) :
    (tagEvent cause c) = { c with
      ret := (tagEvent cause c).ret, jrn := (tagEvent cause c).jrn, alert := (tagEvent cause c).alert
      learn := (tagEvent cause c).learn, tag := (tagEvent cause c).tag } := by
  simp only [tagEvent]; (repeat' split) <;> simp

theorem impAbandon_frame (c : Chip) :
    (impAbandon c) = { c with learn := (impAbandon c).learn } := by
  rfl

theorem followCarrying_frame (c : Chip) :
    (followCarrying c) = { c with pack := (followCarrying c).pack } := by
  rfl

theorem pendDone_frame (op : Nat) (out : Nat × List Byte) (c : Chip) :
    (pendDone op out c) = { c with host := (pendDone op out c).host } := by
  unfold pendDone; (repeat' split) <;> rfl

theorem endAdoption_frame (c : Chip) :
    (endAdoption c) = { c with gauge := (endAdoption c).gauge, tag := (endAdoption c).tag } := by
  rfl

theorem endExchange_frame (c : Chip) :
    (endExchange c) = { c with tag := (endExchange c).tag } := by
  rfl

theorem probeSilent_frame (c : Chip) :
    (probeSilent c) = { c with tag := (probeSilent c).tag } := by
  rfl

theorem canOff_frame (c : Chip) :
    (canOff c) = { c with can := (canOff c).can } := by
  rfl

theorem beginCommit_frame (retried : Bool) (start : Time) (nvm : Nvm) (c : Chip) :
    (beginCommit retried start nvm c) = { c with jrn := (beginCommit retried start nvm c).jrn } := by
  unfold beginCommit; split <;> rfl

theorem kDiscard_frame (c : Chip) :
    (kDiscard c) = { c with pair := (kDiscard c).pair } := by
  rfl

theorem setResult_frame (id : CopyId) (r : CopyResult) (c : Chip) :
    (setResult id r c) = { c with img := (setResult id r c).img } := by
  unfold setResult; split <;> rfl

theorem nextStep_frame (k : Nat) (c : Chip) :
    (nextStep k c) = { c with seq := (nextStep k c).seq } := by
  rfl

theorem smbTransfer_frame (c : Chip) :
    (smbTransfer c) = { c with smb := (smbTransfer c).smb } := by
  rfl

theorem canSeen_frame (c : Chip) :
    (canSeen c) = { c with can := (canSeen c).can } := by
  rfl

theorem canAccept_frame (c : Chip) :
    (canAccept c) = { c with can := (canAccept c).can } := by
  rfl

theorem dropReasm_frame (addr : Nat) (c : Chip) :
    (dropReasm addr c) = { c with can := (dropReasm addr c).can } := by
  unfold dropReasm; split <;> rfl

theorem updSess_frame (h : Nat) (f : Sess → Sess) (c : Chip) :
    (updSess h f c) = { c with host := (updSess h f c).host } := by
  rfl

theorem pendStart_frame (op h : Nat) (c : Chip) :
    (pendStart op h c) = { c with host := (pendStart op h c).host } := by
  rfl

end Sys2Proof.Machine
end

