-- ==== Sys2Proof/Laws/Meanings.lean ====
section
/-! SUPPORT. What every meaning has in common: it runs one block function at the time of its command, so it answers a next
state, keeps the queue and leaves the NVM interface idle. -/

namespace Sys2Proof.Machine

/-- Every command runs a block function at its time. -/
theorem exec_runs (i : Instr) : ∃ (t : Time) (f : Nvm → Chip → Chip), ∀ s, exec i s = run t f s := by
  cases i <;> exact ⟨_, _, fun _ => rfl⟩

/-- Every command answers a next state, with the queue as it was. -/
theorem exec_next (i : Instr) (s : State) : ∃ u, exec i s = .next u ∧ u.pending = s.pending ∧ u.chip.spi = [] := by
  obtain ⟨t, f, h⟩ := exec_runs i
  exact ⟨runState t f s, h s, rfl, rfl⟩

end Sys2Proof.Machine
end

