-- ==== Sys2Proof/Laws/Nvm.lean ====
section
/-! SUPPORT. The NVM: reading after one write, and the canonical form that every write keeps. -/

namespace Sys2Proof.Machine

theorem Nvm.wfFrom_mono {lo lo' : Nat} {m : Nvm} (h : lo' ≤ lo) (w : Nvm.wfFrom lo m = true) : Nvm.wfFrom lo' m = true := by
  cases m with
  | nil => rfl
  | cons p m => simp only [Nvm.wfFrom, Bool.and_eq_true, decide_eq_true_eq] at w ⊢; exact ⟨⟨by omega, w.1.2⟩, w.2⟩

/-- A cell below the first listed address reads blank. -/
theorem Nvm.read_below {lo x : Nat} {m : Nvm} (w : Nvm.wfFrom lo m = true) (h : x < lo) : Nvm.read m x = nvmBlank := by
  cases m with
  | nil => rfl
  | cons p m =>
    simp only [Nvm.wfFrom, Bool.and_eq_true, decide_eq_true_eq] at w
    have h1 : x ≠ p.1 := by omega
    have h2 : x < p.1 := by omega
    simp [Nvm.read, h1, h2]

/-- A write keeps the cells from `lo` on canonical. -/
theorem Nvm.write_wfFrom {m : Nvm} : ∀ {lo x : Nat} {b : Byte}, Nvm.wfFrom lo m = true → lo ≤ x →
    Nvm.wfFrom lo (Nvm.write m x b) = true := by
  induction m with
  | nil => intro lo x b _ h; unfold Nvm.write; split <;> simp_all [Nvm.wfFrom]
  | cons p m ih =>
    intro lo x b w h
    obtain ⟨a, v⟩ := p
    simp only [Nvm.wfFrom, Bool.and_eq_true, decide_eq_true_eq, bne_iff_ne] at w
    obtain ⟨⟨w1, w2⟩, w3⟩ := w
    unfold Nvm.write
    split
    · split
      · simp [Nvm.wfFrom, w1, w2, w3]
      · next hb => simp [Nvm.wfFrom, h, hb, w2, w3]; omega
    · split
      · split
        · exact Nvm.wfFrom_mono (by omega) w3
        · next hb => simp [Nvm.wfFrom, w1, hb, w3]
      · simp only [Nvm.wfFrom, w1, Bool.and_eq_true, decide_eq_true_eq, bne_iff_ne, true_and]
        exact ⟨w2, ih w3 (by omega)⟩

/-- One byte reads back as it was written. -/
theorem Nvm.read_write_same {m : Nvm} : ∀ {lo x : Nat} {b : Byte}, Nvm.wfFrom lo m = true →
    Nvm.read (Nvm.write m x b) x = b := by
  induction m with
  | nil => intro lo x b _; unfold Nvm.write; split <;> simp_all [Nvm.read]
  | cons p m ih =>
    intro lo x b w
    obtain ⟨a, v⟩ := p
    simp only [Nvm.wfFrom, Bool.and_eq_true, decide_eq_true_eq] at w
    unfold Nvm.write
    split
    · next h => split <;> simp_all [Nvm.read, Nat.ne_of_lt h]
    · split
      · next h =>
        subst h
        split
        · next hb => rw [hb]; exact Nvm.read_below w.2 (by omega)
        · simp [Nvm.read]
      · next h1 h2 => simp [Nvm.read, h1, h2, ih w.2]

/-- Writing one byte leaves every other byte as it reads. -/
theorem Nvm.read_write_other {m : Nvm} : ∀ {lo x y : Nat} {b : Byte}, Nvm.wfFrom lo m = true → y ≠ x →
    Nvm.read (Nvm.write m x b) y = Nvm.read m y := by
  induction m with
  | nil => intro lo x y b _ h; unfold Nvm.write; split <;> simp_all [Nvm.read]
  | cons p m ih =>
    intro lo x y b w h
    obtain ⟨a, v⟩ := p
    simp only [Nvm.wfFrom, Bool.and_eq_true, decide_eq_true_eq] at w
    unfold Nvm.write
    split
    · next hx =>
      split
      · rfl
      · simp only [Nvm.read, h, if_false]
        split
        · next hy =>
          have h1 : y ≠ a := by omega
          have h2 : y < a := by omega
          simp [h1, h2]
        · rfl
    · split
      · next hx =>
        subst hx
        split
        · simp only [Nvm.read, h, if_false]
          split
          · next hy => exact Nvm.read_below w.2 (by omega)
          · rfl
        · simp [Nvm.read, h]
      · simp only [Nvm.read]
        split
        · rfl
        · split
          · rfl
          · exact ih w.2 h

/-- Every write keeps the canonical form. -/
theorem Nvm.write_wf {m : Nvm} (a : Nat) (b : Byte) (w : Nvm.wf m = true) : Nvm.wf (Nvm.write m a b) = true :=
  Nvm.write_wfFrom w (Nat.zero_le a)

theorem Nvm.writeBytes_wf {bs : List Byte} : ∀ {m : Nvm} {a : Nat}, Nvm.wf m = true → Nvm.wf (Nvm.writeBytes m a bs) = true := by
  induction bs with
  | nil => intro m a w; exact w
  | cons b bs ih => intro m a w; exact ih (Nvm.write_wf a b w)

theorem Nvm.apply_wf {ws : List (Nat × List Byte)} : ∀ {m : Nvm}, Nvm.wf m = true → Nvm.wf (m.apply ws) = true := by
  induction ws with
  | nil => intro m w; exact w
  | cons x ws ih => intro m w; exact ih (Nvm.writeBytes_wf w)

/-- The NVM of the state after reset is canonical. -/
theorem State.reset_nvm_wf : Nvm.wf State.reset.nvm = true := rfl

@[simp] theorem Nvm.apply_nil (m : Nvm) : m.apply [] = m := rfl

end Sys2Proof.Machine
end

