-- ==== Sys2Proof/Laws/State.lean ====
section
/-! SUPPORT. Small lemmas about the state: the passage of time, the pins at the end of a step, and the accessors of feeds,
channels, spurs and switch slots, so that no later proof unfolds a record update. -/

namespace Sys2Proof.Machine

@[simp] theorem tick_now (t : Time) (c : Chip) : (tick t c).now = max c.now t := rfl
@[simp] theorem tick_vTop (t : Time) (c : Chip) : (tick t c).vTop = c.vTop := rfl
@[simp] theorem tick_atReset (t : Time) (c : Chip) : (tick t c).atReset = false := rfl
@[simp] theorem tick_seq (t : Time) (c : Chip) : (tick t c).seq = c.seq := rfl
@[simp] theorem tick_ret (t : Time) (c : Chip) : (tick t c).ret = c.ret := rfl
@[simp] theorem tick_otp (t : Time) (c : Chip) : (tick t c).otp = c.otp := rfl
@[simp] theorem tick_img (t : Time) (c : Chip) : (tick t c).img = c.img := rfl
@[simp] theorem tick_jrn (t : Time) (c : Chip) : (tick t c).jrn = c.jrn := rfl
@[simp] theorem tick_meas (t : Time) (c : Chip) : (tick t c).meas = c.meas := rfl
@[simp] theorem tick_cal (t : Time) (c : Chip) : (tick t c).cal = c.cal := rfl
@[simp] theorem tick_aux (t : Time) (c : Chip) : (tick t c).aux = c.aux := rfl
@[simp] theorem tick_clk (t : Time) (c : Chip) : (tick t c).clk = c.clk := rfl
@[simp] theorem tick_tmp (t : Time) (c : Chip) : (tick t c).tmp = c.tmp := rfl
@[simp] theorem tick_prs (t : Time) (c : Chip) : (tick t c).prs = c.prs := rfl
@[simp] theorem tick_feedA (t : Time) (c : Chip) : (tick t c).feedA = c.feedA := rfl
@[simp] theorem tick_feedB (t : Time) (c : Chip) : (tick t c).feedB = c.feedB := rfl
@[simp] theorem tick_rail (t : Time) (c : Chip) : (tick t c).rail = c.rail := rfl
@[simp] theorem tick_pack (t : Time) (c : Chip) : (tick t c).pack = c.pack := rfl
@[simp] theorem tick_chg (t : Time) (c : Chip) : (tick t c).chg = c.chg := rfl
@[simp] theorem tick_share (t : Time) (c : Chip) : (tick t c).share = c.share := rfl
@[simp] theorem tick_alert (t : Time) (c : Chip) : (tick t c).alert = c.alert := rfl
@[simp] theorem tick_free (t : Time) (c : Chip) : (tick t c).free = c.free := rfl
@[simp] theorem tick_spurs (t : Time) (c : Chip) : (tick t c).spurs = c.spurs := rfl
@[simp] theorem tick_totals (t : Time) (c : Chip) : (tick t c).totals = c.totals := rfl
@[simp] theorem tick_gauge (t : Time) (c : Chip) : (tick t c).gauge = c.gauge := rfl
@[simp] theorem tick_learn (t : Time) (c : Chip) : (tick t c).learn = c.learn := rfl
@[simp] theorem tick_tag (t : Time) (c : Chip) : (tick t c).tag = c.tag := rfl
@[simp] theorem tick_inn (t : Time) (c : Chip) : (tick t c).inn = c.inn := rfl
@[simp] theorem tick_smb (t : Time) (c : Chip) : (tick t c).smb = c.smb := rfl
@[simp] theorem tick_can (t : Time) (c : Chip) : (tick t c).can = c.can := rfl
@[simp] theorem tick_host (t : Time) (c : Chip) : (tick t c).host = c.host := rfl
@[simp] theorem tick_caravan (t : Time) (c : Chip) : (tick t c).caravan = c.caravan := rfl
@[simp] theorem tick_pair (t : Time) (c : Chip) : (tick t c).pair = c.pair := rfl
@[simp] theorem tick_pins (t : Time) (c : Chip) : (tick t c).pins = c.pins := rfl
@[simp] theorem tick_spi (t : Time) (c : Chip) : (tick t c).spi = c.spi := rfl

@[simp] theorem settle_pins (c : Chip) : (settle c).pins = pinsOf c := rfl
@[simp] theorem settle_spi (c : Chip) : (settle c).spi = [] := rfl
@[simp] theorem settle_now (c : Chip) : (settle c).now = c.now := rfl
@[simp] theorem settle_vTop (c : Chip) : (settle c).vTop = c.vTop := rfl
@[simp] theorem settle_atReset (c : Chip) : (settle c).atReset = c.atReset := rfl
@[simp] theorem settle_seq (c : Chip) : (settle c).seq = c.seq := rfl
@[simp] theorem settle_ret (c : Chip) : (settle c).ret = c.ret := rfl
@[simp] theorem settle_otp (c : Chip) : (settle c).otp = c.otp := rfl
@[simp] theorem settle_img (c : Chip) : (settle c).img = c.img := rfl
@[simp] theorem settle_jrn (c : Chip) : (settle c).jrn = c.jrn := rfl
@[simp] theorem settle_meas (c : Chip) : (settle c).meas = c.meas := rfl
@[simp] theorem settle_cal (c : Chip) : (settle c).cal = c.cal := rfl
@[simp] theorem settle_aux (c : Chip) : (settle c).aux = c.aux := rfl
@[simp] theorem settle_clk (c : Chip) : (settle c).clk = c.clk := rfl
@[simp] theorem settle_tmp (c : Chip) : (settle c).tmp = c.tmp := rfl
@[simp] theorem settle_prs (c : Chip) : (settle c).prs = c.prs := rfl
@[simp] theorem settle_feedA (c : Chip) : (settle c).feedA = c.feedA := rfl
@[simp] theorem settle_feedB (c : Chip) : (settle c).feedB = c.feedB := rfl
@[simp] theorem settle_rail (c : Chip) : (settle c).rail = c.rail := rfl
@[simp] theorem settle_pack (c : Chip) : (settle c).pack = c.pack := rfl
@[simp] theorem settle_chg (c : Chip) : (settle c).chg = c.chg := rfl
@[simp] theorem settle_share (c : Chip) : (settle c).share = c.share := rfl
@[simp] theorem settle_alert (c : Chip) : (settle c).alert = c.alert := rfl
@[simp] theorem settle_free (c : Chip) : (settle c).free = c.free := rfl
@[simp] theorem settle_spurs (c : Chip) : (settle c).spurs = c.spurs := rfl
@[simp] theorem settle_totals (c : Chip) : (settle c).totals = c.totals := rfl
@[simp] theorem settle_gauge (c : Chip) : (settle c).gauge = c.gauge := rfl
@[simp] theorem settle_learn (c : Chip) : (settle c).learn = c.learn := rfl
@[simp] theorem settle_tag (c : Chip) : (settle c).tag = c.tag := rfl
@[simp] theorem settle_inn (c : Chip) : (settle c).inn = c.inn := rfl
@[simp] theorem settle_smb (c : Chip) : (settle c).smb = c.smb := rfl
@[simp] theorem settle_can (c : Chip) : (settle c).can = c.can := rfl
@[simp] theorem settle_host (c : Chip) : (settle c).host = c.host := rfl
@[simp] theorem settle_caravan (c : Chip) : (settle c).caravan = c.caravan := rfl
@[simp] theorem settle_pair (c : Chip) : (settle c).pair = c.pair := rfl

@[simp] theorem after_chip (t : Time) (f : Chip → Chip) (s : State) : (after t f s).chip = settle (f (tick t s.chip)) := rfl
@[simp] theorem after_nvm (t : Time) (f : Chip → Chip) (s : State) : (after t f s).nvm = s.nvm := rfl
@[simp] theorem after_pending (t : Time) (f : Chip → Chip) (s : State) : (after t f s).pending = s.pending := rfl
@[simp] theorem became_chip (c : Chip) (s : State) : (became c s).chip = settle c := rfl
@[simp] theorem became_nvm (c : Chip) (s : State) : (became c s).nvm = s.nvm.apply c.spi := rfl
@[simp] theorem became_pending (c : Chip) (s : State) : (became c s).pending = s.pending := rfl

/-! ### Feeds, channels, spurs -/

@[simp] theorem otherFeed_ne (f : FeedId) : otherFeed f ≠ f := by cases f <;> decide
@[simp] theorem feed_setFeed (c : Chip) (f : FeedId) (x : Feed) : feed (setFeed c f x) f = x := by cases f <;> rfl
@[simp] theorem feed_setFeed_other (c : Chip) (f : FeedId) (x : Feed) : feed (setFeed c f x) (otherFeed f) = feed c (otherFeed f) := by
  cases f <;> rfl
@[simp] theorem feed_updFeed (f : FeedId) (u : Feed → Feed) (c : Chip) : feed (updFeed f u c) f = u (feed c f) := by cases f <;> rfl
@[simp] theorem feed_updFeed_other (f : FeedId) (u : Feed → Feed) (c : Chip) :
    feed (updFeed f u c) (otherFeed f) = feed c (otherFeed f) := by cases f <;> rfl
@[simp] theorem chan_setChan (c : Chip) (k : ChId) (x : ModCh) : chan (setChan c k x) k = x := by cases k <;> rfl
@[simp] theorem chan_updChan (k : ChId) (u : ModCh → ModCh) (c : Chip) : chan (updChan k u c) k = u (chan c k) := by cases k <;> rfl
theorem chan_setChan_other (c : Chip) (k l : ChId) (x : ModCh) (h : l ≠ k) : chan (setChan c k x) l = chan c l := by
  cases k <;> cases l <;> first | rfl | exact absurd rfl h
@[simp] theorem spur_setSpur (c : Chip) (n : Fin 8) (x : Spur) : spur (setSpur c n x) n = x := by simp [spur, setSpur]
theorem spur_setSpur_other (c : Chip) (n m : Fin 8) (x : Spur) (h : m ≠ n) : spur (setSpur c n x) m = spur c m := by
  have h' : n.val ≠ m.val := fun e => h (Fin.ext e.symm)
  simp [spur, setSpur, h']
@[simp] theorem spur_updSpur (n : Fin 8) (u : Spur → Spur) (c : Chip) : spur (updSpur n u c) n = u (spur c n) := by
  simp [updSpur, spur, setSpur]
theorem spur_updSpur_other (n m : Fin 8) (u : Spur → Spur) (c : Chip) (h : m ≠ n) : spur (updSpur n u c) m = spur c m := by
  have h' : n.val ≠ m.val := fun e => h (Fin.ext e.symm)
  simp [updSpur, spur, setSpur, h']

/-! ### Steps -/

/-- A command whose block function acts as `g`, without a write to the NVM, leaves `after t g`. -/
theorem run_after {t : Time} {f : Nvm → Chip → Chip} {s : State} {g : Chip → Chip}
    (h : f s.nvm (tick t s.chip) = g (tick t s.chip)) (hs : (g (tick t s.chip)).spi = []) :
    run t f s = .next (after t g s) := by
  simp only [run, runState, after, h, hs]; rfl

/-- A command whose block function brings the gauge to `c` leaves `became c`. -/
theorem run_became {t : Time} {f : Nvm → Chip → Chip} {s : State} {c : Chip} (h : f s.nvm (tick t s.chip) = c) :
    run t f s = .next (became c s) := by subst h; rfl

/-- A step never touches the queue, and leaves the NVM interface idle. -/
theorem runState_pending (t : Time) (f : Nvm → Chip → Chip) (s : State) : (runState t f s).pending = s.pending := rfl
theorem runState_idle (t : Time) (f : Nvm → Chip → Chip) (s : State) : (runState t f s).chip.spi = [] := rfl

/-- What a step keeps, part by part. -/
theorem keeps_of_parts {ps : List Part} {a b : State} (hp : b.pending = a.pending) (h : ∀ p, p ∉ ps → p.same a b) :
    Keeps ps a b := ⟨hp, h⟩

theorem keeps_refl (ps : List Part) (a : State) : Keeps ps a a := ⟨rfl, fun p _ => by cases p <;> rfl⟩

theorem keeps_trans {ps qs : List Part} {a b c : State} (h : Keeps ps a b) (k : Keeps qs b c) : Keeps (ps ++ qs) a c :=
  ⟨k.1.trans h.1, fun p hp => by
    have hn : p ∉ ps ∧ p ∉ qs := by simpa using hp
    have h1 := h.2 p hn.1
    have h2 := k.2 p hn.2
    cases p <;> exact h2.trans h1⟩

theorem keeps_mono {ps qs : List Part} {a b : State} (h : Keeps ps a b) (hs : ∀ p ∈ ps, p ∈ qs) : Keeps qs a b :=
  ⟨h.1, fun p hp => h.2 p fun hq => hp (hs p hq)⟩

end Sys2Proof.Machine
end

