-- ==== Sys2Proof/WellFormed.lean ====
section
/-! DEFINITION. Which commands are well formed: every operand lies within the width that the spec gives it. -/

namespace Sys2Proof

/-- A Ruell frame: priority 3 bits, kind 5, device address 16, segment 5 (Table 14.4); the payload fits its format. -/
def RuellFrame.wf (f : RuellFrame) : Bool :=
  decide (f.prio < 8) && decide (f.kind < 32) && decide (f.device < 65536) && decide (f.seq < 32)
    && decide (f.data.length ≤ if f.fd then 64 else 8)

/-- A Kersor frame: SEQ and ACK are bytes and the payload has at most 64 (Table 15.2). -/
def KersorFrame.wf (f : KersorFrame) : Bool := decide (f.seq < 256) && decide (f.ack < 256) && decide (f.payload.length ≤ 64)

/-- A request: an SMBus message of 1 to 255 bytes (R668), or a frame. -/
def Delivery.wf : Delivery → Bool
  | .smbus m => decide (1 ≤ m.length) && decide (m.length ≤ 255)
  | .can f => f.wf

/-- A tag answers with at most 512 bytes and their CRC-16 (R547, Table 12.2). -/
def TagResult.wf : TagResult → Bool
  | .silent => true
  | .answer b => decide (b.length ≤ 514)

/-- A SEND carries as many data bytes as its byte count says (R668). -/
def SmbSend.wf (x : SmbSend) : Bool := decide (x.count ≤ 255) && x.data.length == x.count

/-- The command is well formed. -/
def Instr.wf : Instr → Bool
  | .powerOnResetRelease _ _ _ _ => true
  | .powerOnResetAssert _ _ _ => true
  | .rstNLow _ _ => true
  | .watchdogTimeout _ _ _ => true
  | .coreBrownout _ _ _ => true
  | .ramParityError _ _ => true
  | .supplyCollapse _ _ _ => true
  | .configureStepComplete _ _ => true
  | .otpProgramStart _ _ _ => true
  | .otpProgramDone _ => true
  | .shipNRequest _ _ => true
  | .shipRequestLapse _ _ => true
  | .shutdownStepComplete _ => true
  | .shipWake _ _ _ _ _ => true
  | .wakeLockoutRelease _ _ _ _ => true
  | .limpFeedSetDecided _ _ _ _ _ _ => true
  | .limpFloor _ _ _ => true
  | .fastWord _ _ _ _ _ _ => true
  | .preciseWord _ _ _ _ _ _ => true
  | .modulatorReset _ _ _ => true
  | .fastTripFire _ _ _ => true
  | .fastTripVerdict _ _ sum => decide (sum ≤ 960)
  | .slowChopBlockPair _ _ plus minus => plus.length == 4 && minus.length == 4
  | .auxConversionComplete _ code _ => decide (code < 65536)
  | .tsBiasFault _ _ ppm => decide (ppm ≤ 1000000)
  | .spurTotalOverload _ => true
  | .crystalFail _ _ _ => true
  | .modClockFault _ _ _ => true
  | .coreTrimExhausted _ _ _ => true
  | .domainClockFault _ _ _ _ => true
  | .queueOverflow _ _ _ => true
  | .lptCalibration _ _ _ => true
  | .calPointComplete _ => true
  | .calPointTimeout _ => true
  | .isothermalCheck _ => true
  | .feedWindowCrossing _ _ _ _ => true
  | .insertionDelayExpiry _ _ => true
  | .inrushStart _ _ => true
  | .inrushGovernorUpdate _ _ => true
  | .inrushTimeout _ _ => true
  | .inrushComplete _ _ _ _ _ => true
  | .feedFastReverse _ _ _ => true
  | .feedReenableStart _ _ _ _ => true
  | .dropTargetAdapt _ _ => true
  | .feedRetryWaitExpiry _ _ => true
  | .feedRetryCountReset _ _ => true
  | .feedUncoupled _ _ _ _ => true
  | .feedReversed _ _ _ _ => true
  | .feedReversalClear _ _ _ _ => true
  | .feedMirageCheck _ _ => true
  | .kelvinTestStart _ _ => true
  | .kelvinTestEnd _ _ _ _ => true
  | .chargePumpLow _ _ _ => true
  | .chargePumpReady _ _ _ => true
  | .prechargeStart _ => true
  | .prechargeComplete _ _ _ _ => true
  | .prechargeTimeout _ => true
  | .packReenable _ _ _ => true
  | .packStandDown _ _ => true
  | .packFastReverse _ _ => true
  | .chargeStart _ => true
  | .chargeSetpointUpdate _ => true
  | .chargeLimitStep _ _ => true
  | .chargeTrim _ => true
  | .chargeHandBack _ _ => true
  | .chargerFault _ _ _ _ => true
  | .shareLoopUpdate _ code => decide (code < 1024)
  | .shareFault _ code _ => decide (code < 1024)
  | .packMirageCheck _ => true
  | .packMirageFeedStop _ _ _ => true
  | .packReversed _ _ _ => true
  | .packReversalClear _ _ _ => true
  | .packRetryWaitExpiry _ => true
  | .packRetryCountReset _ => true
  | .spurRampComplete _ _ _ => true
  | .spurRampdownComplete _ _ _ => true
  | .spurCurrentLimit _ _ _ => true
  | .spurLimitHeld _ _ _ => true
  | .spurRampDeadline _ _ _ => true
  | .spurThermalShutdown _ _ _ => true
  | .spurThermalCooled _ _ _ => true
  | .spurBackfeedOn _ _ _ => true
  | .spurBlockedRelease _ _ => true
  | .spurRetryWaitExpiry _ _ => true
  | .spurRetryCountReset _ _ => true
  | .spurFaultedProbe _ _ => true
  | .spurProbeSuccess _ _ => true
  | .spurOffStateTestEnd _ _ _ => true
  | .spurContinuousDiagnosis _ _ _ => true
  | .governorOnWindow _ _ => true
  | .governorSecond _ => true
  | .wakeComparatorCrossing _ _ => true
  | .burstEnd _ _ _ => true
  | .countGap _ => true
  | .restSecond _ => true
  | .anchorDue _ => true
  | .estimatorUpdate _ => true
  | .endOfChargeDeclared _ => true
  | .endOfDischargeDeclared _ => true
  | .firstEstimate _ => true
  | .impedancePhaseEnd _ => true
  | .periodicJournalCommit _ => true
  | .periodicTagWrite _ => true
  | .tagTransactionComplete _ res => res.wf
  | .tagProbe _ _ => true
  | .getResponsePoll _ => true
  | .signatureVerified _ => true
  | .exchangeAbandon _ => true
  | .adoptionAbandon _ => true
  | .tagWriteStart _ => true
  | .tagRecordSigned _ => true
  | .tagCommitWaitExpiry _ => true
  | .pkIdPinFault _ _ _ => true
  | .pkIdDriverResume _ => true
  | .slotTick _ => true
  | .slotProvisionalDecision _ _ => true
  | .canStartForSlot _ _ => true
  | .slotFinalDecision _ _ => true
  | .slotPlannedEnd _ _ => true
  | .slotEndRead _ _ code _ => decide (code < 65536)
  | .slotLate _ g => decide (g < 1024)
  | .cellarFillComplete _ => true
  | .ledgerCheck _ => true
  | .spurCutRelease _ _ => true
  | .smbusSendDiscarded _ x => x.wf
  | .smbusFetch _ => true
  | .smbusZeroLengthRead _ => true
  | .smbusClockTimeout _ _ => true
  | .smbStuck _ _ => true
  | .alertResponseRead _ _ _ => true
  | .wakeNPulseEnd _ => true
  | .ruellSegmentDiscarded _ f => f.wf
  | .reassemblyTimeout _ sender => decide (sender < 65536)
  | .canFrameIgnored _ _ => true
  | .ownAddressFrame _ f => f.wf
  | .sessionResponseRelease _ _ => true
  | .sessionIdleTimeout _ h => decide (1 ≤ h) && decide (h ≤ 8)
  | .sessionHalfOpenTimeout _ h => decide (1 ≤ h) && decide (h ≤ 8)
  | .sessionLockoutEnd _ => true
  | .pendingOutcomeReady _ => true
  | .cmdRead _ d => d.wf
  | .cmdGuestRead _ d => d.wf
  | .cmdJournalRead _ d => d.wf
  | .cmdResult _ d => d.wf
  | .cmdSessionOpen _ d => d.wf
  | .cmdSessionConfirm _ d => d.wf
  | .cmdSessionClose _ d => d.wf
  | .cmdSetTime _ d => d.wf
  | .cmdShip _ d => d.wf
  | .cmdClearSticky _ d => d.wf
  | .cmdGuestRevoke _ d => d.wf
  | .cmdGuestRestore _ d => d.wf
  | .cmdDepot _ d => d.wf
  | .cmdDepotExit _ d => d.wf
  | .cmdRestart _ d => d.wf
  | .restartAfterResponse _ _ _ => true
  | .cmdCalPoint _ d => d.wf
  | .cmdTagRead _ d => d.wf
  | .cmdTagWrite _ d => d.wf
  | .cmdImageBegin _ d => d.wf
  | .cmdImageWrite _ d => d.wf
  | .cmdImageCheck _ d => d.wf
  | .unknownOpcode _ d => d.wf
  | .canBusOff _ => true
  | .canRxStuck _ _ => true
  | .canFrameDropped _ => true
  | .wakeNWake _ _ => true
  | .wakeNStuck _ _ => true
  | .canRxWake _ _ => true
  | .canDomainStop _ => true
  | .canOwnWake _ => true
  | .timeSyncSend _ => true
  | .timeSync _ src seq => decide (src < 65536) && decide (seq < 32)
  | .timeFollow _ src seq _ _ => decide (src < 65536) && decide (seq < 32)
  | .timeSourceLost _ => true
  | .kersorLockAcquired _ _ _ => true
  | .kersorLockLost _ _ => true
  | .kersorFrameDiscarded _ => true
  | .kersorRetransmit _ => true
  | .heartbeat _ f => f.wf
  | .join _ f => f.wf
  | .summary _ f => f.wf
  | .guestRecord _ f => f.wf
  | .provisional _ f => f.wf
  | .close _ f => f.wf
  | .leaving _ f => f.wf
  | .restore _ f => f.wf
  | .recordsEnd _ f => f.wf
  | .pairLinkLost _ => true
  | .pairProbePhase _ phase code => decide (phase < 3) && decide (code < 1024)
  | .pairProbeDecision _ => true
  | .pairSplitProbeRepeat _ => true
  | .pairJoinSend _ => true
  | .pairJoinTimeout _ => true
  | .journalCommitStart _ => true
  | .nvmWriteComplete _ _ => true
  | .journalWriteTimeout _ => true
  | .stickyReassert _ => true
  | .rstNRelease _ _ => true
  | .retentionLoss _ _ => true
  | .busOffRecovered _ => true
  | .canRxStuckRetry _ _ => true
  | .ruellRequestSegment _ f => f.wf

end Sys2Proof
end

