-- ==== Sys2Proof/Tests/Slice0.lean ====
section
/-! SUPPORT. Small tests: the refusals of the checks of WellFormed.lean, published vectors of the standard algorithms, single
steps with results read off the spec, and, for each statement of the certificate, states and operands that meet what its
clauses suppose. -/

section

set_option Elab.async false

namespace Sys2Proof.Tests

open Sys2Proof.Machine

/-- `State.reset` with the chip changed by `f`. -/
def st (f : Chip → Chip) : State := { State.reset with chip := f State.reset.chip }
/-- `State.reset` in mode `m`, with the chip changed by `f`. -/
def md (m : Mode) (f : Chip → Chip := id) : State := st fun c => f { c with seq.mode := m }
/-- A request that passes orders 1 … 6, with what `Accepted` gives. -/
def accepted (d : Delivery) (c : Chip) : Option (Request × Who × Option (List Byte) × Chip) :=
  match receive d c with
  | (some r, c0) => match admitRequest r c0 with
    | (.ok w, c') => some (r, w, (sessOf r c0).map (·.ks), c')
    | _ => none
  | _ => none
/-- It is what `Accepted` says. -/
theorem accepted_spec {d : Delivery} {c c' : Chip} {r : Request} {w : Who} {ks : Option (List Byte)}
    (h : accepted d c = some (r, w, ks, c')) : Accepted d c r w ks c' := by
  unfold accepted at h
  split at h
  · rename_i r0 c0 e
    split at h
    · rename_i w0 c1 e'
      simp only [Option.some.injEq, Prod.mk.injEq] at h
      obtain ⟨rfl, rfl, rfl, rfl⟩ := h
      exact ⟨c0, e, rfl, e'⟩
    · cases h
  · cases h

/-- A request that arrives whole. -/
def received (d : Delivery) (c : Chip) : Option (Request × Chip) := (receive d c).1.map fun r => (r, (receive d c).2)

/-- The chip after a command, where it answers a next state. -/
def chipAfter (i : Instr) (s : State) : Option Chip :=
  match exec i s with
  | .next u => some u.chip
  | _ => none

/-! ### The checks of WellFormed.lean refuse -/

/-- A frame that keeps every width. -/
def plainFrame : RuellFrame := { prio := 0, kind := 1, device := 9, seq := 0, data := [1], fd := false }

theorem test_wf_plain_frame : (Instr.ownAddressFrame 0 plainFrame).wf = true := by decide
theorem test_wf_refuses_priority : (Instr.ownAddressFrame 0 { plainFrame with prio := 8 }).wf = false := by decide
theorem test_wf_refuses_kind : (Instr.ownAddressFrame 0 { plainFrame with kind := 32 }).wf = false := by decide
theorem test_wf_refuses_device : (Instr.ownAddressFrame 0 { plainFrame with device := 65536 }).wf = false := by decide
theorem test_wf_refuses_segment : (Instr.ownAddressFrame 0 { plainFrame with seq := 32 }).wf = false := by decide
theorem test_wf_refuses_long_classic : (Instr.ownAddressFrame 0 { plainFrame with data := List.replicate 9 0 }).wf = false := by decide
theorem test_wf_refuses_long_fd :
    (Instr.ownAddressFrame 0 { plainFrame with data := List.replicate 65 0, fd := true }).wf = false := by decide +kernel
theorem test_wf_refuses_kersor_seq : (Instr.heartbeat 0 { seq := 256, ack := 0, payload := [] }).wf = false := by decide
theorem test_wf_refuses_kersor_ack : (Instr.heartbeat 0 { seq := 0, ack := 256, payload := [] }).wf = false := by decide
theorem test_wf_refuses_kersor_payload : (Instr.heartbeat 0 { seq := 0, ack := 0, payload := List.replicate 65 0 }).wf = false := by decide +kernel
theorem test_wf_refuses_empty_request : (Instr.cmdRead 0 (.smbus [])).wf = false := by decide
theorem test_wf_refuses_long_request : (Instr.cmdRead 0 (.smbus (List.replicate 256 0))).wf = false := by decide +kernel
theorem test_wf_refuses_request_frame : (Instr.cmdRead 0 (.can { plainFrame with kind := 32 })).wf = false := by decide
theorem test_wf_refuses_long_answer :
    (Instr.tagTransactionComplete 0 (.answer (List.replicate 515 0))).wf = false := by decide +kernel
theorem test_wf_refuses_send_count : (Instr.smbusSendDiscarded 0 { count := 256, data := List.replicate 256 0, pec := none }).wf = false := by
  decide +kernel
theorem test_wf_refuses_send_data : (Instr.smbusSendDiscarded 0 { count := 2, data := [1], pec := none }).wf = false := by decide
theorem test_wf_refuses_confirmation_sum : (Instr.fastTripVerdict 0 .a 961).wf = false := by decide
theorem test_wf_refuses_chop_blocks : (Instr.slowChopBlockPair 0 .iA [0, 0, 0, 0] [0, 0, 0]).wf = false := by decide
theorem test_wf_refuses_aux_code : (Instr.auxConversionComplete 0 65536 false).wf = false := by decide
theorem test_wf_refuses_ratio : (Instr.tsBiasFault 0 .ts1 1000001).wf = false := by decide
theorem test_wf_refuses_guest_index : (Instr.slotLate 0 1024).wf = false := by decide
theorem test_wf_refuses_handle : (Instr.sessionIdleTimeout 0 9).wf = false := by decide
theorem test_wf_refuses_probe_phase : (Instr.pairProbePhase 0 3 0).wf = false := by decide

/-! ### Published vectors: FIPS 180-4, FIPS 197, RFC 4493, RFC 6979, and the check values of the CRCs -/

theorem test_sha256_abc :
    Crypto.sha256 (Crypto.beBytes 3 0x616263) =
      Crypto.beBytes 32 0xba7816bf8f01cfea414140de5dae2223b00361a396177a9cb410ff61f20015ad := by decide +kernel

theorem test_aes128_block :
    Crypto.aesEncrypt (Crypto.beBytes 16 0x000102030405060708090a0b0c0d0e0f) (Crypto.beBytes 16 0x00112233445566778899aabbccddeeff) =
      Crypto.beBytes 16 0x69c4e0d86a7b0430d8cdb78070b4c55a := by decide +kernel

theorem test_aes128_inverse :
    Crypto.aesDecrypt (Crypto.beBytes 16 0x000102030405060708090a0b0c0d0e0f) (Crypto.beBytes 16 0x69c4e0d86a7b0430d8cdb78070b4c55a) =
      Crypto.beBytes 16 0x00112233445566778899aabbccddeeff := by decide +kernel

theorem test_cmac_block :
    Crypto.aesCmac (Crypto.beBytes 16 0x2b7e151628aed2a6abf7158809cf4f3c) (Crypto.beBytes 16 0x6bc1bee22e409f96e93d7e117393172a) =
      Crypto.beBytes 16 0x070a16b46b4d4144f79bdd9dd04a287c := by decide +kernel

theorem test_ecdsa_sample :
    Crypto.ecdsaVerify
      (Crypto.leBytes 32 0x60FED4BA255A9D31C961EB74C6356D68C049B8923B61FA6CE669622E60F29FB6 ++
        Crypto.leBytes 32 0x7903FE1008B8BC99A41AE9E95628BC64F2F1B20C2D7E9F5177A3C294D4462299)
      (Crypto.beBytes 6 0x73616d706c65)
      (Crypto.leBytes 32 0xEFD48B2AACB6A8FD1140DD9CD45E81D69D2C877B56AAF991C34D0EA84EAF3716 ++
        Crypto.leBytes 32 0xF7CB1C942D657C41D436C7A1B6E29F65F3E900DBB9AFF4064DC4AB2F843ACDA8) = true := by decide +kernel

theorem test_crc32_check : crc32 (Crypto.beBytes 9 0x313233343536373839) = 0xCBF43926 := by decide +kernel
theorem test_crc16_check : crc16 (Crypto.beBytes 9 0x313233343536373839) = 0x29B1 := by decide +kernel
theorem test_pec_check : pec (Crypto.beBytes 9 0x313233343536373839) = 0xF4 := by decide +kernel

/-! ### Single steps -/

/-- R136: an input above 8.0 V for 50 ms ends SHIP. -/
theorem test_ship_wake :
    (chipAfter (.shipWake (sec 1) .a 8001 (ms 50) .opn) (md .ship fun c => { c with ret.wakeArmed := true })).map (·.seq.mode) =
      some .configure := by decide +kernel

/-- R136: 8.0 V itself does not. -/
theorem test_ship_stays :
    (chipAfter (.shipWake (sec 1) .a 8000 (ms 50) .opn) (md .ship fun c => { c with ret.wakeArmed := true })).map (·.seq.mode) =
      some .ship := by decide +kernel

/-- R47: RST_N low for 5 µs resets; Table 2.3: FAULT_N is low in reset. -/
theorem test_rst_n :
    (chipAfter (.rstNLow 7 (us 5)) (md .coupled)).map (fun c => (c.seq.mode, c.pins.faultN)) = some (.reset, .low) := by
  decide +kernel

/-- Table 4.2: CONFIGURE begins with step 0. -/
theorem test_reset_release :
    (chipAfter (.rstNRelease 7 .opn) (md .reset)).map (fun c => (c.seq.mode, c.seq.step)) = some (.configure, 0) := by decide +kernel

/-- R787: a fault that Table 16.1 marks holds FAULT_N low. -/
theorem test_fault_n :
    (chipAfter (.shipRequestLapse 9 true) (md .coupled fun c => setFault (F.feedShort .a) c)).map (·.pins.faultN) = some .low := by
  decide +kernel

end Sys2Proof.Tests

namespace Sys2Proof.Tests.Modes

open Sys2Proof.Machine

/-- Step `k` of a shut-down sequence that SHIP_N asked for. -/
def sd (k : Nat) (c : Chip) : Chip := { c with seq := { c.seq with shutStep := k, shutNow := .shipN, shutStart := 2 } }

/-- What the clauses of `GaugeResetsRestartIt` suppose can be met. -/
theorem witness_RstPinResetsTheGauge :
    (∃ (s : State) (lowNs : Time), s.chip.spi = [] ∧ (lowNs < us 2 ∨ running s.chip = false)) ∧
    (∃ (s : State), s.chip.spi = [] ∧ s.chip.seq.mode ≠ Mode.reset) ∧
    (∃ (s : State), s.chip.spi = [] ∧ s.chip.seq.mode = Mode.reset) ∧
    (∃ (s : State) (lowNs : Time), s.chip.spi = [] ∧ running s.chip = true ∧ us 5 ≤ lowNs) ∧
    (∃ (s : State) (lowNs : Time), s.chip.spi = [] ∧ running s.chip = true ∧ us 2 ≤ lowNs ∧ lowNs < us 5) :=
  ⟨⟨md .unpowered, 0, by decide +kernel⟩,
   ⟨md .unpowered, by decide +kernel⟩,
   ⟨md .reset, by decide +kernel⟩,
   ⟨md .configure, us 5, by decide +kernel⟩,
   ⟨md .configure, 3599, by decide +kernel⟩⟩

/-- What the clauses of `GaugeResetsRestartIt` suppose can be met. -/
theorem witness_CriticalResetsRestartConfigure :
    (∃ (s : State), running s.chip = false ∧ s.chip.spi = []) ∧
    (∃ (s : State) (ns : Time), running s.chip = true ∧ ms 50 ≤ ns) ∧
    (∃ (s : State) (ns : Time), running s.chip = true ∧ s.chip.spi = [] ∧ ns < ms 50) ∧
    (∃ (s : State) (ns : Time), running s.chip = true ∧ us 10 < ns) ∧
    (∃ (s : State) (ns : Time), running s.chip = true ∧ s.chip.spi = [] ∧ ns ≤ us 10) :=
  ⟨⟨md .unpowered, by decide +kernel⟩,
   ⟨md .configure, ms 50, by decide +kernel⟩,
   ⟨md .configure, 0, by decide +kernel⟩,
   ⟨md .configure, us 10 + 1, by decide +kernel⟩,
   ⟨md .configure, 0, by decide +kernel⟩⟩

/-- What the clauses of `GaugeResetsRestartIt` suppose can be met. -/
theorem witness_RestartFollowsItsResponse :
    (∃ (s : State), s.chip.spi = [] ∧ (running s.chip = false ∨ s.chip.seq.restartAt = none)) ∧
    (∃ (s : State) (t t0 : Time), running s.chip = true ∧ s.chip.seq.restartAt = some t0 ∧ s.chip.spi = [] ∧ max s.chip.now t
      < t0 + ms 10) ∧
    (∃ (s : State) (t t0 : Time), running s.chip = true ∧ s.chip.seq.restartAt = some t0 ∧ t0 + ms 10 ≤ max s.chip.now t) :=
  ⟨⟨md .unpowered, by decide +kernel⟩,
   ⟨md .parked (fun c => { c with ret.armed := some { byPin := true, until_ := 5 }, seq.restartAt := some 5 }), 0, 5, by decide +kernel⟩,
   ⟨md .parked (fun c => { c with ret.armed := some { byPin := true, until_ := 5 }, seq.restartAt := some 5 }), ms 50, 5, by decide +kernel⟩⟩

/-- What the clauses of `ShipRequestsAreTakenArmedAndLapse` suppose can be met. -/
theorem witness_ShipRequestInParkedStartsTheSequence :
    (∃ (s : State) (ns : Nat), s.chip.spi = [] ∧ (s.chip.seq.mode = Mode.parked ∨ s.chip.seq.mode = Mode.limp ∧ anyFeed s.chip
      = false) ∧ ms 1 ≤ ns ∧ (
      let acts : Prop := ms 10 ≤ ns ∨ Config.pulseActs s.chip.free = true
      acts ∧ s.chip.seq.shutStep = 0)) ∧
    (∃ (s : State) (ns : Nat), s.chip.spi = [] ∧ (s.chip.seq.mode = Mode.parked ∨ s.chip.seq.mode = Mode.limp ∧ anyFeed s.chip
      = false) ∧ ms 1 ≤ ns ∧ (
      let acts : Prop := ms 10 ≤ ns ∨ Config.pulseActs s.chip.free = true
      acts ∧ s.chip.seq.shutStep ≠ 0)) :=
  ⟨⟨md .parked, ms 10, by decide +kernel⟩,
   ⟨md .parked (sd 1), ms 10, by decide +kernel⟩⟩

/-- What the clauses of `ShipRequestsAreTakenArmedAndLapse` suppose can be met. -/
theorem witness_ShipRequestsAreArmedAndLapse :
    (∃ (s : State) (ns : Time), s.chip.spi = [] ∧ (ns < ms 1 ∨ running s.chip = false)) ∧
    (∃ (s : State), s.chip.spi = [] ∧ s.chip.ret.armed = none) ∧
    (∃ (s : State) (ns : Time), s.chip.spi = [] ∧ running s.chip = true ∧ ms 10 ≤ ns ∧ s.chip.seq.mode ≠ Mode.parked ∧
      (s.chip.seq.mode = Mode.limp → anyFeed s.chip = true)) ∧
    (∃ (s : State) (ns : Time), s.chip.spi = [] ∧ running s.chip = true ∧ ms 1 ≤ ns ∧ ns < ms 10 ∧ s.chip.seq.mode ≠
      Mode.parked ∧ (s.chip.seq.mode = Mode.limp → anyFeed s.chip = true)) ∧
    (∃ (s : State), s.chip.spi = [] ∧ s.chip.ret.armed.isSome = true) :=
  ⟨⟨md .unpowered, 0, by decide +kernel⟩,
   ⟨md .unpowered, by decide +kernel⟩,
   ⟨md .configure, ms 10, by decide +kernel⟩,
   ⟨md .configure, ms 1, by decide +kernel⟩,
   ⟨md .parked (fun c => { c with ret.armed := some { byPin := true, until_ := 5 }, seq.restartAt := some 5 }), by decide +kernel⟩⟩

/-- What the clauses of `ShutdownStepsRunInOrder` suppose can be met. -/
theorem witness_ShutdownStepsRunInOrder :
    (∃ (s : State), s.chip.spi = [] ∧ s.chip.seq.shutStep = 0) ∧
    (∃ (s : State), s.chip.spi = [] ∧ s.chip.seq.shutStep = 1) ∧
    (∃ (s : State), s.chip.spi = [] ∧ s.chip.seq.shutStep = 2 ∧ slotsOver s.chip = true) ∧
    (∃ (s : State), s.chip.spi = [] ∧ s.chip.seq.shutStep = 4) ∧
    (∃ (s : State), s.chip.spi = [] ∧ s.chip.seq.shutStep = 5 ∧ shutOver 5 s.chip = true) ∧
    (∃ (s : State), s.chip.spi = [] ∧ s.chip.seq.shutStep = 6) ∧
    (∃ (s : State), s.chip.spi = [] ∧ s.chip.seq.shutStep = 7) ∧
    (∃ (s : State), s.chip.spi = [] ∧ s.chip.seq.shutStep = 8 ∧ lockoutDue s.chip = false) ∧
    (∃ (s : State) (t : Time) (k : Nat), s.chip.spi = [] ∧ s.chip.seq.shutStep = k ∧ 1 ≤ k ∧ k ≤ 7 ∧ shutOver k (tick t
      s.chip) = false) ∧
    (∃ (s : State) (t : Time), s.chip.spi = [] ∧ s.chip.seq.shutStep = 3 ∧ shutWriteOver (tick t s.chip) = true ∧ linkRuns
      s.chip = true) :=
  ⟨⟨md .unpowered, by decide +kernel⟩,
   ⟨md .parked (sd 1), by decide +kernel⟩,
   ⟨md .parked (sd 2), by decide +kernel⟩,
   ⟨md .parked (sd 4), by decide +kernel⟩,
   ⟨md .parked (sd 5), by decide +kernel⟩,
   ⟨md .parked (sd 6), by decide +kernel⟩,
   ⟨md .parked (sd 7), by decide +kernel⟩,
   ⟨md .parked (sd 8), by decide +kernel⟩,
   ⟨md .parked (fun c => { sd 5 c with jrn.opened := true, jrn.request := true }), 0, 5, by decide +kernel⟩,
   ⟨md .parked (fun c => { sd 3 c with pair.st := .joined, seq.strap := .dgnd }), 0, by decide +kernel⟩⟩

/-- What the clauses of `GaugeResetsRestartIt` suppose can be met. -/
theorem witness_PowerOnResetStartsAndStopsTheGauge :
    (∃ (s : State) (vTop : Int), s.chip.seq.mode = Mode.unpowered ∧ 4500 ≤ vTop) ∧
    (∃ (s : State) (vTop : Int) (ok : Bool), s.chip.spi = [] ∧ (s.chip.seq.mode ≠ Mode.unpowered ∨ vTop < 4500 ∨ ok = false)) ∧
    (∃ (s : State) (vHold vTop : Int), s.chip.spi = [] ∧ (3600 ≤ vHold ∨ 3600 ≤ vTop ∨ s.chip.seq.mode = Mode.ship ∨
      s.chip.seq.mode = Mode.unpowered)) ∧
    (∃ (s : State) (mv : Int), s.chip.spi = [] ∧ mv < 2000 ∧ (s.chip.seq.mode = Mode.unpowered ∨ s.chip.seq.mode = Mode.ship)) ∧
    (∃ (s : State) (mv : Int), s.chip.spi = [] ∧ (2000 ≤ mv ∨ s.chip.seq.mode ≠ Mode.unpowered ∧ s.chip.seq.mode ≠ Mode.ship)) ∧
    (∃ (s : State) (vHold vTop : Int), s.chip.seq.mode ≠ Mode.ship ∧ s.chip.seq.mode ≠ Mode.unpowered ∧ vHold < 3600 ∧ vTop <
      3600) :=
  ⟨⟨md .unpowered, 4500, by decide +kernel⟩,
   ⟨md .unpowered, 7999, false, by decide +kernel⟩,
   ⟨md .unpowered, 7999, 7999, by decide +kernel⟩,
   ⟨md .unpowered, 0, by decide +kernel⟩,
   ⟨md .reset, 7999, by decide +kernel⟩,
   ⟨md .reset, 0, 0, by decide +kernel⟩⟩

/-- What the clauses of `LockoutReleaseAndSupplyCollapse` suppose can be met. -/
theorem witness_WakeLockoutIsReleased :
    (∃ (s : State) (t : Time) (mA mB : Int) (ns : Time), s.chip.spi = [] ∧ s.chip.seq.mode = Mode.ship ∧ (8000 ≤ mA ∨ 8000 ≤
      mB ∨ min ns (max s.chip.now t - s.chip.seq.shipSince) < sec 1)) ∧
    (∃ (s : State) (t : Time) (mA mB : Int) (ns : Time), s.chip.spi = [] ∧ s.chip.seq.mode = Mode.ship ∧ mA < 8000 ∧ mB < 8000
      ∧ sec 1 ≤ min ns (max s.chip.now t - s.chip.seq.shipSince)) ∧
    (∃ (s : State), s.chip.spi = [] ∧ s.chip.seq.mode = Mode.ship ∧ s.chip.ret.wakeArmed = false) :=
  ⟨⟨md .ship, 5, 7999, 8000, 5, by decide +kernel⟩,
   ⟨md .ship, sec 1, 7999, 7999, sec 1, by decide +kernel⟩,
   ⟨md .ship (fun c => { c with ret.wakeArmed := false }), by decide +kernel⟩⟩

/-- What the clauses of `OnlyTheWakeWatcherEndsShip` suppose can be met. -/
theorem witness_OnlyTheWakeWatcherEndsShip :
    (∃ (s : State) (t : Time) (mv : Int) (ns : Nat), s.chip.spi = [] ∧ s.chip.seq.mode = Mode.ship ∧ (mv ≤ 8000 ∨ min ns (max
      s.chip.now t - s.chip.seq.shipSince) < ms 50)) ∧
    (∃ (s : State) (t : Time) (mv : Int) (ns : Nat), s.chip.spi = [] ∧ s.chip.seq.mode = Mode.ship ∧ s.chip.ret.wakeArmed =
      true ∧ 8000 < mv ∧ ms 50 ≤ min ns (max s.chip.now t - s.chip.seq.shipSince)) :=
  ⟨⟨md .ship, 5, 8000, 5, by decide +kernel⟩,
   ⟨md .ship, ms 50, 8001, ms 50, by decide +kernel⟩⟩

/-- What the clauses of `LockoutReleaseAndSupplyCollapse` suppose can be met. -/
theorem witness_SupplyCollapseUnpowersTheGauge :
    (∃ (s : State) (v : Int), s.chip.spi = [] ∧ (4500 ≤ v ∨ running s.chip = false)) ∧
    (∃ (s : State) (v : Int), s.chip.spi = [] ∧ running s.chip = true ∧ v < 4500 ∧ s.chip.host.pend = none ∧ s.chip.jrn.opened
      = false ∧ s.chip.jrn.run = none ∧ s.chip.inn.rooms = []) ∧
    (∃ (s : State) (v : Int), s.chip.spi = [] ∧ running s.chip = true ∧ v < 4500 ∧ s.chip.host.pend = none ∧ shutting s.chip =
      true ∧ (cfg s.chip).board.fram = false) ∧
    (∃ (s : State) (v : Int), s.chip.spi = [] ∧ running s.chip = true ∧ v < 4500 ∧ s.chip.host.pend = none ∧ shutting s.chip =
      false ∧ s.chip.jrn.opened = true ∧ seqSpent s.chip = false ∧ (cfg s.chip).board.fram = false ∧ linkRuns s.chip = false) :=
  ⟨⟨md .unpowered, 7999, by decide +kernel⟩,
   ⟨md .configure, 4499, by decide +kernel⟩,
   ⟨md .parked (sd 1), 4499, by decide +kernel⟩,
   ⟨md .parked (fun c => { c with jrn.opened := true, img.map := some { sizeCode := 0, copyA := 4096, copyB := 8192, copyLen := 4096, journal := 0, journalLen := 4096, cellar := 0, cellarLen := 0, bytes44 := [] } }), 4499, by decide +kernel⟩⟩

/-- A frame of kind 0x01. -/
def fr : RuellFrame := { prio := 0, kind := 1, device := 9, seq := 0, data := [1], fd := false }

/-- What the clauses of `AnEmptyQueueSendsTheWinningFrame` suppose can be met. -/
theorem witness_AnEmptyQueueSendsTheWinningFrame :
    (∃ (s : State), s.pending = [] ∧ s.chip.spi = [] ∧ nextFrame s.chip = none) ∧
    (∃ (s : State), s.pending = [] ∧ s.chip.spi = [] ∧ (((nextFrame s.chip).any fun _ => decide ((∀ (g : RuellFrame × Time), g
      ∈ s.chip.can.queue → g.fst.kind ≠ 12)))) = true) ∧
    (∃ (s : State), s.pending = [] ∧ s.chip.spi = [] ∧ ((nextFrame s.chip).any fun _ => decide ((∃ g, g ∈ s.chip.can.queue ∧
      g.fst.kind = 12))) = true) :=
  ⟨⟨md .unpowered, by decide +kernel⟩,
   ⟨md .coupled fun c => { c with can := { c.can with on := true, queue := [({ fr with prio := 1 }, 3), (fr, 4)] } }, by decide +kernel⟩,
   ⟨md .coupled fun c => { c with can := { c.can with on := true, queue := [({ fr with prio := 1 }, 3), ({ fr with kind := 0x0C, prio := 3 }, 4)] } }, by decide +kernel⟩⟩

end Sys2Proof.Tests.Modes

namespace Sys2Proof.Tests.Sequences

open Sys2Proof.Machine

/-- CONFIGURE at step `k`. -/
def cf (k : Nat) (f : Chip → Chip := id) : State := md .configure fun c => f { c with seq := { c.seq with step := k, stepStart := 2 } }

/-- A region map as the NVM holds it. -/
def mp : List Byte := let b := [0x53, 0x4B, 0x50, 0x4D, 1, 0, 0, 0] ++ u32B 4096 ++ u32B 8192 ++ u32B 4096 ++ u32B 12288 ++ u32B 4096 ++ u32B 0 ++ u32B 0 ++ List.replicate 8 0
  b ++ u32B (crc32 b)

/-- The public key of the private scalar 77, X then Y, least significant byte first. -/
def key77 : List Byte :=
  Crypto.beBytes 64 (0x7bbe93083471d817c02980b321e0eff420c7d572eb189d1a2577a2db02b02158 * 2 ^ 256 +
    0x63239fe54095be1bc3d1de25f1049c866658ff3ff6629bdf3485537ad612ec23)

/-- An image copy without sections (Table 3.1), signed under `key77`. -/
def goodImage : List Byte :=
  slice ([0x53, 0x4B, 0x50, 0x49, 1, 0] ++ u16B 64 ++ u32B 192 ++ u32B 1 ++ u16B 0x1024 ++ [0x41, 0]) 0 64 ++ key77 ++
    Crypto.beBytes 64 (0x7021f7c06619a87d3facaee6780d921d2dbb390810e65a3a5c8d161f53190a49 * 2 ^ 256 +
      0x62bc50aeab621a2421ab190e226d26962ef280dbdaf17a704f0f88ea8794b876)

/-- Block means about `k`. -/
def bw (k : Int) : BlockWords := { plus := #v[k, k, k, k+1], minus := #v[k-5, k, k, k] }

/-- A zero phase in which every channel reads about `k`. -/
def zp (k : Int) : ZeroPhase := let v := Vector.replicate 4 (bw k); ⟨v, v, v, v, v⟩

/-- A zero phase at 0. -/
def z0 : ZeroPhase := zp 0

/-- What the clauses of `ConfigureRunsItsStepsToTheHandOver` suppose can be met. -/
theorem witness_ConfigureStepsRunInOrder :
    (∃ (s : State), s.chip.spi = [] ∧ s.chip.seq.mode ≠ Mode.configure) ∧
    (∃ (s : State) (t : Time) (inp : StepInput), s.chip.spi = [] ∧ s.chip.seq.mode = Mode.configure ∧ stepOverrun (tick t
      s.chip) = false ∧ inp.step ≠ s.chip.seq.step) ∧
    (∃ (s : State) (t : Time), s.chip.spi = [] ∧ s.chip.seq.mode = Mode.configure ∧ stepOverrun (tick t s.chip) = false ∧
      s.chip.seq.step = 0) ∧
    (∃ (s : State) (t : Time), s.chip.spi = [] ∧ s.chip.seq.mode = Mode.configure ∧ stepOverrun (tick t s.chip) = true) ∧
    (∃ (s : State) (t : Time) (vH vT : Int), s.chip.spi = [] ∧ s.chip.seq.mode = Mode.configure ∧ stepOverrun (tick t s.chip)
      = false ∧ s.chip.seq.step = 1 ∧ ((limpAfterImage (loadImage vH vT s.nvm (tick t s.chip))).isSome) = true) ∧
    (∃ (s : State) (t : Time), s.chip.spi = [] ∧ s.chip.seq.mode = Mode.configure ∧ stepOverrun (tick t s.chip) = false ∧
      s.chip.seq.step = 3 ∧ s.chip.seq.bus3.getD (busFastMv s.chip) < 2000) ∧
    (∃ (s : State) (t : Time), s.chip.spi = [] ∧ s.chip.seq.mode = Mode.configure ∧ stepOverrun (tick t s.chip) = false ∧
      s.chip.seq.step = 4 ∧ identityOver (tick t s.chip) = true) ∧
    (∃ (s : State) (t : Time), s.chip.spi = [] ∧ s.chip.seq.mode = Mode.configure ∧ stepOverrun (tick t s.chip) = false ∧
      s.chip.seq.step = 5 ∧ prechargeOver s.chip = true ∧ s.chip.seq.limpPath = none) ∧
    (∃ (s : State) (t : Time), s.chip.spi = [] ∧ s.chip.seq.mode = Mode.configure ∧ stepOverrun (tick t s.chip) = false ∧
      s.chip.seq.step = 6) ∧
    (∃ (s : State) (t : Time), s.chip.spi = [] ∧ s.chip.seq.mode = Mode.configure ∧ stepOverrun (tick t s.chip) = false ∧
      s.chip.seq.step = 7 ∧ pairOver s.chip = false) ∧
    (∃ (s : State) (t : Time), s.chip.spi = [] ∧ s.chip.seq.mode = Mode.configure ∧ stepOverrun (tick t s.chip) = false ∧
      s.chip.seq.step = 7 ∧ pairOver s.chip = true) ∧
    (∃ (s : State) (t : Time), s.chip.spi = [] ∧ s.chip.seq.mode = Mode.configure ∧ stepOverrun (tick t s.chip) = false ∧
      s.chip.seq.step = 3 ∧ 2000 ≤ s.chip.seq.bus3.getD (busFastMv s.chip)) ∧
    (∃ (s : State) (t : Time), s.chip.spi = [] ∧ s.chip.seq.mode = Mode.configure ∧ stepOverrun (tick t s.chip) = false ∧
      s.chip.seq.step = 4 ∧ identityOver (tick t s.chip) = false) ∧
    (∃ (s : State) (t : Time), s.chip.spi = [] ∧ s.chip.seq.mode = Mode.configure ∧ stepOverrun (tick t s.chip) = false ∧
      s.chip.seq.step = 5 ∧ prechargeOver s.chip = true ∧ s.chip.seq.limpPath.isSome = true) ∧
    (∃ (s : State) (t : Time), s.chip.spi = [] ∧ s.chip.seq.mode = Mode.configure ∧ stepOverrun (tick t s.chip) = false ∧
      s.chip.seq.step = 5 ∧ prechargeOver s.chip = false) ∧
    (∃ (s : State) (t : Time) (vH vT : Int), s.chip.spi = [] ∧ s.chip.seq.mode = Mode.configure ∧ stepOverrun (tick t s.chip)
      = false ∧ s.chip.seq.step = 1 ∧ limpAfterImage (loadImage vH vT s.nvm (tick t s.chip)) = none) :=
  ⟨⟨md .coupled, by decide +kernel⟩,
   ⟨cf 0, 2, .selfTest 0 z0, by decide +kernel⟩,
   ⟨cf 0, 2, by decide +kernel⟩,
   ⟨cf 0, ms 5 + 3, by decide +kernel⟩,
   ⟨cf 1, 2, 1999, 1999, by decide +kernel⟩,
   ⟨cf 3, 2, by decide +kernel⟩,
   ⟨cf 4, 2, by decide +kernel⟩,
   ⟨cf 5, 2, by decide +kernel⟩,
   ⟨cf 6, 2, by decide +kernel⟩,
   ⟨cf 7, 2, by decide +kernel⟩,
   ⟨cf 7 fun c => { c with pair.done7 := true }, 2, by decide +kernel⟩,
   ⟨cf 3 (fun c => { c with seq.bus3 := some 2500 }), 2, by decide +kernel⟩,
   ⟨cf 4 fun c => { c with prs.present := true }, 2, by decide +kernel⟩,
   ⟨cf 5 (fun c => { c with seq.limpPath := some .otp, pack.st := .standby }), 2, by decide +kernel⟩,
   ⟨cf 5 (fun c => { c with prs.present := true, pack.st := .precharge }), 2, by decide +kernel⟩,
   ⟨{ cf 1 with nvm := (mp.zipIdx 0 ++ goodImage.zipIdx 4096).map fun x => (x.2, x.1) }, 2, 1999, 1999, by decide +kernel⟩⟩

/-- What the clauses of `ConfigureRunsItsStepsToTheHandOver` suppose can be met. -/
theorem witness_FailedSelfTestLeadsToLimp :
    (∃ (s : State) (t : Time) (failed : BitVec 15), s.chip.spi = [] ∧ s.chip.seq.mode = Mode.configure ∧ s.chip.seq.step = 2 ∧
      stepOverrun (tick t s.chip) = false ∧ failed = 0) ∧
    (∃ (s : State) (t : Time) (failed : BitVec 15), s.chip.spi = [] ∧ s.chip.seq.mode = Mode.configure ∧ s.chip.seq.step = 2 ∧
      stepOverrun (tick t s.chip) = false ∧ failed ≠ 0) :=
  ⟨⟨cf 2, 2, 0, by decide +kernel⟩,
   ⟨cf 2, 2, 4, by decide +kernel⟩⟩

/-- What the clauses of `ConfigureRunsItsStepsToTheHandOver` suppose can be met. -/
theorem witness_HandOverEndsConfigure :
    (∃ (s : State) (t : Time), s.chip.spi = [] ∧ s.chip.seq.mode = Mode.configure ∧ s.chip.seq.step = 8 ∧ stepOverrun (tick t
      s.chip) = false ∧ anyFeed s.chip = false ∧ packConnected s.chip.pack.st = false ∧ step8Held s.chip = false) ∧
    (∃ (s : State) (t : Time), s.chip.spi = [] ∧ s.chip.seq.mode = Mode.configure ∧ s.chip.seq.step = 8 ∧ stepOverrun (tick t
      s.chip) = false ∧ anyFeed s.chip = true) ∧
    (∃ (s : State) (t : Time), s.chip.spi = [] ∧ s.chip.seq.mode = Mode.configure ∧ s.chip.seq.step = 8 ∧ stepOverrun (tick t
      s.chip) = false ∧ step8Held s.chip = true) :=
  ⟨⟨cf 8, 2, by decide +kernel⟩,
   ⟨cf 8 (fun c => { c with feedA.st := .on }), 2, by decide +kernel⟩,
   ⟨cf 8 (fun c => { c with feedB.st := .delay }), 2, by decide +kernel⟩⟩

/-- The OTP changed by `f`. -/
def ot (f : Otp → Otp) : State := md .coupled fun c => { c with otp := f c.otp }

/-- What the clauses of `OtpProgrammingFixesTheLowestBlankSlot` suppose can be met. -/
theorem witness_OtpProgrammingFixesTheLowestBlankSlot :
    (∃ (s : State) (vHold vTop : Int), s.chip.spi = [] ∧ (running s.chip = false ∨ s.chip.otp.pending = none ∨ s.chip.otp.busy
      ≠ none ∨ vHoldClose vHold vTop = false)) ∧
    (∃ (s : State), s.chip.spi = [] ∧ (s.chip.otp.pending = none ∨ s.chip.otp.busy = none)) ∧
    (∃ (s : State) (vHold vTop : Int) (h : List Byte), s.chip.spi = [] ∧ running s.chip = true ∧ s.chip.otp.pending = some h ∧
      s.chip.otp.busy = none ∧ vHoldClose vHold vTop = true) ∧
    (∃ (s : State), s.chip.spi = [] ∧ (s.chip.otp.pending.any fun _ => decide (s.chip.otp.busy = some 1)) = true) ∧
    (∃ (s : State), s.chip.spi = [] ∧ (s.chip.otp.pending.any fun _ => decide (s.chip.otp.busy = some 2)) = true) :=
  ⟨⟨ot id, 4500, 4500, by decide +kernel⟩,
   ⟨ot id, by decide +kernel⟩,
   ⟨ot fun o => { o with pending := some [1] }, 4500, 4500, [1], by decide +kernel⟩,
   ⟨ot fun o => { o with pending := some [1], busy := some 1 }, by decide +kernel⟩,
   ⟨ot fun o => { o with slot1 := .damaged, pending := some [1], busy := some 2 }, by decide +kernel⟩⟩

/-- What the clauses of `LimpDecidesItsFeedSetAndFloor` suppose can be met. -/
theorem witness_LimpDecidesItsFeedSetAndFloor :
    (∃ (s : State) (t : Time) (mv : Int) (ns : Time), s.chip.spi = [] ∧ (s.chip.seq.mode ≠ Mode.limp ∨ s.chip.seq.limpSet24 ≠
      none ∨ mv ≤ 8000 ∨ ns < ms 50 ∨ max s.chip.now t < s.chip.seq.modeAt + ms 50)) ∧
    (∃ (s : State) (t : Time), s.chip.spi = [] ∧ (s.chip.seq.mode ≠ Mode.limp ∨ s.chip.prs.present = false ∨
      s.chip.seq.shutStep ≠ 0 ∨ ∀ (t0 : Time), s.chip.pack.hold.floor = some t0 → max s.chip.now t < t0 + sec 4)) ∧
    (∃ (s : State) (t : Time) (mv : Int) (ns : Time), s.chip.spi = [] ∧ s.chip.seq.mode = Mode.limp ∧ s.chip.seq.limpSet24 =
      none ∧ 8000 < mv ∧ ms 50 ≤ ns ∧ s.chip.seq.modeAt + ms 50 ≤ max s.chip.now t) ∧
    (∃ (s : State) (t t0 : Time), s.chip.spi = [] ∧ s.chip.seq.mode = Mode.limp ∧ s.chip.prs.present = true ∧
      s.chip.seq.shutStep = 0 ∧ s.chip.pack.hold.floor = some t0 ∧ t0 + sec 4 ≤ max s.chip.now t) :=
  ⟨⟨md .coupled, 2, 8001, 2, by decide +kernel⟩,
   ⟨md .coupled, 2, by decide +kernel⟩,
   ⟨md .limp (fun c => { c with prs.present := true, pack.hold.floor := some 2 }), ms 50, 8001, ms 50, by decide +kernel⟩,
   ⟨md .limp (fun c => { c with prs.present := true, pack.hold.floor := some 2 }), sec 4 + 2, 2, by decide +kernel⟩⟩

/-- `n` samples of `v`, the latest at `t0`. -/
def wv (v : Rat) (n : Nat) (t0 : Nat) : List Sample := (List.range n).map fun k => ⟨v, .valid, t0 - k * 1000⟩

/-- A gauge with a pack whose V_PACK reads `v` mV. -/
def rich (v : Rat) (c : Chip) : Chip := { c with
  prs.present := true, gauge.formed := true
  meas.vPack := { c.meas.vPack with running := true, precHist := wv v 20 (sec 2 ), prec := ⟨v, .valid, sec 2⟩, precHeld := v }
  meas.iP := { c.meas.iP with running := true, precHist := wv 10 20 (sec 2), prec := ⟨10, .valid, sec 2⟩, precHeld := 10 } }

/-- What the clauses of `EndsOfDischargeAndOfCharge` suppose can be met. -/
theorem witness_FourLowSecondsDeclareEndOfDischarge :
    (∃ (s : State) (t : Time), s.chip.spi = [] ∧ (
      let g := s.chip.gauge
      let now := max s.chip.now t
      let judged : Prop := g.formed = true ∧ s.chip.prs.present = true ∧ inLimp s.chip = false ∧ s.chip.pack.st ≠ .charge ∧
        g.eodAt + sec 1 ≤ now
      ¬judged)) ∧
    (∃ (s : State) (t : Time), s.chip.spi = [] ∧ (
      let g := s.chip.gauge
      let now := max s.chip.now t
      let judged : Prop := g.formed = true ∧ s.chip.prs.present = true ∧ inLimp s.chip = false ∧ s.chip.pack.st ≠ .charge ∧
        g.eodAt + sec 1 ≤ now
      let volt := eodVolt { tick t s.chip with gauge.eodAt := now }
      judged ∧ volt = none)) ∧
    (∃ (s : State) (t : Time), s.chip.spi = [] ∧ (
      let g := s.chip.gauge
      let now := max s.chip.now t
      let judged : Prop := g.formed = true ∧ s.chip.prs.present = true ∧ inLimp s.chip = false ∧ s.chip.pack.st ≠ .charge ∧
        g.eodAt + sec 1 ≤ now
      let volt := eodVolt { tick t s.chip with gauge.eodAt := now }
      judged ∧ ((volt.any fun v => (
      let n := if v * 1000 < ((cfg s.chip).pack.vShut : Rat) then satInc 7 g.eodN else 0
      decide ((n < 4 ∨ g.eod = true))))) = true)) ∧
    (∃ (s : State) (t : Time), s.chip.spi = [] ∧ (
      let g := s.chip.gauge
      let now := max s.chip.now t
      let judged : Prop := g.formed = true ∧ s.chip.prs.present = true ∧ inLimp s.chip = false ∧ s.chip.pack.st ≠ .charge ∧
        g.eodAt + sec 1 ≤ now
      let volt := eodVolt { tick t s.chip with gauge.eodAt := now }
      judged ∧ ((volt.any fun v => (
      let n := if v * 1000 < ((cfg s.chip).pack.vShut : Rat) then satInc 7 g.eodN else 0
      decide (4 ≤ n ∧ g.eod = false ∧ s.chip.seq.mode = Mode.parked ∧ s.chip.seq.shutStep = 0)))) = true)) :=
  ⟨⟨md .coupled, 2, by decide +kernel⟩,
   ⟨md .coupled (rich 20000), sec 1, by decide +kernel⟩,
   ⟨md .coupled (rich 20000), sec 2, by decide +kernel⟩,
   ⟨md .parked (fun c => { rich 2000 c with gauge.eodN := 3 }), sec 2, by decide +kernel⟩⟩

/-- A region map with two copies of 4 KiB. -/
def m0 : RegionMap := { sizeCode := 0, copyA := 4096, copyB := 8192, copyLen := 4096, journal := 0, journalLen := 4096, cellar := 0, cellarLen := 0, bytes44 := [] }

/-- A gauge with a region map and an open journal. -/
def jr (f : Journal → Journal) : State := md .coupled fun c => { c with img.map := some m0, jrn := f { c.jrn with opened := true } }

/-- What the clauses of `JournalCommitsTakeTheNextSlot` suppose can be met. -/
theorem witness_PeriodicWritesFallDue :
    (∃ (s : State) (t : Time), s.chip.spi = [] ∧ (
      let now := max s.chip.now t
      let works : Prop := running s.chip = true ∧ s.chip.seq.mode ≠ .configure
      let journal : Prop := works ∧ s.chip.learn.jrnAt + minutes 15 ≤ now
      ¬journal)) ∧
    (∃ (s : State) (t : Time), s.chip.spi = [] ∧ (
      let now := max s.chip.now t
      let works : Prop := running s.chip = true ∧ s.chip.seq.mode ≠ .configure
      let tag : Prop := works ∧ s.chip.learn.tagAt + minutes 240 ≤ now
      ¬tag)) ∧
    (∃ (s : State) (t : Time), s.chip.spi = [] ∧ (
      let now := max s.chip.now t
      let works : Prop := running s.chip = true ∧ s.chip.seq.mode ≠ .configure
      let spent := seqSpent s.chip
      let journal : Prop := works ∧ s.chip.learn.jrnAt + minutes 15 ≤ now
      journal ∧ spent = false ∧ s.chip.inn.rooms = [])) ∧
    (∃ (s : State) (t : Time), s.chip.spi = [] ∧ (
      let now := max s.chip.now t
      let works : Prop := running s.chip = true ∧ s.chip.seq.mode ≠ .configure
      let journal : Prop := works ∧ s.chip.learn.jrnAt + minutes 15 ≤ now
      journal ∧ s.chip.inn.persist = false)) ∧
    (∃ (s : State) (t : Time), s.chip.spi = [] ∧ (
      let now := max s.chip.now t
      let works : Prop := running s.chip = true ∧ s.chip.seq.mode ≠ .configure
      let tag : Prop := works ∧ s.chip.learn.tagAt + minutes 240 ≤ now
      let writes : Prop := (s.chip.tag.verdict = .authenticated ∨ exchanging s.chip.tag.stage = true) ∧ (cfg s.chip).cert ≠ []
      tag ∧ ¬writes)) ∧
    (∃ (s : State) (t : Time), s.chip.spi = [] ∧ (
      let now := max s.chip.now t
      let works : Prop := running s.chip = true ∧ s.chip.seq.mode ≠ .configure
      let spent := seqSpent s.chip
      let tag : Prop := works ∧ s.chip.learn.tagAt + minutes 240 ≤ now
      tag ∧ spent = false)) ∧
    (∃ (s : State) (t : Time), s.chip.spi = [] ∧ (
      let now := max s.chip.now t
      let works : Prop := running s.chip = true ∧ s.chip.seq.mode ≠ .configure
      let spent := seqSpent s.chip
      let journal : Prop := works ∧ s.chip.learn.jrnAt + minutes 15 ≤ now
      journal ∧ spent = true)) ∧
    (∃ (s : State) (t : Time), s.chip.spi = [] ∧ (
      let now := max s.chip.now t
      let works : Prop := running s.chip = true ∧ s.chip.seq.mode ≠ .configure
      let spent := seqSpent s.chip
      let tag : Prop := works ∧ s.chip.learn.tagAt + minutes 240 ≤ now
      tag ∧ spent = true)) ∧
    (∃ (s : State) (t : Time), s.chip.spi = [] ∧ (
      let now := max s.chip.now t
      let works : Prop := running s.chip = true ∧ s.chip.seq.mode ≠ .configure
      let tag : Prop := works ∧ s.chip.learn.tagAt + minutes 240 ≤ now
      let writes : Prop := (s.chip.tag.verdict = .authenticated ∨ exchanging s.chip.tag.stage = true) ∧ (cfg s.chip).cert ≠ []
      tag ∧ writes)) :=
  ⟨⟨md .configure, 2, by decide +kernel⟩,
   ⟨md .configure, 2, by decide +kernel⟩,
   ⟨jr id, minutes 15, by decide +kernel⟩,
   ⟨jr id, minutes 15, by decide +kernel⟩,
   ⟨jr id, minutes 240, by decide +kernel⟩,
   ⟨jr id, minutes 240, by decide +kernel⟩,
   ⟨jr fun j => { j with head := some (3, 0xFFFFFFFE) }, minutes 15, by decide +kernel⟩,
   ⟨jr fun j => { j with head := some (3, 0xFFFFFFFE) }, minutes 240, by decide +kernel⟩,
   ⟨md .coupled fun c => { c with prs.present := true, learn.tagAt := 2, img.cfg.cert := [1], tag.verdict := .authenticated }, minutes 240 + 2, by decide +kernel⟩⟩

/-- What the clauses of `JournalCommitsTakeTheNextSlot` suppose can be met. -/
theorem witness_CommitTakesTheNextSlot :
    (∃ (s : State) (t : Time), s.chip.spi = [] ∧ (
      let due : Prop := commitDue (tick t s.chip) = true
      let barred : Prop := running s.chip = true ∧ s.chip.jrn.opened = true ∧ s.chip.jrn.run = none ∧ seqSpent s.chip = true ∧
        s.chip.jrn.bitRequest = true
      ¬due ∧ ¬barred)) ∧
    (∃ (s : State) (t : Time), s.chip.spi = [] ∧ (
      let due : Prop := commitDue (tick t s.chip) = true
      due ∧ s.chip.img.map.isSome = true)) ∧
    (∃ (s : State), s.chip.spi = [] ∧ (
      let barred : Prop := running s.chip = true ∧ s.chip.jrn.opened = true ∧ s.chip.jrn.run = none ∧ seqSpent s.chip = true ∧
        s.chip.jrn.bitRequest = true
      barred)) :=
  ⟨⟨md .configure, 2, by decide +kernel⟩,
   ⟨jr fun j => { j with request := true }, 2, by decide +kernel⟩,
   ⟨jr fun j => { j with head := some (3, 0xFFFFFFFE), bitRequest := true }, by decide +kernel⟩⟩

/-- A commit with one write left. -/
def cm : Commit := { slot := 3, seq := 9, bytes := List.replicate 64 1, writes := [(100, [1, 2])], start := 2, writeAt := 2, retried := false, bad := false }

/-- What the clauses of `JournalCommitsTakeTheNextSlot` suppose can be met. -/
theorem witness_CommitWritesReachTheNvm :
    (∃ (s : State), s.chip.spi = [] ∧ s.chip.jrn.run = none) ∧
    (∃ (s : State), s.chip.spi = [] ∧ (s.chip.jrn.run.any fun r => (match r.writes with
      | (_, _) :: rest => decide (rest = [] ∧ r.bad = false)
      | _ => false)) = true) ∧
    (∃ (s : State) (t : Time), s.chip.spi = [] ∧ (s.chip.jrn.run.any fun r => (match r.writes with
      | (_, _) :: _ => decide (max s.chip.now t < r.writeAt + ms 10)
      | _ => false)) = true) ∧
    (∃ (s : State) (t : Time), s.chip.spi = [] ∧ (s.chip.jrn.run.any fun r => (match r.writes with
      | (_, _) :: _ => decide (r.writeAt + ms 10 ≤ max s.chip.now t ∧ r.retried = false) && s.chip.img.map.isSome
      | _ => false)) = true) ∧
    (∃ (s : State) (k : Nat), s.chip.spi = [] ∧ ((s.chip.jrn.run.any fun r => (match r.writes with
      | (a, bs) :: rest => decide (rest ≠ [] ∧ (k < a ∨ a + bs.length ≤ k))
      | _ => false))) = true) ∧
    (∃ (s : State) (t : Time), s.chip.spi = [] ∧ (s.chip.jrn.run.any fun r => (match r.writes with
      | (_, _) :: _ => decide (r.writeAt + ms 10 ≤ max s.chip.now t ∧ r.retried = true)
      | _ => false)) = true) ∧
    (∃ (s : State), s.chip.spi = [] ∧ (s.chip.jrn.run.any fun r => (match r.writes with
      | (_, _) :: rest => decide (rest = [] ∧ r.bad = true ∧ r.retried = false) && s.chip.img.map.isSome
      | _ => false)) = true) ∧
    (∃ (s : State), s.chip.spi = [] ∧ (s.chip.jrn.run.any fun r => (match r.writes with
      | (_, _) :: rest => decide (rest = [] ∧ r.bad = true ∧ r.retried = true)
      | _ => false)) = true) :=
  ⟨⟨md .coupled, by decide +kernel⟩,
   ⟨jr fun j => { j with run := some cm }, by decide +kernel⟩,
   ⟨jr fun j => { j with run := some cm }, 2, by decide +kernel⟩,
   ⟨jr fun j => { j with run := some cm }, ms 10 + 2, by decide +kernel⟩,
   ⟨jr fun j => { j with run := some { cm with writes := [(100, [1,2]), (102, [0xFF])] } }, 2, by decide +kernel⟩,
   ⟨jr fun j => { j with run := some { cm with retried := true } }, ms 10 + 2, by decide +kernel⟩,
   ⟨jr fun j => { j with run := some { cm with bad := true } }, by decide +kernel⟩,
   ⟨jr fun j => { j with run := some { cm with retried := true, bad := true } }, by decide +kernel⟩⟩

end Sys2Proof.Tests.Sequences

namespace Sys2Proof.Tests.Measuring

open Sys2Proof.Machine

/-- All modulator channels run, changed by `f`. -/
def mch (f : ModCh → ModCh) (c : Chip) : Chip := let c := startMods c
  { c with meas := { c.meas with iA := f c.meas.iA, iB := f c.meas.iB, iP := f c.meas.iP, vBus := f c.meas.vBus, vPack := f c.meas.vPack } }

/-- What the clauses of `ModulatorWordsAndTheirLoss` suppose can be met. -/
theorem witness_ModulatorWordsCarryOneStatusAndItsValue :
    (∃ (s : State) (ch : ChId), s.chip.spi = [] ∧ (
      let x := chan s.chip ch
      let on : Prop := running s.chip = true ∧ x.running = true
      ¬on)) ∧
    (∃ (s : State) (ch : ChId), s.chip.spi = [] ∧ (
      let x := chan s.chip ch
      let on : Prop := running s.chip = true ∧ x.running = true
      on ∧ (ch = ChId.vBus ∨ ch = ChId.vPack))) :=
  ⟨⟨md .unpowered, .iA, by decide +kernel⟩,
   ⟨md .coupled (mch id), .vBus, by decide +kernel⟩⟩

/-- What the clauses of `ModulatorWordsAndTheirLoss` suppose can be met. -/
theorem witness_LostWordsAndStuckModulatorsSettle :
    (∃ (s : State) (n : Nat), s.chip.spi = [] ∧ n < 4096) ∧
    (∃ (s : State) (ch : ChId), s.chip.spi = [] ∧ (
      let on : Prop := running s.chip = true ∧ (chan s.chip ch).running = true
      ¬on)) ∧
    (∃ (s : State) (ch : ChId) (n : Nat), s.chip.spi = [] ∧ (
      let on : Prop := running s.chip = true ∧ (chan s.chip ch).running = true
      on ∧ 4096 ≤ n)) ∧
    (∃ (s : State) (ch : ChId), s.chip.spi = [] ∧ (
      let on : Prop := running s.chip = true ∧ (chan s.chip ch).running = true
      on ∧ (ch = ChId.vBus ∨ ch = ChId.vPack))) :=
  ⟨⟨md .unpowered, 4095, by decide +kernel⟩,
   ⟨md .unpowered, .iA, by decide +kernel⟩,
   ⟨md .coupled (mch id), .iA, 4096, by decide +kernel⟩,
   ⟨md .coupled (mch id), .vBus, by decide +kernel⟩⟩

/-- What the clauses of `OffsetTrackerAndCalibrationPoints` suppose can be met. -/
theorem witness_TrackerMovesByAClampedSixteenth :
    (∃ (s : State) (ch : ChId) (p m : List Int), s.chip.spi = [] ∧ (
      let pair : Prop := running s.chip = true ∧ (chan s.chip ch).running = true ∧ (chan s.chip ch).paired = true ∧ p.length =
        4 ∧ m.length = 4
      ¬pair)) ∧
    (∃ (s : State) (ch : ChId) (p m : List Int), s.chip.spi = [] ∧ (
      let ps := p.map (rawReading ch 24)
      let ms := m.map (rawReading ch 24)
      let pair : Prop := running s.chip = true ∧ (chan s.chip ch).running = true ∧ (chan s.chip ch).paired = true ∧ p.length =
        4 ∧ m.length = 4
      pair ∧ (halfQuiet ch ps = false ∨ halfQuiet ch ms = false))) ∧
    (∃ (s : State) (ch : ChId) (p m : List Int), s.chip.spi = [] ∧ (
      let ps := p.map (rawReading ch 24)
      let ms := m.map (rawReading ch 24)
      let lim : Rat := if isCurrent ch then 1 / 4 else 1 / 20
      let o := (chan s.chip ch).offset
      let o' := o + clampRat (-lim) lim (((meanRat ps - meanRat ms) / 2 - o) / 16)
      let pair : Prop := running s.chip = true ∧ (chan s.chip ch).running = true ∧ (chan s.chip ch).paired = true ∧ p.length =
        4 ∧ m.length = 4
      pair ∧ halfQuiet ch ps = true ∧ halfQuiet ch ms = true ∧ isCurrent ch = true ∧ 20 < absRat o')) :=
  ⟨⟨md .coupled (mch fun x => { x with chop := some 3, paired := true }), .iA, [0,0,0], [0,0,0], by decide +kernel⟩,
   ⟨md .coupled (mch fun x => { x with chop := some 3, paired := true }), .iA, [0,0,0,0], [0, 100000, 0, 0], by decide +kernel⟩,
   ⟨md .coupled (fun c => { mch (fun x => { x with chop := some 3, paired := true, offset := 199/10 }) c with gauge.rest := true }), .iA, [8000, 8000, 8000, 8000], [0,0,0,0], by decide +kernel⟩⟩

/-- A calibration point under way. -/
def cl (f : Cal → Cal) (c : Chip) : Chip := { c with cal := f { c.cal with run := true, start := 2 } }

/-- What the clauses of `OffsetTrackerAndCalibrationPoints` suppose can be met. -/
theorem witness_CalibrationPointsEndWithMeanOrRefused :
    (∃ (s : State), s.chip.spi = [] ∧ (
      let n := s.chip.cal.count
      let full := if s.chip.cal.ch = 5 then 64 else 256
      (s.chip.cal.run = false ∨ n < full))) ∧
    (∃ (s : State) (t : Time), s.chip.spi = [] ∧ (
      let n := s.chip.cal.count
      let full := if s.chip.cal.ch = 5 then 64 else 256
      (s.chip.cal.run = false ∨ full ≤ n ∨ max s.chip.now t < s.chip.cal.start + sec 1))) ∧
    (∃ (s : State), s.chip.spi = [] ∧ (
      let n := s.chip.cal.count
      let full := if s.chip.cal.ch = 5 then 64 else 256
      s.chip.cal.run = true ∧ full ≤ n ∧ s.chip.chg.spanPoint = false)) ∧
    (∃ (s : State) (t : Time), s.chip.spi = [] ∧ (
      let n := s.chip.cal.count
      let full := if s.chip.cal.ch = 5 then 64 else 256
      s.chip.cal.run = true ∧ n < full ∧ s.chip.cal.start + sec 1 ≤ max s.chip.now t ∧ s.chip.chg.spanPoint = false)) ∧
    (∃ (s : State), s.chip.spi = [] ∧ (
      let n := s.chip.cal.count
      let full := if s.chip.cal.ch = 5 then 64 else 256
      s.chip.cal.run = true ∧ full ≤ n ∧ s.chip.chg.spanPoint = true ∧ charging s.chip = true)) ∧
    (∃ (s : State) (t : Time), s.chip.spi = [] ∧ (
      let n := s.chip.cal.count
      let full := if s.chip.cal.ch = 5 then 64 else 256
      s.chip.cal.run = true ∧ n < full ∧ s.chip.cal.start + sec 1 ≤ max s.chip.now t ∧ s.chip.chg.spanPoint = true ∧ charging
      s.chip = true)) :=
  ⟨⟨md .coupled, by decide +kernel⟩,
   ⟨md .coupled, 2, by decide +kernel⟩,
   ⟨md .depot (cl fun k => { k with count := 256, sum := 256 * 5, sumSq := 256 * 26 }), by decide +kernel⟩,
   ⟨md .depot (cl fun k => { k with count := 255 }), sec 1 + 2, by decide +kernel⟩,
   ⟨md .depot (fun c => { cl (fun k => { k with ch := 2, count := 256, span := true }) c with pack.st := .charge, chg.spanPoint := true, chg.set := 5 }), by decide +kernel⟩,
   ⟨md .depot (fun c => { cl (fun k => { k with ch := 2, count := 6, span := true }) c with pack.st := .charge, chg.spanPoint := true, chg.set := 5 }), sec 1 + 2, by decide +kernel⟩⟩

/-- What the clauses of `ClocksAreJudgedAndDisciplined` suppose can be met. -/
theorem witness_ClockFaultsAreDetected :
    (∃ (s : State), s.chip.spi = [] ∧ running s.chip = false) ∧
    (∃ (s : State) (hz ns : Nat), s.chip.spi = [] ∧ running s.chip = true ∧ us 100 ≤ ns ∧ crystalHz s.chip < 100 * ((↑hz :
      Int) - (↑(crystalHz s.chip) : Int)).natAbs) ∧
    (∃ (s : State) (hz ns : Nat), s.chip.spi = [] ∧ running s.chip = true ∧ (ns < us 100 ∨ 100 * ((↑hz : Int) - (↑(crystalHz
      s.chip) : Int)).natAbs ≤ crystalHz s.chip)) ∧
    (∃ (s : State) (hz : Nat) (ns : Time), s.chip.spi = [] ∧ running s.chip = true ∧ us 10 ≤ ns ∧ (hz < 24000000 ∨ 26000000 <
      hz)) ∧
    (∃ (s : State) (hz : Nat) (ns : Time), s.chip.spi = [] ∧ running s.chip = true ∧ (ns < us 10 ∨ 24000000 ≤ hz ∧ hz ≤
      26000000)) ∧
    (∃ (s : State) (ppm : Int) (ns : Time), s.chip.spi = [] ∧ running s.chip = true ∧ ms 1 ≤ ns ∧ 20000 < ppm.natAbs) ∧
    (∃ (s : State) (ppm : Int) (ns : Time), s.chip.spi = [] ∧ running s.chip = true ∧ (ns < ms 1 ∨ ppm.natAbs ≤ 20000)) ∧
    (∃ (s : State) (d : DomId) (khz : Nat) (ns : Time), s.chip.spi = [] ∧ running s.chip = true ∧ us 100 ≤ ns ∧ (khz <
      (domBounds s.chip d).fst ∨ (domBounds s.chip d).snd < khz) ∧ s.chip.clk.stopped.getLsbD (domIndex d) = false ∧
      s.chip.clk.restartAt.length = 3) ∧
    (∃ (s : State) (d : DomId) (khz : Nat) (ns : Time), s.chip.spi = [] ∧ running s.chip = true ∧ (ns < us 100 ∨ (domBounds
      s.chip d).fst ≤ khz ∧ khz ≤ (domBounds s.chip d).snd ∨ s.chip.clk.stopped.getLsbD (domIndex d) = true)) :=
  ⟨⟨md .unpowered, by decide +kernel⟩,
   ⟨md .coupled, 2, us 100, by decide +kernel⟩,
   ⟨md .coupled, 2, us 100 - 1, by decide +kernel⟩,
   ⟨md .coupled, 23999999, us 10, by decide +kernel⟩,
   ⟨md .coupled, 2, 2, by decide +kernel⟩,
   ⟨md .coupled, 20001, ms 1, by decide +kernel⟩,
   ⟨md .coupled, 0, ms 1 - 1, by decide +kernel⟩,
   ⟨md .coupled, .gate, 1899, us 100, by decide +kernel⟩,
   ⟨md .coupled, .gate, 2, us 100 - 1, by decide +kernel⟩⟩

/-- What the clauses of `ClocksAreJudgedAndDisciplined` suppose can be met. -/
theorem witness_CrystalDisciplinesTheClocks :
    (∃ (s : State), s.chip.spi = [] ∧ running s.chip = false) ∧
    (∃ (s : State), s.chip.spi = [] ∧ running s.chip = true ∧ (crystalRuns s.chip = false ∨ s.chip.clk.xtalOk = false)) ∧
    (∃ (s : State) (t : Time), s.chip.spi = [] ∧ crystalRuns s.chip = true ∧ s.chip.clk.xtalOk = true ∧ (∀ (t0 : Time),
      s.chip.clk.lptAt = some t0 → t0 + sec 1 ≤ max s.chip.now t)) ∧
    (∃ (s : State) (t : Time), s.chip.spi = [] ∧ crystalRuns s.chip = true ∧ s.chip.clk.xtalOk = true ∧ (s.chip.clk.lptAt.any
      fun t0 => decide (max s.chip.now t < t0 + sec 1)) = true) :=
  ⟨⟨md .unpowered, by decide +kernel⟩,
   ⟨md .coupled, by decide +kernel⟩,
   ⟨md .coupled (fun c => { c with clk.xtalOk := true, clk.coreBad := true }), 2, by decide +kernel⟩,
   ⟨md .coupled (fun c => { c with clk.lptAt := some 2, clk.xtalOk := true }), sec 1 + 1, by decide +kernel⟩⟩

/-- The auxiliary ADC on channel `k`. -/
def ax (k : Nat) (f : Aux → Aux := id) (c : Chip) : Chip := { c with aux := f { c.aux with cur := some k } }

/-- What the clauses of `AuxiliaryConversionsAndSensorChecks` suppose can be met. -/
theorem witness_AuxConversionsSettleThenSample :
    (∃ (s : State) (t : Time), s.chip.spi = [] ∧ (running s.chip = false ∨ auxNow (tick t s.chip) = none)) ∧
    (∃ (s : State) (t : Time) (k n : Nat), s.chip.spi = [] ∧ running s.chip = true ∧ auxNow (tick t s.chip) = some (k, n + 1)) ∧
    (∃ (s : State) (t : Time) (j : Nat), s.chip.spi = [] ∧ running s.chip = true ∧ s.chip.aux.ch.length = 24 ∧ ((auxNow (tick
      t s.chip)).any fun (k, n) => decide (n = 0 ∧ k < 24 ∧ j ≠ k)) = true) ∧
    (∃ (s : State) (t : Time), s.chip.spi = [] ∧ running s.chip = true ∧ s.chip.aux.ch.length = 24 ∧ ((auxNow (tick t
      s.chip)).any fun (k, n) => decide (n = 0 ∧ k < 24 ∧ (k = 20 ∨ k = 21))) = true) :=
  ⟨⟨md .unpowered, 0, by decide +kernel⟩,
   ⟨md .coupled, 0, 19, 0, by decide +kernel⟩,
   ⟨md .coupled (ax 20), 0, 0, by decide +kernel⟩,
   ⟨md .coupled (ax 20), 0, by decide +kernel⟩⟩

/-- What the clauses of `AuxiliaryConversionsAndSensorChecks` suppose can be met. -/
theorem witness_BiasFaultsMarkThermistorSamples :
    (∃ (s : State) (ppm : Nat), s.chip.spi = [] ∧ 10000 ≤ ppm ∧ ppm ≤ 970000) ∧
    (∃ (s : State) (t : Time) (k : TsId), s.chip.spi = [] ∧ (running s.chip = false ∨ Option.map (fun x => x.fst) (auxNow
      (tick t s.chip)) ≠ some (tsChan k))) ∧
    (∃ (s : State) (t : Time) (k : TsId) (ppm n : Nat), s.chip.spi = [] ∧ (
      let under (n : Nat) : Prop := running s.chip = true ∧ auxNow (tick t s.chip) = some (tsChan k, n)
      under n ∧ s.chip.aux.ch.length = 24 ∧ 970000 < ppm)) ∧
    (∃ (s : State) (t : Time) (k : TsId) (ppm n : Nat), s.chip.spi = [] ∧ (
      let under (n : Nat) : Prop := running s.chip = true ∧ auxNow (tick t s.chip) = some (tsChan k, n)
      under n ∧ ppm < 10000)) :=
  ⟨⟨md .unpowered, 10000, by decide +kernel⟩,
   ⟨md .unpowered, 0, .ts1, by decide +kernel⟩,
   ⟨md .coupled (ax 16), 0, .ts1, 970001, 0, by decide +kernel⟩,
   ⟨md .coupled (ax 16), 0, .ts1, 9999, 0, by decide +kernel⟩⟩

/-- Two thermistors that last read `a` and `b`. -/
def iso (a b : Int) : State := md .parked fun c => { c with
  gauge.rest := true, gauge.restFrom := 2, gauge.formed := true
  tmp.die := { temp := a, formed := true, at_ := minutes 60, run := 5 }, tmp.ts1 := { temp := b, formed := true, at_ := minutes 60, run := 5 } }

/-- What the clauses of `AuxiliaryConversionsAndSensorChecks` suppose can be met. -/
theorem witness_IsothermalCheckComparesTheSensors :
    (∃ (s : State) (t : Time), s.chip.spi = [] ∧ isoDue (tick t s.chip) = false) ∧
    (∃ (s : State) (t : Time), s.chip.spi = [] ∧ (
      let ps := isoParticipants (tick t s.chip)
      let lim : Rat := (((cfg s.chip).temp.xcheck * 100 : Nat) : Rat)
      isoDue (tick t s.chip) = true ∧ ((match ps with
      | [a, b] => decide (absRat (↑(a.snd - b.snd) : Rat) ≤ lim)
      | _ => false)) = true)) ∧
    (∃ (s : State) (t : Time), s.chip.spi = [] ∧ (
      let ps := isoParticipants (tick t s.chip)
      let lim : Rat := (((cfg s.chip).temp.xcheck * 100 : Nat) : Rat)
      isoDue (tick t s.chip) = true ∧ ((match ps with
      | [a, b] => decide (lim < absRat (↑(a.snd - b.snd) : Rat))
      | _ => false)) = true)) ∧
    (∃ (s : State) (t : Time), s.chip.spi = [] ∧ (
      let ps := isoParticipants (tick t s.chip)
      let lim : Rat := (((cfg s.chip).temp.xcheck * 100 : Nat) : Rat)
      let out := ps.filter fun p => decide (lim < absRat ((p.2 : Rat) - median (ps.map (·.2))))
      isoDue (tick t s.chip) = true ∧ 3 ≤ ps.length ∧ out = [])) ∧
    (∃ (s : State) (t : Time), s.chip.spi = [] ∧ (
      let ps := isoParticipants (tick t s.chip)
      let lim : Rat := (((cfg s.chip).temp.xcheck * 100 : Nat) : Rat)
      let out := ps.filter fun p => decide (lim < absRat ((p.2 : Rat) - median (ps.map (·.2))))
      isoDue (tick t s.chip) = true ∧ 3 ≤ ps.length ∧ out ≠ [])) :=
  ⟨⟨md .parked, 2, by decide +kernel⟩,
   ⟨iso 2500 3300, minutes 60 + 3, by decide +kernel⟩,
   ⟨iso 2500 3301, minutes 60 + 3, by decide +kernel⟩,
   ⟨md .parked (fun c => { (iso 2500 2500).chip with seq.mode := .parked, tmp.ts2 := { temp := 2600, formed := true, at_ := minutes 60, run := 5 } }), minutes 60 + 3, by decide +kernel⟩,
   ⟨md .parked (fun c => { (iso 2500 2500).chip with seq.mode := .parked, tmp.ts2 := { temp := 6000, formed := true, at_ := minutes 60, run := 5 } }), minutes 60 + 3, by decide +kernel⟩⟩

end Sys2Proof.Tests.Measuring

namespace Sys2Proof.Tests.Feeds

open Sys2Proof.Machine

/-- Mode `m` with both feeds changed by `f`. -/
def fd (m : Mode) (f : Feed → Feed) (g : Chip → Chip := id) : State := md m fun c => g { c with feedA := f c.feedA, feedB := f c.feedB }

/-- What the clauses of `FeedWindowsAndInsertionDelay` suppose can be met. -/
theorem witness_FeedWindowsGateTheInsertionDelay :
    (∃ (s : State) (f : FeedId) (ns : Nat), s.chip.spi = [] ∧ (
      let x := feed s.chip f
      (running s.chip = false ∨ ns < us 50 ∨ x.armed = false))) ∧
    (∃ (s : State) (f : FeedId) (mv : Int) (ns : Nat), s.chip.spi = [] ∧ (
      let x := feed s.chip f
      let k := feedCfg s.chip f
      let rise : Int := ((k.uvRise * 100 : Nat) : Int)
      let top : Int := ((k.ovRise * 100 : Nat) : Int)
      let uv := if x.uvOk then decide (rise - ((k.uvHyst * 100 : Nat) : Int) ≤ mv) else decide (rise ≤ mv)
      let ov := if x.ovOk then decide (mv ≤ top) else decide (mv < top - ((k.ovHyst * 100 : Nat) : Int))
      let above := x.ovOk && !ov
      let left := above || (x.uvOk && !uv)
      let goes := uv && ov && x.st == .watch && feedSetKnown s.chip
      running s.chip = true ∧ us 50 ≤ ns ∧ x.armed = true ∧ left = false ∧ goes = false)) ∧
    (∃ (s : State) (f : FeedId) (mv : Int) (ns : Nat), s.chip.spi = [] ∧ (
      let x := feed s.chip f
      let k := feedCfg s.chip f
      let rise : Int := ((k.uvRise * 100 : Nat) : Int)
      let top : Int := ((k.ovRise * 100 : Nat) : Int)
      let uv := if x.uvOk then decide (rise - ((k.uvHyst * 100 : Nat) : Int) ≤ mv) else decide (rise ≤ mv)
      let ov := if x.ovOk then decide (mv ≤ top) else decide (mv < top - ((k.ovHyst * 100 : Nat) : Int))
      let above := x.ovOk && !ov
      let left := above || (x.uvOk && !uv)
      running s.chip = true ∧ us 50 ≤ ns ∧ x.armed = true ∧ left = true ∧ x.st ≠ FeedSt.delay ∧ x.st ≠ FeedSt.held ∧ x.st ≠
      FeedSt.inrush ∧ feedAccepted x = false)) ∧
    (∃ (s : State) (f : FeedId) (mv : Int) (ns : Nat), s.chip.spi = [] ∧ (
      let x := feed s.chip f
      let k := feedCfg s.chip f
      let rise : Int := ((k.uvRise * 100 : Nat) : Int)
      let top : Int := ((k.ovRise * 100 : Nat) : Int)
      let uv := if x.uvOk then decide (rise - ((k.uvHyst * 100 : Nat) : Int) ≤ mv) else decide (rise ≤ mv)
      let ov := if x.ovOk then decide (mv ≤ top) else decide (mv < top - ((k.ovHyst * 100 : Nat) : Int))
      let goes := uv && ov && x.st == .watch && feedSetKnown s.chip
      running s.chip = true ∧ us 50 ≤ ns ∧ x.armed = true ∧ goes = true ∧ k.insDelay ≠ 0)) ∧
    (∃ (s : State) (f : FeedId) (mv : Int) (ns : Nat), s.chip.spi = [] ∧ (
      let x := feed s.chip f
      let k := feedCfg s.chip f
      let rise : Int := ((k.uvRise * 100 : Nat) : Int)
      let top : Int := ((k.ovRise * 100 : Nat) : Int)
      let uv := if x.uvOk then decide (rise - ((k.uvHyst * 100 : Nat) : Int) ≤ mv) else decide (rise ≤ mv)
      let ov := if x.ovOk then decide (mv ≤ top) else decide (mv < top - ((k.ovHyst * 100 : Nat) : Int))
      let above := x.ovOk && !ov
      let left := above || (x.uvOk && !uv)
      running s.chip = true ∧ us 50 ≤ ns ∧ x.armed = true ∧ left = true ∧ (x.st = FeedSt.delay ∨ x.st = FeedSt.held))) ∧
    (∃ (s : State) (f : FeedId) (mv : Int) (ns : Nat), s.chip.spi = [] ∧ (
      let x := feed s.chip f
      let k := feedCfg s.chip f
      let rise : Int := ((k.uvRise * 100 : Nat) : Int)
      let top : Int := ((k.ovRise * 100 : Nat) : Int)
      let uv := if x.uvOk then decide (rise - ((k.uvHyst * 100 : Nat) : Int) ≤ mv) else decide (rise ≤ mv)
      let ov := if x.ovOk then decide (mv ≤ top) else decide (mv < top - ((k.ovHyst * 100 : Nat) : Int))
      let above := x.ovOk && !ov
      let left := above || (x.uvOk && !uv)
      running s.chip = true ∧ us 50 ≤ ns ∧ x.armed = true ∧ left = true ∧ (x.st = FeedSt.inrush ∨ feedAccepted x = true) ∧
      above = true)) :=
  ⟨⟨md .unpowered, .a, 2, by decide +kernel⟩,
   ⟨fd .parked fun x => { x with st := .absent, armed := true, uvOk := true }, .a, 17000, us 50, by decide +kernel⟩,
   ⟨fd .parked fun x => { x with st := .absent, armed := true, uvOk := true }, .a, 16999, us 50, by decide +kernel⟩,
   ⟨fd .parked fun x => { x with st := .watch, armed := true, uvOk := true }, .a, 17000, us 50, by decide +kernel⟩,
   ⟨fd .parked fun x => { x with st := .delay, armed := true, uvOk := true }, .a, 16999, us 50, by decide +kernel⟩,
   ⟨fd .parked fun x => { x with st := .inrush, armed := true, uvOk := true }, .a, 34001, us 50, by decide +kernel⟩⟩

/-- What the clauses of `FeedWindowsAndInsertionDelay` suppose can be met. -/
theorem witness_InsertionDelayLeadsToHeld :
    (∃ (s : State) (t : Time) (f : FeedId), s.chip.spi = [] ∧ (
      let due := (feed s.chip f).delayAt + ms ((feedCfg s.chip f).insDelay * 10)
      ((feed s.chip f).st ≠ FeedSt.delay ∨ max s.chip.now t < due))) ∧
    (∃ (s : State) (t : Time) (f : FeedId), s.chip.spi = [] ∧ (
      let due := (feed s.chip f).delayAt + ms ((feedCfg s.chip f).insDelay * 10)
      (feed s.chip f).st = FeedSt.delay ∧ due ≤ t ∧ (s.chip.seq.shutStep = 0 ∨ s.chip.seq.committed = true))) ∧
    (∃ (s : State) (t : Time) (f : FeedId), s.chip.spi = [] ∧ (
      let due := (feed s.chip f).delayAt + ms ((feedCfg s.chip f).insDelay * 10)
      (feed s.chip f).st = FeedSt.delay ∧ due ≤ t ∧ s.chip.seq.shutStep ≠ 0 ∧ s.chip.seq.committed = false)) :=
  ⟨⟨fd .parked fun x => { x with st := .delay, delayAt := 2 }, 2, .a, by decide +kernel⟩,
   ⟨fd .parked fun x => { x with st := .delay, delayAt := 2 }, ms 200 + 2, .a, by decide +kernel⟩,
   ⟨fd .parked (fun x => { x with st := .delay }) fun c => { c with seq := { c.seq with shutStep := 3, shutNow := .shipN } }, ms 200, .a, by decide +kernel⟩⟩

/-- An inrush that began at 2 ns. -/
def ir0 : Inrush := { start := 2, vIn0 := 24000, vBus0 := 100, iL := 5000, update := 5, q := 900 }

/-- The charge pump is up and V_BUS reads 5 V. -/
def pump (c : Chip) : Chip := { c with rail.pumpReady := true, meas.vBus.fastHeld := 5000 }

/-- Feed B in WATCH. -/
def noB (c : Chip) : Chip := { c with feedB.st := .watch, feedB.inr := none }

/-- Feed A in WATCH. -/
def noA (c : Chip) : Chip := { c with feedA.st := .watch, feedA.inr := none }

/-- What the clauses of `InrushBeginsGovernedAndEnds` suppose can be met. -/
theorem witness_InrushBeginsHeldAndGoverned :
    (∃ (s : State) (f : FeedId), s.chip.spi = [] ∧ (
      let ready (f : FeedId) : Prop := (feed s.chip f).st = .held ∧ inrushStepPassed s.chip = true ∧ s.chip.rail.pumpReady =
        true ∧ (feed s.chip (otherFeed f)).inr = none ∧ (feed s.chip f).trip.due = none ∧ s.chip.clk.stopped.getLsbD 0 = false
        ∧ s.chip.seq.shutStep < 7
      (¬ready f ∨ f = FeedId.b ∧ ready FeedId.a))) ∧
    (∃ (s : State) (t : Time) (f : FeedId), s.chip.spi = [] ∧ (∀ (x : Inrush), (feed s.chip f).inr = some x → max s.chip.now t
      < x.update)) ∧
    (∃ (s : State) (f : FeedId), s.chip.spi = [] ∧ (
      let ready (f : FeedId) : Prop := (feed s.chip f).st = .held ∧ inrushStepPassed s.chip = true ∧ s.chip.rail.pumpReady =
        true ∧ (feed s.chip (otherFeed f)).inr = none ∧ (feed s.chip f).trip.due = none ∧ s.chip.clk.stopped.getLsbD 0 = false
        ∧ s.chip.seq.shutStep < 7
      ready f ∧ (f = FeedId.b → ¬ready FeedId.a))) ∧
    (∃ (s : State) (t : Time) (f : FeedId), s.chip.spi = [] ∧ ((feed s.chip f).inr.any fun x => decide (x.update ≤ t ∧ 50 ≤
      s.chip.meas.vBus.fastHeld - x.vBus0)) = true) ∧
    (∃ (s : State) (t : Time) (f : FeedId), s.chip.spi = [] ∧ ((feed s.chip f).inr.any fun x => decide (x.update ≤ t ∧
      s.chip.meas.vBus.fastHeld - x.vBus0 < 50)) = true) :=
  ⟨⟨md .coupled, .a, by decide +kernel⟩,
   ⟨md .coupled, 2, .a, by decide +kernel⟩,
   ⟨fd .parked (fun x => { x with st := .held }) (fun c => noB (pump c)), .a, by decide +kernel⟩,
   ⟨fd .parked (fun x => { x with st := .inrush, inr := some ir0 }) pump, us 260, .a, by decide +kernel⟩,
   ⟨fd .parked (fun x => { x with st := .inrush, inr := some { ir0 with vBus0 := 4960, q := 1/1000 } }) pump, us 260, .a, by decide +kernel⟩⟩

/-- What the clauses of `InrushBeginsGovernedAndEnds` suppose can be met. -/
theorem witness_InrushEndsOnOrFailed :
    (∃ (s : State) (t : Time) (f : FeedId), s.chip.spi = [] ∧ (∀ (x : Inrush), (feed s.chip f).inr = some x → max s.chip.now t
      < x.start + ms (feedCfg s.chip f).inrushTimer)) ∧
    (∃ (s : State) (t : Time) (f : FeedId) (mv : Int) (ns : Nat), s.chip.spi = [] ∧ (
      let holds : Prop := ∃ x, (feed s.chip f).inr = some x ∧ ms 1 ≤ ns ∧ x.start + ms 1 ≤ max s.chip.now t ∧ mv ≤ 500 ∧ (∃
        t0, x.low = some t0 ∧ t0 + ms 1 ≤ max s.chip.now t) ∧ (feed s.chip f).trip.due = none
      ¬holds)) ∧
    (∃ (s : State) (t : Time) (f : FeedId), s.chip.spi = [] ∧ ((feed s.chip f).inr.any fun x => decide (x.start + ms (feedCfg
      s.chip f).inrushTimer ≤ t ∧ feedAccepted (feed s.chip f) = false)) = true) ∧
    (∃ (s : State) (t : Time) (f : FeedId) (mv : Int) (ns : Nat), s.chip.spi = [] ∧ (
      let holds : Prop := ∃ x, (feed s.chip f).inr = some x ∧ ms 1 ≤ ns ∧ x.start + ms 1 ≤ max s.chip.now t ∧ mv ≤ 500 ∧ (∃
        t0, x.low = some t0 ∧ t0 + ms 1 ≤ max s.chip.now t) ∧ (feed s.chip f).trip.due = none
      holds ∧ (feed s.chip f).st = FeedSt.inrush ∧ s.chip.seq.mode = Mode.parked ∧ s.chip.seq.committed = false)) ∧
    (∃ (s : State) (t : Time) (f : FeedId) (mv : Int) (ns : Nat), s.chip.spi = [] ∧ (
      let holds : Prop := ∃ x, (feed s.chip f).inr = some x ∧ ms 1 ≤ ns ∧ x.start + ms 1 ≤ max s.chip.now t ∧ mv ≤ 500 ∧ (∃
        t0, x.low = some t0 ∧ t0 + ms 1 ≤ max s.chip.now t) ∧ (feed s.chip f).trip.due = none
      holds ∧ (feed s.chip f).st ≠ FeedSt.inrush)) ∧
    (∃ (s : State) (t : Time) (f : FeedId), s.chip.spi = [] ∧ ((feed s.chip f).inr.any fun x => decide (x.start + ms (feedCfg
      s.chip f).inrushTimer ≤ t ∧ ¬(feed s.chip f).retries < 3)) = true) :=
  ⟨⟨fd .parked (fun x => { x with st := .inrush, inr := some ir0, retries := 0 }) (fun c => noB (pump c)), 2, .a, by decide +kernel⟩,
   ⟨fd .parked (fun x => { x with st := .inrush, inr := some ir0, retries := 0 }) (fun c => noB (pump c)), 2, .a, 500, 2, by decide +kernel⟩,
   ⟨fd .parked (fun x => { x with st := .inrush, inr := some ir0, retries := 0 }) (fun c => noB (pump c)), ms 50 + 2, .a, by decide +kernel⟩,
   ⟨fd .parked (fun x => { x with st := .inrush, inr := some { ir0 with low := some 2 }, retries := 0 }) (fun c => noB (pump c)), ms 1 + 2, .a, 500, ms 1, by decide +kernel⟩,
   ⟨fd .parked (fun x => { x with st := .blocking, inr := some { ir0 with low := some 2 }, retries := 0 }) (fun c => noA (pump c)), ms 1 + 2, .b, 500, ms 1, by decide +kernel⟩,
   ⟨fd .parked (fun x => { x with st := .inrush, inr := some ir0, retries := 3 }) (fun c => noB (pump c)), ms 50 + 2, .a, by decide +kernel⟩⟩

/-- What the clauses of `IdealDiodeBlocksAndReenables` suppose can be met. -/
theorem witness_IdealDiodeBlocksAndReenables :
    (∃ (s : State) (f : FeedId) (uv : Int), s.chip.spi = [] ∧ (
      let x := feed s.chip f
      let rev : Int := -(((feedCfg s.chip f).revThr * 1000 : Nat) : Int)
      (rev ≤ uv ∨ feedDriven x = false))) ∧
    (∃ (s : State) (f : FeedId) (mv : Int) (ns : Time), s.chip.spi = [] ∧ (
      let x := feed s.chip f
      let holds : Prop := x.st = .blocking ∧ x.inr = none ∧ x.trip.due = none ∧ s.chip.rail.pumpReady = true ∧
        s.chip.clk.stopped.getLsbD 0 = false ∧ us 50 ≤ ns ∧ (x.vT : Int) ≤ mv
      ¬holds)) ∧
    (∃ (s : State) (t : Time) (f : FeedId), s.chip.spi = [] ∧ (
      let x := feed s.chip f
      (feedAccepted x = false ∨ max s.chip.now t < x.winAt + ms 10))) ∧
    (∃ (s : State) (f : FeedId) (uv : Int), s.chip.spi = [] ∧ (
      let x := feed s.chip f
      let rev : Int := -(((feedCfg s.chip f).revThr * 1000 : Nat) : Int)
      uv < rev ∧ feedDriven x = true)) ∧
    (∃ (s : State) (t : Time) (f : FeedId), s.chip.spi = [] ∧ (
      let x := feed s.chip f
      feedAccepted x = true ∧ x.winAt + ms 10 ≤ t ∧ x.noisy = true)) ∧
    (∃ (s : State) (t : Time) (f : FeedId), s.chip.spi = [] ∧ (
      let x := feed s.chip f
      feedAccepted x = true ∧ x.winAt + ms 10 ≤ t ∧ x.noisy = false ∧ max s.chip.now t < x.quietAt + sec 1)) ∧
    (∃ (s : State) (t : Time) (f : FeedId), s.chip.spi = [] ∧ (
      let x := feed s.chip f
      feedAccepted x = true ∧ x.winAt + ms 10 ≤ t ∧ x.noisy = false ∧ x.quietAt + sec 1 ≤ t)) ∧
    (∃ (s : State) (f : FeedId) (mv : Int) (ns : Time), s.chip.spi = [] ∧ (
      let x := feed s.chip f
      let holds : Prop := x.st = .blocking ∧ x.inr = none ∧ x.trip.due = none ∧ s.chip.rail.pumpReady = true ∧
        s.chip.clk.stopped.getLsbD 0 = false ∧ us 50 ≤ ns ∧ (x.vT : Int) ≤ mv
      holds)) :=
  ⟨⟨fd .parked (fun x => { x with st := .absent, vT := 40, winAt := 2, noisy := true }) (fun c => noB (pump c)), .a, -6000, by decide +kernel⟩,
   ⟨fd .parked (fun x => { x with st := .absent, vT := 40, winAt := 2, noisy := true }) (fun c => noB (pump c)), .a, -6000, 2, by decide +kernel⟩,
   ⟨fd .parked (fun x => { x with st := .absent, vT := 40, winAt := 2, noisy := true }) (fun c => noB (pump c)), 2, .a, by decide +kernel⟩,
   ⟨fd .parked (fun x => { x with st := .inrush, vT := 40, winAt := 2, noisy := true }) (fun c => noB (pump c)), .a, -6001, by decide +kernel⟩,
   ⟨fd .parked (fun x => { x with st := .on, vT := 40, winAt := 2, noisy := true }) (fun c => noB (pump c)), ms 10 + 2, .a, by decide +kernel⟩,
   ⟨fd .parked (fun x => { x with st := .on, vT := 20, winAt := 2, quietAt := 2 }) (fun c => noA (pump c)), ms 10 + 2, .b, by decide +kernel⟩,
   ⟨fd .parked (fun x => { x with st := .on, vT := 20, winAt := 2, quietAt := 2 }) (fun c => noA (pump c)), sec 1 + 2, .b, by decide +kernel⟩,
   ⟨fd .parked (fun x => { x with st := .blocking, vT := 40, winAt := 2, noisy := true }) (fun c => noB (pump c)), .a, 40, us 50, by decide +kernel⟩⟩

/-- All comparators changed by `f`. -/
def trips (f : Trip → Trip) (c : Chip) : Chip := { c with feedA.trip := f c.feedA.trip, feedB.trip := f c.feedB.trip, pack.trip := f c.pack.trip }

/-- What the clauses of `FastTripsSinkThenConfirmOrRefute` suppose can be met. -/
theorem witness_FastTripsSinkThenConfirmOrRefute :
    (∃ (s : State) (k : TripId) (uv : Int), s.chip.spi = [] ∧ tripArmed s.chip k = true ∧ (tripOf s.chip k).due = none ∧
      (↑(fastTripUv (tripCode s.chip k)) : Int) ≤ uv ∧ k = TripId.p) ∧
    (∃ (s : State) (k : TripId) (uv : Int), s.chip.spi = [] ∧ (uv < (↑(fastTripUv (tripCode s.chip k)) : Int) ∨ tripArmed
      s.chip k = false ∨ (tripOf s.chip k).due ≠ none)) ∧
    (∃ (s : State) (k : TripId) (n : Nat), s.chip.spi = [] ∧ (tripOf s.chip k).due ≠ none ∧ (
      let above : Prop := (sMin (tripCode s.chip k) : Rat) ≤ confirmSum s.chip k n
      ¬above)) ∧
    (∃ (s : State) (t : Time) (k : TripId) (n : Nat) (f : FeedId), s.chip.spi = [] ∧ (tripOf s.chip k).due ≠ none ∧ (
      let above : Prop := (sMin (tripCode s.chip k) : Rat) ≤ confirmSum s.chip k n
      let times := max s.chip.now t :: (tripOf s.chip k).refuted.filter fun t1 => decide (max s.chip.now t < t1 + sec 1)
      let confirmed : Prop := above ∨ 4 ≤ times.length
      (k = match f with | FeedId.a => TripId.a | FeedId.b => TripId.b) ∧ (
      let x := feed s.chip f
      ¬confirmed ∧ x.st ≠ FeedSt.on))) ∧
    (∃ (s : State) (k : TripId) (n : Nat), s.chip.spi = [] ∧ (tripOf s.chip k).due ≠ none ∧ (
      let above : Prop := (sMin (tripCode s.chip k) : Rat) ≤ confirmSum s.chip k n
      above)) ∧
    (∃ (s : State) (t : Time) (k : TripId) (n : Nat) (f : FeedId), s.chip.spi = [] ∧ (tripOf s.chip k).due ≠ none ∧ (
      let above : Prop := (sMin (tripCode s.chip k) : Rat) ≤ confirmSum s.chip k n
      let times := max s.chip.now t :: (tripOf s.chip k).refuted.filter fun t1 => decide (max s.chip.now t < t1 + sec 1)
      let confirmed : Prop := above ∨ 4 ≤ times.length
      (k = match f with | FeedId.a => TripId.a | FeedId.b => TripId.b) ∧ (
      let x := feed s.chip f
      confirmed ∧ x.st ≠ FeedSt.inrush ∧ feedAccepted x = false))) ∧
    (∃ (s : State) (t : Time) (k : TripId) (n : Nat), s.chip.spi = [] ∧ (tripOf s.chip k).due ≠ none ∧ (
      let above : Prop := (sMin (tripCode s.chip k) : Rat) ≤ confirmSum s.chip k n
      let times := max s.chip.now t :: (tripOf s.chip k).refuted.filter fun t1 => decide (max s.chip.now t < t1 + sec 1)
      let confirmed : Prop := above ∨ 4 ≤ times.length
      k = TripId.p ∧ ¬confirmed)) ∧
    (∃ (s : State) (t : Time) (k : TripId) (n : Nat), s.chip.spi = [] ∧ (tripOf s.chip k).due ≠ none ∧ (
      let above : Prop := (sMin (tripCode s.chip k) : Rat) ≤ confirmSum s.chip k n
      let times := max s.chip.now t :: (tripOf s.chip k).refuted.filter fun t1 => decide (max s.chip.now t < t1 + sec 1)
      let confirmed : Prop := above ∨ 4 ≤ times.length
      k = TripId.p ∧ confirmed ∧ packConnected s.chip.pack.st = true)) ∧
    (∃ (s : State) (t : Time) (k : TripId) (n : Nat) (f : FeedId), s.chip.spi = [] ∧ (tripOf s.chip k).due ≠ none ∧ (
      let above : Prop := (sMin (tripCode s.chip k) : Rat) ≤ confirmSum s.chip k n
      let times := max s.chip.now t :: (tripOf s.chip k).refuted.filter fun t1 => decide (max s.chip.now t < t1 + sec 1)
      let confirmed : Prop := above ∨ 4 ≤ times.length
      (k = match f with | FeedId.a => TripId.a | FeedId.b => TripId.b) ∧ (
      let x := feed s.chip f
      confirmed ∧ (x.st = FeedSt.inrush ∨ feedAccepted x = true)))) ∧
    (∃ (s : State) (t : Time) (k : TripId) (n : Nat), s.chip.spi = [] ∧ (tripOf s.chip k).due ≠ none ∧ (
      let above : Prop := (sMin (tripCode s.chip k) : Rat) ≤ confirmSum s.chip k n
      let times := max s.chip.now t :: (tripOf s.chip k).refuted.filter fun t1 => decide (max s.chip.now t < t1 + sec 1)
      let confirmed : Prop := above ∨ 4 ≤ times.length
      k = TripId.p ∧ confirmed ∧ packConnected s.chip.pack.st = false)) ∧
    (∃ (s : State) (k : TripId) (uv : Int), s.chip.spi = [] ∧ tripArmed s.chip k = true ∧ (tripOf s.chip k).due = none ∧
      (↑(fastTripUv (tripCode s.chip k)) : Int) ≤ uv ∧ k = TripId.a) ∧
    (∃ (s : State) (k : TripId) (uv : Int), s.chip.spi = [] ∧ tripArmed s.chip k = true ∧ (tripOf s.chip k).due = none ∧
      (↑(fastTripUv (tripCode s.chip k)) : Int) ≤ uv ∧ k = TripId.b) ∧
    (∃ (s : State) (t : Time) (k : TripId) (n : Nat) (f : FeedId), s.chip.spi = [] ∧ (tripOf s.chip k).due ≠ none ∧ (
      let above : Prop := (sMin (tripCode s.chip k) : Rat) ≤ confirmSum s.chip k n
      let times := max s.chip.now t :: (tripOf s.chip k).refuted.filter fun t1 => decide (max s.chip.now t < t1 + sec 1)
      let confirmed : Prop := above ∨ 4 ≤ times.length
      (k = match f with | FeedId.a => TripId.a | FeedId.b => TripId.b) ∧ (
      let x := feed s.chip f
      ¬confirmed ∧ (x.st = FeedSt.inrush ∨ x.st = FeedSt.blocking ∧ x.inr ≠ none)))) ∧
    (∃ (s : State) (t : Time) (k : TripId) (n : Nat) (f : FeedId), s.chip.spi = [] ∧ (tripOf s.chip k).due ≠ none ∧ (
      let above : Prop := (sMin (tripCode s.chip k) : Rat) ≤ confirmSum s.chip k n
      let times := max s.chip.now t :: (tripOf s.chip k).refuted.filter fun t1 => decide (max s.chip.now t < t1 + sec 1)
      let confirmed : Prop := above ∨ 4 ≤ times.length
      (k = match f with | FeedId.a => TripId.a | FeedId.b => TripId.b) ∧ (
      let x := feed s.chip f
      ¬confirmed ∧ x.st = FeedSt.on))) :=
  ⟨⟨fd .parked (fun x => { x with st := .absent }) (fun c => { pump c with pack.st := .standby }), .p, ((fastTripUv 5 : Nat) : Int), by decide +kernel⟩,
   ⟨fd .parked (fun x => { x with st := .absent }) (fun c => { pump c with pack.st := .standby }), .a, ((fastTripUv 5 : Nat) : Int), by decide +kernel⟩,
   ⟨fd .parked (fun x => { x with st := .absent, retries := 3 }) (fun c => trips (fun y => { y with due := some 2562 }) { pump c with pack.st := .standby, pack.retries := 3 }), .a, 2, by decide +kernel⟩,
   ⟨fd .parked (fun x => { x with st := .absent, retries := 3 }) (fun c => trips (fun y => { y with due := some 2562 }) { pump c with pack.st := .standby, pack.retries := 3 }), 2, .a, 2, .a, by decide +kernel⟩,
   ⟨fd .parked (fun x => { x with st := .absent, retries := 3 }) (fun c => trips (fun y => { y with due := some 2562 }) { pump c with pack.st := .standby, pack.retries := 3 }), .a, sMin 5, by decide +kernel⟩,
   ⟨fd .parked (fun x => { x with st := .absent, retries := 3 }) (fun c => trips (fun y => { y with due := some 2562 }) { pump c with pack.st := .standby, pack.retries := 3 }), 2, .a, sMin 5, .a, by decide +kernel⟩,
   ⟨fd .parked (fun x => { x with st := .absent, retries := 3 }) (fun c => trips (fun y => { y with due := some 2562 }) { pump c with pack.st := .standby, pack.retries := 3 }), 2, .p, 2, by decide +kernel⟩,
   ⟨fd .parked (fun x => { x with st := .absent, retries := 3 }) (fun c => trips (fun y => { y with due := some 2562 }) { pump c with pack.st := .standby, pack.retries := 3 }), 2, .p, sMin 5, by decide +kernel⟩,
   ⟨fd .coupled (fun x => { x with st := .on }) (fun c => trips (fun y => { y with due := some 2562, refuted := [2, 2, 2] }) (pump c)), 2, .a, 2, .a, by decide +kernel⟩,
   ⟨fd .coupled (fun x => { x with st := .on }) (fun c => trips (fun y => { y with due := some 2562, refuted := [2, 2, 2] }) (pump c)), 2, .p, 2, by decide +kernel⟩,
   ⟨fd .parked (fun x => { x with st := .watch }) (fun c => { pump c with pack.st := .standby }), .a, ((fastTripUv 5 : Nat) : Int), by decide +kernel⟩,
   ⟨fd .parked (fun x => { x with st := .watch }) (fun c => { pump c with pack.st := .standby }), .b, ((fastTripUv 5 : Nat) : Int), by decide +kernel⟩,
   ⟨fd .parked (fun x => { x with st := .inrush, retries := 3 }) (fun c => trips (fun y => { y with due := some 2562 }) { pump c with pack.st := .standby, pack.retries := 3 }), 2, .a, 2, .a, by decide +kernel⟩,
   ⟨fd .parked (fun x => { x with st := .on, retries := 3 }) (fun c => trips (fun y => { y with due := some 2562 }) { pump c with pack.st := .standby, pack.retries := 3 }), 2, .a, 2, .a, by decide +kernel⟩⟩

/-- One VALID sample. -/
def wd (v : Rat) (t : Nat) : List Sample := [⟨v, .valid, t⟩]

/-- What the clauses of `FeedRetriesReversalAndMirage` suppose can be met. -/
theorem witness_FeedRetriesEndAndReset :
    (∃ (s : State) (t : Time) (f : FeedId), s.chip.spi = [] ∧ (
      let x := feed s.chip f
      (x.st ≠ FeedSt.retryWait ∨ max s.chip.now t < x.waitAt + sec 10))) ∧
    (∃ (s : State) (t : Time) (f : FeedId), s.chip.spi = [] ∧ (
      let x := feed s.chip f
      (feedAccepted x = false ∨ max s.chip.now t < x.goodAt + sec 60))) ∧
    (∃ (s : State) (f : FeedId) (mv : Int) (ns : Time), s.chip.spi = [] ∧ (
      let x := feed s.chip f
      (x.st ≠ FeedSt.latched ∨ 4000 ≤ mv ∨ ns < sec 1))) ∧
    (∃ (s : State) (t : Time) (f : FeedId), s.chip.spi = [] ∧ (
      let x := feed s.chip f
      feedAccepted x = true ∧ x.goodAt + sec 60 ≤ t)) ∧
    (∃ (s : State) (t : Time) (f : FeedId), s.chip.spi = [] ∧ (
      let x := feed s.chip f
      x.st = FeedSt.retryWait ∧ x.waitAt + sec 10 ≤ t)) ∧
    (∃ (s : State) (f : FeedId) (mv : Int) (ns : Time), s.chip.spi = [] ∧ (
      let x := feed s.chip f
      x.st = FeedSt.latched ∧ mv < 4000 ∧ sec 1 ≤ ns ∧ (
      let goes := x.armed && windowsOk x && feedSetKnown s.chip
      goes = false))) ∧
    (∃ (s : State) (f : FeedId) (mv : Int) (ns : Time), s.chip.spi = [] ∧ (
      let x := feed s.chip f
      x.st = FeedSt.latched ∧ mv < 4000 ∧ sec 1 ≤ ns ∧ (
      let goes := x.armed && windowsOk x && feedSetKnown s.chip
      goes = true))) :=
  ⟨⟨fd .parked (fun x => { x with st := .absent, waitAt := 2, goodAt := 2, uvOk := true }), 2, .a, by decide +kernel⟩,
   ⟨fd .parked (fun x => { x with st := .absent, waitAt := 2, goodAt := 2, uvOk := true }), 2, .a, by decide +kernel⟩,
   ⟨fd .parked (fun x => { x with st := .absent, waitAt := 2, goodAt := 2, uvOk := true }), .a, 3999, 2, by decide +kernel⟩,
   ⟨fd .parked (fun x => { x with st := .on, waitAt := 2, goodAt := 2, uvOk := true }), sec 60 + 2, .a, by decide +kernel⟩,
   ⟨fd .parked (fun x => { x with st := .retryWait, waitAt := 2, goodAt := 2, uvOk := true }), sec 10 + 2, .a, by decide +kernel⟩,
   ⟨fd .parked (fun x => { x with st := .latched, waitAt := 2, goodAt := 2, uvOk := true }), .a, 3999, sec 1, by decide +kernel⟩,
   ⟨fd .parked (fun x => { x with st := .latched, armed := true, ovOk := true, uvOk := true, mirage := true }), .a, 3999, sec 1, by decide +kernel⟩⟩

/-- What the clauses of `FeedRetriesReversalAndMirage` suppose can be met. -/
theorem witness_ReversedAndMirageFeedsAreHeld :
    (∃ (s : State) (f : FeedId) (mv : Int) (ns : Time), s.chip.spi = [] ∧ (
      let x := feed s.chip f
      let fits : Prop := running s.chip = true ∧ x.st ≠ .absent ∧ x.st ≠ .reversed
      (¬fits ∨ -4000 ≤ mv ∨ ns < ms 100))) ∧
    (∃ (s : State) (f : FeedId) (mv : Int) (ns : Time), s.chip.spi = [] ∧ (
      let x := feed s.chip f
      (x.st ≠ FeedSt.reversed ∨ mv ≤ 0 ∨ ns < ms 100))) ∧
    (∃ (s : State) (t : Time) (f : FeedId), s.chip.spi = [] ∧ (
      let x := feed s.chip f
      let looks : Prop := feedDriven x = false ∧ x.st ≠ .absent ∧ ¬(x.st = .faultHold ∧ x.mirage = true) ∧ x.offAt + ms 3 ≤
        max s.chip.now t ∧ ∃ i, msMean (tick t s.chip) (feedChan f) = some i ∧ 30 < absRat i
      ¬looks)) ∧
    (∃ (s : State) (f : FeedId) (mv : Int) (ns : Time), s.chip.spi = [] ∧ (
      let x := feed s.chip f
      let fits : Prop := running s.chip = true ∧ x.st ≠ .absent ∧ x.st ≠ .reversed
      fits ∧ mv < -4000 ∧ ms 100 ≤ ns ∧ ¬(x.st = FeedSt.faultHold ∧ x.mirage = true) ∧ feedAccepted x = false)) ∧
    (∃ (s : State) (t : Time) (f : FeedId), s.chip.spi = [] ∧ (
      let x := feed s.chip f
      let looks : Prop := feedDriven x = false ∧ x.st ≠ .absent ∧ ¬(x.st = .faultHold ∧ x.mirage = true) ∧ x.offAt + ms 3 ≤
        max s.chip.now t ∧ ∃ i, msMean (tick t s.chip) (feedChan f) = some i ∧ 30 < absRat i
      looks ∧ x.st ≠ FeedSt.faultHold ∧ x.st ≠ FeedSt.reversed ∧ feedAccepted x = false)) ∧
    (∃ (s : State) (f : FeedId) (mv : Int) (ns : Time), s.chip.spi = [] ∧ (
      let x := feed s.chip f
      x.st = FeedSt.reversed ∧ 0 < mv ∧ ms 100 ≤ ns ∧ (
      let goes := x.armed && windowsOk x && feedSetKnown s.chip
      goes = false))) ∧
    (∃ (s : State) (f : FeedId) (mv : Int) (ns : Time), s.chip.spi = [] ∧ (
      let x := feed s.chip f
      x.st = FeedSt.reversed ∧ 0 < mv ∧ ms 100 ≤ ns ∧ (
      let goes := x.armed && windowsOk x && feedSetKnown s.chip
      goes = true))) ∧
    (∃ (s : State) (t : Time) (f : FeedId), s.chip.spi = [] ∧ (
      let x := feed s.chip f
      let looks : Prop := feedDriven x = false ∧ x.st ≠ .absent ∧ ¬(x.st = .faultHold ∧ x.mirage = true) ∧ x.offAt + ms 3 ≤
        max s.chip.now t ∧ ∃ i, msMean (tick t s.chip) (feedChan f) = some i ∧ 30 < absRat i
      looks ∧ x.st = FeedSt.reversed)) ∧
    (∃ (s : State) (f : FeedId) (mv : Int) (ns : Time), s.chip.spi = [] ∧ (
      let x := feed s.chip f
      let fits : Prop := running s.chip = true ∧ x.st ≠ .absent ∧ x.st ≠ .reversed
      fits ∧ mv < -4000 ∧ ms 100 ≤ ns ∧ x.st = FeedSt.faultHold ∧ x.mirage = true)) ∧
    (∃ (s : State) (t : Time) (f : FeedId), s.chip.spi = [] ∧ (
      let x := feed s.chip f
      let looks : Prop := feedDriven x = false ∧ x.st ≠ .absent ∧ ¬(x.st = .faultHold ∧ x.mirage = true) ∧ x.offAt + ms 3 ≤
        max s.chip.now t ∧ ∃ i, msMean (tick t s.chip) (feedChan f) = some i ∧ 30 < absRat i
      looks ∧ x.st = FeedSt.faultHold)) :=
  ⟨⟨fd .parked (fun x => { x with st := .absent, waitAt := 2, goodAt := 2, uvOk := true }), .a, 3999, 2, by decide +kernel⟩,
   ⟨fd .parked (fun x => { x with st := .absent, waitAt := 2, goodAt := 2, uvOk := true }), .a, 3999, 2, by decide +kernel⟩,
   ⟨fd .parked (fun x => { x with st := .absent, waitAt := 2, goodAt := 2, uvOk := true }), 2, .a, by decide +kernel⟩,
   ⟨fd .parked (fun x => { x with st := .watch, waitAt := 2, goodAt := 2, uvOk := true }), .a, -4001, ms 100, by decide +kernel⟩,
   ⟨fd .parked (fun x => { x with st := .watch, offAt := 2 }) (fun c => { c with meas.iA.precHist := wd 500 (ms 3 + 2), meas.iB.precHist := wd (-500) (ms 3 + 2) }), ms 3 + 2, .a, by decide +kernel⟩,
   ⟨fd .parked (fun x => { x with st := .reversed, waitAt := 2, goodAt := 2, uvOk := true }), .a, 1, ms 100, by decide +kernel⟩,
   ⟨fd .parked (fun x => { x with st := .reversed, armed := true, ovOk := true, uvOk := true, mirage := true }), .a, 1, ms 100, by decide +kernel⟩,
   ⟨fd .parked (fun x => { x with st := .reversed, offAt := 2 }) (fun c => { c with meas.iA.precHist := wd 500 (ms 3 + 2), meas.iB.precHist := wd (-500) (ms 3 + 2) }), ms 3 + 2, .a, by decide +kernel⟩,
   ⟨fd .parked (fun x => { x with st := .faultHold, armed := true, ovOk := true, uvOk := true, mirage := true }), .a, -4001, ms 100, by decide +kernel⟩,
   ⟨fd .parked (fun x => { x with st := .faultHold, offAt := 2 }) (fun c => { c with meas.iA.precHist := wd 500 (ms 3 + 2), meas.iB.precHist := wd (-500) (ms 3 + 2) }), ms 3 + 2, .a, by decide +kernel⟩⟩

/-- What the clauses of `KelvinTestsAndTheChargePump` suppose can be met. -/
theorem witness_KelvinTestFindsOpenSenseLines :
    (∃ (s : State) (t : Time) (f : FeedId), s.chip.spi = [] ∧ (
      let starts (k : TripId) (test last : Option Time) : Prop := running s.chip = true ∧ kelvinState s.chip k = true ∧
        (tripOf s.chip k).due = none ∧ test = none ∧ ∀ t0, last = some t0 → t0 + sec 1 ≤ max s.chip.now t
      let k : TripId := match f with | .a => .a | .b => .b
      let x := feed s.chip f
      ¬starts k x.kTest x.kLast)) ∧
    (∃ (s : State) (t : Time) (f : FeedId), s.chip.spi = [] ∧ (
      let ends (test : Option Time) : Prop := ∃ t0, test = some t0 ∧ t0 + ms 1 ≤ max s.chip.now t
      let x := feed s.chip f
      ¬ends x.kTest)) ∧
    (∃ (s : State) (t : Time), s.chip.spi = [] ∧ (
      let starts (k : TripId) (test last : Option Time) : Prop := running s.chip = true ∧ kelvinState s.chip k = true ∧
        (tripOf s.chip k).due = none ∧ test = none ∧ ∀ t0, last = some t0 → t0 + sec 1 ≤ max s.chip.now t
      let y := s.chip.pack
      ¬starts TripId.p y.kTest y.kLast)) ∧
    (∃ (s : State) (t : Time), s.chip.spi = [] ∧ (
      let y := s.chip.pack
      let ends (test : Option Time) : Prop := ∃ t0, test = some t0 ∧ t0 + ms 1 ≤ max s.chip.now t
      ¬ends y.kTest)) ∧
    (∃ (s : State) (t : Time) (f : FeedId), s.chip.spi = [] ∧ (
      let starts (k : TripId) (test last : Option Time) : Prop := running s.chip = true ∧ kelvinState s.chip k = true ∧
        (tripOf s.chip k).due = none ∧ test = none ∧ ∀ t0, last = some t0 → t0 + sec 1 ≤ max s.chip.now t
      let k : TripId := match f with | .a => .a | .b => .b
      let x := feed s.chip f
      starts k x.kTest x.kLast)) ∧
    (∃ (s : State) (t : Time), s.chip.spi = [] ∧ (
      let y := s.chip.pack
      let ends (test : Option Time) : Prop := ∃ t0, test = some t0 ∧ t0 + ms 1 ≤ max s.chip.now t
      ends y.kTest ∧ lineOpen y.kSeen = none)) ∧
    (∃ (s : State) (t : Time), s.chip.spi = [] ∧ (
      let starts (k : TripId) (test last : Option Time) : Prop := running s.chip = true ∧ kelvinState s.chip k = true ∧
        (tripOf s.chip k).due = none ∧ test = none ∧ ∀ t0, last = some t0 → t0 + sec 1 ≤ max s.chip.now t
      let y := s.chip.pack
      starts TripId.p y.kTest y.kLast)) ∧
    (∃ (s : State) (t : Time) (f : FeedId), s.chip.spi = [] ∧ (
      let ends (test : Option Time) : Prop := ∃ t0, test = some t0 ∧ t0 + ms 1 ≤ max s.chip.now t
      let x := feed s.chip f
      ends x.kTest ∧ lineOpen x.kSeen = none)) ∧
    (∃ (s : State) (t : Time), s.chip.spi = [] ∧ (
      let y := s.chip.pack
      let ends (test : Option Time) : Prop := ∃ t0, test = some t0 ∧ t0 + ms 1 ≤ max s.chip.now t
      ends y.kTest ∧ lineOpen y.kSeen = some true ∧ y.st ≠ PackSt.faultHold)) ∧
    (∃ (s : State) (t : Time) (f : FeedId), s.chip.spi = [] ∧ (
      let ends (test : Option Time) : Prop := ∃ t0, test = some t0 ∧ t0 + ms 1 ≤ max s.chip.now t
      let x := feed s.chip f
      ends x.kTest ∧ lineOpen x.kSeen = some true ∧ x.st ≠ FeedSt.faultHold)) ∧
    (∃ (s : State) (t : Time), s.chip.spi = [] ∧ (
      let y := s.chip.pack
      let ends (test : Option Time) : Prop := ∃ t0, test = some t0 ∧ t0 + ms 1 ≤ max s.chip.now t
      ends y.kTest ∧ lineOpen y.kSeen = some false ∧ s.chip.meas.iP.kelvinOpen = true ∧ 2 ≤ satInc 2 y.kPass ∧ y.st =
      PackSt.faultHold ∧ y.mirage = false ∧ s.chip.prs.present = false)) ∧
    (∃ (s : State) (t : Time) (f : FeedId), s.chip.spi = [] ∧ (
      let ends (test : Option Time) : Prop := ∃ t0, test = some t0 ∧ t0 + ms 1 ≤ max s.chip.now t
      let x := feed s.chip f
      ends x.kTest ∧ lineOpen x.kSeen = some false ∧ (x.st ≠ FeedSt.faultHold ∨ x.mirage = true))) ∧
    (∃ (s : State) (t : Time) (f : FeedId), s.chip.spi = [] ∧ (
      let ends (test : Option Time) : Prop := ∃ t0, test = some t0 ∧ t0 + ms 1 ≤ max s.chip.now t
      let x := feed s.chip f
      ends x.kTest ∧ lineOpen x.kSeen = some false ∧ (chan s.chip (feedChan f)).kelvinOpen = true ∧ 2 ≤ satInc 2 x.kPass ∧
      x.st = FeedSt.faultHold ∧ x.mirage = false ∧ x.uvOk = false)) :=
  ⟨⟨md .unpowered, 2, .a, by decide +kernel⟩,
   ⟨md .unpowered, 2, .a, by decide +kernel⟩,
   ⟨md .unpowered, 2, by decide +kernel⟩,
   ⟨md .unpowered, 2, by decide +kernel⟩,
   ⟨fd .coupled id (fun c => { c with pack := { c.pack with st := .standby, kTest := some 2, kPass := 1, kSeen := ({}) } }), 2, .a, by decide +kernel⟩,
   ⟨fd .coupled id (fun c => { c with pack := { c.pack with st := .standby, kTest := some 2, kPass := 1, kSeen := ({}) } }), ms 1 + 2, by decide +kernel⟩,
   ⟨fd .coupled (fun x => { x with st := .absent }), 2, by decide +kernel⟩,
   ⟨fd .coupled (fun x => { x with st := .absent, kTest := some 2, kPass := 1, kSeen := ({}) }), ms 1 + 2, .a, by decide +kernel⟩,
   ⟨fd .coupled id (fun c => { c with pack := { c.pack with st := .standby, kTest := some 2, kPass := 1, kSeen := ({ p := some true, n := some false }) } }), ms 1 + 2, by decide +kernel⟩,
   ⟨fd .coupled (fun x => { x with st := .absent, kTest := some 2, kPass := 1, kSeen := ({ p := some true, n := some false }) }), ms 1 + 2, .a, by decide +kernel⟩,
   ⟨fd .coupled id (fun c => { c with meas.iP.kelvinOpen := true, pack := { c.pack with st := .faultHold, kTest := some 2, kPass := 1, kSeen := ({ p := some false, n := some false }) } }), ms 1 + 2, by decide +kernel⟩,
   ⟨fd .coupled (fun x => { x with st := .absent, kTest := some 2, kPass := 1, kSeen := ({ p := some false, n := some false }) }), ms 1 + 2, .a, by decide +kernel⟩,
   ⟨fd .coupled (fun x => { x with st := .faultHold, kTest := some 2, kPass := 1, kSeen := ({ p := some false, n := some false }) }) (fun c => { c with meas.iA.kelvinOpen := true }), ms 1 + 2, .a, by decide +kernel⟩⟩

/-- What the clauses of `KelvinTestsAndTheChargePump` suppose can be met. -/
theorem witness_ChargePumpGatesThePaths :
    (∃ (s : State) (mv : Int), s.chip.spi = [] ∧ (running s.chip = false ∨ 10000 ≤ mv)) ∧
    (∃ (s : State) (mv : Int) (ns : Nat), s.chip.spi = [] ∧ (running s.chip = false ∨ mv < 10000 ∨ ns < us 100)) ∧
    (∃ (s : State) (mv : Int) (ns : Nat), s.chip.spi = [] ∧ running s.chip = true ∧ mv < 10000 ∧ (8000 ≤ mv ∨ ns < us 100)) ∧
    (∃ (s : State) (mv : Int) (ns : Nat) (f : FeedId), s.chip.spi = [] ∧ running s.chip = true ∧ mv < 8000 ∧ us 100 ≤ ns ∧
      feedAccepted (feed s.chip f) = false ∧ (feed s.chip f).st ≠ FeedSt.inrush) ∧
    (∃ (s : State) (mv : Int) (ns : Nat), s.chip.spi = [] ∧ running s.chip = true ∧ mv < 8000 ∧ us 100 ≤ ns ∧ packSunkSt
      s.chip.pack.st = false) ∧
    (∃ (s : State) (mv : Int) (ns : Nat), s.chip.spi = [] ∧ running s.chip = true ∧ 10000 ≤ mv ∧ us 100 ≤ ns ∧
      s.chip.pack.cpLow = false) ∧
    (∃ (s : State) (mv : Int) (ns : Nat) (f : FeedId), s.chip.spi = [] ∧ running s.chip = true ∧ mv < 8000 ∧ us 100 ≤ ns ∧
      (feed s.chip f).st = FeedSt.inrush) ∧
    (∃ (s : State) (mv : Int) (ns : Nat) (f : FeedId), s.chip.spi = [] ∧ running s.chip = true ∧ mv < 8000 ∧ us 100 ≤ ns ∧
      feedAccepted (feed s.chip f) = true) ∧
    (∃ (s : State) (mv : Int) (ns : Nat), s.chip.spi = [] ∧ running s.chip = true ∧ 10000 ≤ mv ∧ us 100 ≤ ns ∧
      s.chip.pack.cpLow = true ∧ anyFeed s.chip = true ∧ s.chip.seq.spursOn = true) :=
  ⟨⟨md .unpowered, 7999, by decide +kernel⟩,
   ⟨md .unpowered, 7999, 2, by decide +kernel⟩,
   ⟨fd .parked (fun x => { x with st := .absent }) (fun c => { pump c with pack.st := .standby }), 9999, us 100 - 1, by decide +kernel⟩,
   ⟨fd .parked (fun x => { x with st := .absent }) (fun c => { pump c with pack.st := .standby }), 7999, us 100, .a, by decide +kernel⟩,
   ⟨fd .parked (fun x => { x with st := .absent }) (fun c => { pump c with pack.st := .standby }), 7999, us 100, by decide +kernel⟩,
   ⟨fd .parked (fun x => { x with st := .absent }) (fun c => { pump c with pack.st := .standby }), 10000, us 100, by decide +kernel⟩,
   ⟨fd .parked (fun x => { x with st := .inrush }) (fun c => { pump c with pack.st := .standby }), 7999, us 100, .a, by decide +kernel⟩,
   ⟨fd .parked (fun x => { x with st := .on }) (fun c => { pump c with pack.st := .standby }), 7999, us 100, .a, by decide +kernel⟩,
   ⟨fd .parked (fun x => { x with st := .on }) (fun c => { pump c with pack.st := .standby, pack.cpLow := true, seq.spursOn := true }), 10000, us 100, by decide +kernel⟩⟩

end Sys2Proof.Tests.Feeds

namespace Sys2Proof.Tests.Packs

open Sys2Proof.Machine

/-- V_BUS and V_PACK read `b` and `p`. -/
def vb (b p : Rat) (c : Chip) : Chip := { c with
  meas.vBus := { c.meas.vBus with running := true, fastHeld := b, precHeld := b, prec := ⟨b, .valid, 2⟩, precHist := [⟨b, .valid, 2⟩] }
  meas.vPack := { c.meas.vPack with running := true, fastHeld := p, precHeld := p, prec := ⟨p, .valid, 2⟩, precHist := [⟨p, .valid, 2⟩] } }

/-- Every condition of the pack has held since 2 ns. -/
def held2 : PackSince := { preDone := some 2, drop := some 2, reversed := some 2, forward := some 2, mirageHigh := some 2, floor := some 2, chgHigh := some 2, chgOver := some 2, chgNone := some 2 }

/-- Mode `m` with feed A ON and the pack path changed by `f`. -/
def pk (m : Mode) (f : Pack → Pack) (g : Chip → Chip := id) : State := md m fun c => g { c with pack := f c.pack, feedA.st := .on, feedA.uvOk := true, seq.spursOn := true, prs.present := true, tag.verdict := .authenticated }

/-- What the clauses of `PrechargeAndThePackDiode` suppose can be met. -/
theorem witness_PrechargeStartsCompletesOrFails :
    (∃ (d : Chip), anyFeed d = true ∧ d.seq.spursOn = true) ∧
    (∃ (s : State) (t : Time),
      let c := tick t s.chip
      let p := s.chip.pack
      let above : Prop := cellsTimes c ((cfg c).charger.vChg + 200) < packMv c
      let barred : Prop := (cfg c).pack.unauth = 1 ∧ (c.tag.verdict = .notAuthenticated ∨ c.tag.verdict = .silent)
      let mayLeave : Prop := p.st = .wait ∧ ¬above ∧ ¬barred ∧ authorised c = true ∧ inrushing c = false ∧
        c.clk.stopped.getLsbD 0 = false
      (p.st ≠ PackSt.wait ∨ ¬above ∧ ¬barred ∧ ¬mayLeave ∨ mayLeave ∧ 1000 < packMv c - busMv c ∧ prechargePermitted c =
      false)) ∧
    (∃ (s : State) (t : Time),
      let c := tick t s.chip
      let p := s.chip.pack
      let completes : Prop := p.st = .precharge ∧ p.cpLow = false ∧ ∃ t0, p.hold.preDone = some t0 ∧ t0 + ms 8 ≤ c.now
      ¬completes) ∧
    (∃ (s : State) (t : Time),
      let c := tick t s.chip
      let p := s.chip.pack
      (p.st ≠ PackSt.precharge ∨ p.cpLow = true ∨ c.now < p.preAt + ms (cfg c).pack.preTime) ∧ s.chip.spi = []) ∧
    (∃ (s : State) (t : Time),
      let c := tick t s.chip
      let p := s.chip.pack
      let above : Prop := cellsTimes c ((cfg c).charger.vChg + 200) < packMv c
      let barred : Prop := (cfg c).pack.unauth = 1 ∧ (c.tag.verdict = .notAuthenticated ∨ c.tag.verdict = .silent)
      let mayLeave : Prop := p.st = .wait ∧ ¬above ∧ ¬barred ∧ authorised c = true ∧ inrushing c = false ∧
        c.clk.stopped.getLsbD 0 = false
      mayLeave ∧ 1000 < packMv c - busMv c ∧ prechargePermitted c = true) ∧
    (∃ (s : State) (t : Time),
      let c := tick t s.chip
      let p := s.chip.pack
      let above : Prop := cellsTimes c ((cfg c).charger.vChg + 200) < packMv c
      let barred : Prop := (cfg c).pack.unauth = 1 ∧ (c.tag.verdict = .notAuthenticated ∨ c.tag.verdict = .silent)
      p.st = PackSt.wait ∧ ¬above ∧ barred) ∧
    (∃ (s : State) (t : Time),
      let c := tick t s.chip
      let p := s.chip.pack
      let above : Prop := cellsTimes c ((cfg c).charger.vChg + 200) < packMv c
      let barred : Prop := (cfg c).pack.unauth = 1 ∧ (c.tag.verdict = .notAuthenticated ∨ c.tag.verdict = .silent)
      let mayLeave : Prop := p.st = .wait ∧ ¬above ∧ ¬barred ∧ authorised c = true ∧ inrushing c = false ∧
        c.clk.stopped.getLsbD 0 = false
      mayLeave ∧ packMv c - busMv c ≤ 1000) ∧
    (∃ (s : State) (t : Time),
      let c := tick t s.chip
      let p := s.chip.pack
      let above : Prop := cellsTimes c ((cfg c).charger.vChg + 200) < packMv c
      p.st = PackSt.wait ∧ above) ∧
    (∃ (s : State) (t : Time),
      let c := tick t s.chip
      let p := s.chip.pack
      p.st = PackSt.precharge ∧ p.cpLow = false ∧ p.preAt + ms (cfg c).pack.preTime ≤ t ∧ s.chip.spi = []) ∧
    (∃ (s : State) (t : Time),
      let c := tick t s.chip
      let p := s.chip.pack
      let completes : Prop := p.st = .precharge ∧ p.cpLow = false ∧ ∃ t0, p.hold.preDone = some t0 ∧ t0 + ms 8 ≤ c.now
      completes) :=
  ⟨⟨(pk .coupled id).chip, by decide +kernel⟩,
   ⟨md .coupled, 2, by decide +kernel⟩,
   ⟨md .coupled, 2, by decide +kernel⟩,
   ⟨md .coupled, 2, by decide +kernel⟩,
   ⟨pk .coupled (fun x => { x with st := .wait }) (vb 20000 25000), 2, by decide +kernel⟩,
   ⟨pk .coupled (fun x => { x with st := .wait, hold := held2 }) (fun c => { vb 20000 25000 c with img.cfg.pack.unauth := 1, tag.verdict := .silent }), 2, by decide +kernel⟩,
   ⟨pk .coupled (fun x => { x with st := .wait, hold := held2 }) (vb 24500 25000), 2, by decide +kernel⟩,
   ⟨pk .coupled (fun x => { x with st := .wait }) (vb 24000 31000), 2, by decide +kernel⟩,
   ⟨pk .coupled (fun x => { x with st := .precharge, hold := held2, preAt := 2, preBus := 19500 }) (vb 24500 25000), ms 250 + 2, by decide +kernel⟩,
   ⟨pk .coupled (fun x => { x with st := .precharge, hold := held2 }) (fun c => { vb 20000 25000 c with img.cfg.pack.unauth := 1, tag.verdict := .silent }), ms 250 + 2, by decide +kernel⟩⟩

/-- What the clauses of `PrechargeAndThePackDiode` suppose can be met. -/
theorem witness_PackDiodeFollowsTheRail :
    (∃ (s : State) (t : Time), s.chip.spi = [] ∧ (
      let c := tick t s.chip
      let p := s.chip.pack
      let again : Prop := p.st = .standby ∧ p.cpLow = false ∧ p.trip.due = none ∧ c.clk.stopped.getLsbD 0 = false ∧
        reenableInhibited c = false ∧ ∃ t0, p.hold.drop = some t0 ∧ t0 + us 10 ≤ c.now
      ¬again)) ∧
    (∃ (s : State) (t ns : Time), s.chip.spi = [] ∧ (
      let c := tick t s.chip
      let p := s.chip.pack
      (p.st ≠ PackSt.diode ∨ inLimp s.chip = true ∨ anyCarrying c = false ∨ ns < ms 1))) ∧
    (∃ (s : State) (uv : Int), s.chip.spi = [] ∧ (
      let p := s.chip.pack
      let rev : Int := -(((cfg s.chip).pack.revThr * 1000 : Nat) : Int)
      (p.st ≠ PackSt.diode ∨ rev ≤ uv))) ∧
    (∃ (s : State) (t : Time), s.chip.spi = [] ∧ (
      let c := tick t s.chip
      let p := s.chip.pack
      let again : Prop := p.st = .standby ∧ p.cpLow = false ∧ p.trip.due = none ∧ c.clk.stopped.getLsbD 0 = false ∧
        reenableInhibited c = false ∧ ∃ t0, p.hold.drop = some t0 ∧ t0 + us 10 ≤ c.now
      again ∧ anyFeed s.chip = true ∧ s.chip.seq.spursOn = true)) ∧
    (∃ (s : State) (uv : Int), s.chip.spi = [] ∧ (
      let p := s.chip.pack
      let rev : Int := -(((cfg s.chip).pack.revThr * 1000 : Nat) : Int)
      p.st = PackSt.diode ∧ uv < rev)) ∧
    (∃ (s : State) (t ns : Time), s.chip.spi = [] ∧ (
      let c := tick t s.chip
      let p := s.chip.pack
      p.st = PackSt.diode ∧ inLimp s.chip = false ∧ anyCarrying c = true ∧ ms 1 ≤ ns)) :=
  ⟨⟨md .coupled, 2, by decide +kernel⟩,
   ⟨md .coupled, 2, 2, by decide +kernel⟩,
   ⟨md .coupled, 150, by decide +kernel⟩,
   ⟨pk .coupled (fun x => { x with st := .standby, hold := held2 }) (vb 20000 25000), ms 1, by decide +kernel⟩,
   ⟨pk .coupled (fun x => { x with st := .diode, hold := held2 }) (vb 20000 25000), -6001, by decide +kernel⟩,
   ⟨pk .coupled (fun x => { x with st := .diode }) (fun c => { vb 20000 25000 c with meas.iA := { c.meas.iA with running := true, fastHeld := 9000, precHeld := 9000, precHist := [⟨9000, .valid, 2⟩] } }), 2, ms 1, by decide +kernel⟩⟩

/-- A gauge that nothing keeps from charging. -/
def okc (v : Rat) (c : Chip) : Chip := { vb 26000 v c with
  img.cfg.board.fitted := 0xFF, seq.strap := .opn
  pack := { c.pack with st := .standby, fedAt := some 0, standbyAt := 0 }
  tag := { c.tag with verdict := .authenticated, header := [0,0,0,0,0,0,8,0] }
  tmp := { c.tmp with chgClosed := false, packSrc := 1, packFormed := true, pack := 2500, packHi := 2500, packLo := 2500, die := { c.tmp.die with formed := true, temp := 2500, at_ := sec 20 }, ts1 := { c.tmp.ts1 with formed := true, temp := 2500, at_ := sec 20 } }
  gauge.formed := true }

/-- What the clauses of `ChargingStartsIsLimitedAndFaults` suppose can be met. -/
theorem witness_ChargingStartsWhenNothingForbidsIt :
    (∃ (s : State) (t : Time), s.chip.spi = [] ∧ (
      let reasons := (chargeReasons (tick t s.chip)).filter (·.2)
      reasons = [] ∧ (s.chip.cal.run = false ∨ s.chip.cal.ch ≠ 2) ∧ s.chip.seq.shutStep < 6)) ∧
    (∃ (s : State) (t : Time) (b : Bool), s.chip.spi = [] ∧ (
      let reasons := (chargeReasons (tick t s.chip)).filter (·.2)
      reasons = [(10, b)] ∧ s.chip.chg.latDeep = false)) ∧
    (∃ (s : State) (t : Time), s.chip.spi = [] ∧ (
      let reasons := (chargeReasons (tick t s.chip)).filter (·.2)
      (match reasons with
      | [(k, _)] => decide ((k ≠ 10 ∨ s.chip.chg.latDeep = true))
      | _ => false) = true)) ∧
    (∃ (s : State) (t : Time), s.chip.spi = [] ∧ (
      let reasons := (chargeReasons (tick t s.chip)).filter (·.2)
      (match reasons with
      | _ :: _ :: _ => true
      | _ => false) = true)) ∧
    (∃ (s : State) (t : Time), s.chip.spi = [] ∧ (
      let reasons := (chargeReasons (tick t s.chip)).filter (·.2)
      reasons = [] ∧ s.chip.cal.run = true ∧ s.chip.cal.ch = 2)) :=
  ⟨⟨pk .coupled id (okc 26000), sec 20, by decide +kernel⟩,
   ⟨pk .coupled id (okc 11000), sec 20, true, by decide +kernel⟩,
   ⟨pk .coupled id (fun c => { okc 11000 c with chg.latDeep := true }), sec 20, by decide +kernel⟩,
   ⟨pk .coupled id (fun c => { okc 11000 c with tag.verdict := .none }), sec 20, by decide +kernel⟩,
   ⟨pk .depot id (fun c => { okc 26000 c with cal := { c.cal with run := true, ch := 2 } }), sec 20, by decide +kernel⟩⟩

/-- A charging gauge. -/
def chs (f : Chg → Chg) (g : Chip → Chip := id) : State := pk .coupled (fun x => { x with st := .charge }) (fun c => g { vb 28000 28801 c with chg := f { c.chg with iFeed := 10000, iCv := 10000, setAt := 2, cvAt := 2, trimAt := 2, feedDnAt := 2, feedUpAt := 2, k := 1, set := 77, session := 4 } })

/-- What the clauses of `ChargingStartsIsLimitedAndFaults` suppose can be met. -/
theorem witness_ChargeLimitsAndTrimFollowTheirLaws :
    (∃ (s : State) (t : Time), s.chip.spi = [] ∧ (
      let c := tick t s.chip
      let g := s.chip.chg
      let on : Prop := charging s.chip = true
      (¬on ∨ c.now < g.setAt + ms 10))) ∧
    (∃ (s : State) (t : Time), s.chip.spi = [] ∧ (
      let c := tick t s.chip
      let g := s.chip.chg
      let on : Prop := charging s.chip = true
      (¬on ∨ g.spanPoint = true ∨ c.now < g.cvAt + ms 100))) ∧
    (∃ (s : State) (t : Time), s.chip.spi = [] ∧ (
      let c := tick t s.chip
      let g := s.chip.chg
      let on : Prop := charging s.chip = true
      let hot := (feedsOn s.chip).any fun f => decide (1 < 2 * f.heat)
      let cool := (feedsOn s.chip).all fun f => decide (4 * f.heat < 1)
      (¬on ∨ g.spanPoint = true ∨ hot = true ∧ c.now < g.feedDnAt + sec 1 ∨ hot = false ∧ (cool = false ∨ c.now < g.feedUpAt +
      sec 10)))) ∧
    (∃ (s : State) (t : Time), s.chip.spi = [] ∧ (
      let c := tick t s.chip
      let g := s.chip.chg
      let on : Prop := charging s.chip = true
      (¬on ∨ c.now < g.trimAt + sec 1))) ∧
    (∃ (s : State) (ns : Time), s.chip.spi = [] ∧ (
      let on : Prop := charging s.chip = true
      (¬on ∨ ns < us 20))) ∧
    (∃ (s : State) (ns : Time), s.chip.spi = [] ∧ (
      let on : Prop := charging s.chip = true
      on ∧ us 20 ≤ ns)) ∧
    (∃ (s : State) (t : Time), s.chip.spi = [] ∧ (
      let g := s.chip.chg
      let on : Prop := charging s.chip = true
      on ∧ g.setAt + ms 10 ≤ t)) ∧
    (∃ (s : State) (t : Time), s.chip.spi = [] ∧ (
      let g := s.chip.chg
      let on : Prop := charging s.chip = true
      on ∧ g.spanPoint = false ∧ g.cvAt + ms 100 ≤ t)) ∧
    (∃ (s : State) (t : Time), s.chip.spi = [] ∧ (
      let c := tick t s.chip
      let g := s.chip.chg
      let on : Prop := charging s.chip = true
      on ∧ g.trimAt + sec 1 ≤ t ∧ (g.spanPoint = true ∨ iMeas c ≤ 200))) ∧
    (∃ (s : State) (t : Time), s.chip.spi = [] ∧ (
      let g := s.chip.chg
      let on : Prop := charging s.chip = true
      let hot := (feedsOn s.chip).any fun f => decide (1 < 2 * f.heat)
      let cool := (feedsOn s.chip).all fun f => decide (4 * f.heat < 1)
      on ∧ g.spanPoint = false ∧ hot = false ∧ cool = true ∧ g.feedUpAt + sec 10 ≤ t)) ∧
    (∃ (s : State) (t : Time), s.chip.spi = [] ∧ (
      let g := s.chip.chg
      let on : Prop := charging s.chip = true
      let hot := (feedsOn s.chip).any fun f => decide (1 < 2 * f.heat)
      on ∧ g.spanPoint = false ∧ hot = true ∧ g.feedDnAt + sec 1 ≤ t)) :=
  ⟨⟨md .coupled, 2, by decide +kernel⟩,
   ⟨md .coupled, 2, by decide +kernel⟩,
   ⟨md .coupled, 2, by decide +kernel⟩,
   ⟨md .coupled, 2, by decide +kernel⟩,
   ⟨md .coupled, 2, by decide +kernel⟩,
   ⟨chs id, us 20, by decide +kernel⟩,
   ⟨chs id, ms 10 + 2, by decide +kernel⟩,
   ⟨chs id, ms 100 + 2, by decide +kernel⟩,
   ⟨chs (fun x => { x with iFeed := 3 }) (fun c => { vb 28000 29001 c with feedA.heat := 6/10, chg.spanPoint := true }), sec 1 + 2, by decide +kernel⟩,
   ⟨chs id, sec 10 + 2, by decide +kernel⟩,
   ⟨chs (fun x => { x with k := 3/4 }) (fun c => { vb 28000 29001 c with feedA.heat := 6/10 }), sec 1 + 2, by decide +kernel⟩⟩

/-- What the clauses of `ChargingStartsIsLimitedAndFaults` suppose can be met. -/
theorem witness_ChargerFaultsEndChargingAndLatch :
    (∃ (s : State) (t : Time) (kind : ChgKind), s.chip.spi = [] ∧ (
      let held (d : Time) (o : Option Time) : Prop := ∃ t0, o = some t0 ∧ t0 + d ≤ max s.chip.now t
      let full : Rat := if s.chip.learn.learned then s.chip.learn.qFcc else ((cfg s.chip).pack.designCap : Rat)
      let holds : Prop := (kind = .overvolt ∧ held (sec 1) s.chip.pack.hold.chgHigh) ∨ (kind = .overCurrent ∧ held (sec 1)
        s.chip.pack.hold.chgOver) ∨ (kind = .trimLimit ∧ held (sec 30) s.chip.chg.kBadAt) ∨ (kind = .noCurrent ∧ held (sec 10)
        s.chip.pack.hold.chgNone) ∨ (kind = .overcharge ∧ 5 / 4 * full < s.chip.chg.session)
      (charging s.chip = false ∨ ¬holds))) ∧
    (∃ (s : State) (t : Time) (kind : ChgKind), s.chip.spi = [] ∧ (
      let held (d : Time) (o : Option Time) : Prop := ∃ t0, o = some t0 ∧ t0 + d ≤ max s.chip.now t
      let full : Rat := if s.chip.learn.learned then s.chip.learn.qFcc else ((cfg s.chip).pack.designCap : Rat)
      let holds : Prop := (kind = .overvolt ∧ held (sec 1) s.chip.pack.hold.chgHigh) ∨ (kind = .overCurrent ∧ held (sec 1)
        s.chip.pack.hold.chgOver) ∨ (kind = .trimLimit ∧ held (sec 30) s.chip.chg.kBadAt) ∨ (kind = .noCurrent ∧ held (sec 10)
        s.chip.pack.hold.chgNone) ∨ (kind = .overcharge ∧ 5 / 4 * full < s.chip.chg.session)
      charging s.chip = true ∧ holds ∧ (kind = ChgKind.overCurrent ∨ kind = ChgKind.trimLimit))) ∧
    (∃ (s : State) (t : Time) (kind : ChgKind), s.chip.spi = [] ∧ (
      let held (d : Time) (o : Option Time) : Prop := ∃ t0, o = some t0 ∧ t0 + d ≤ max s.chip.now t
      let full : Rat := if s.chip.learn.learned then s.chip.learn.qFcc else ((cfg s.chip).pack.designCap : Rat)
      let holds : Prop := (kind = .overvolt ∧ held (sec 1) s.chip.pack.hold.chgHigh) ∨ (kind = .overCurrent ∧ held (sec 1)
        s.chip.pack.hold.chgOver) ∨ (kind = .trimLimit ∧ held (sec 30) s.chip.chg.kBadAt) ∨ (kind = .noCurrent ∧ held (sec 10)
        s.chip.pack.hold.chgNone) ∨ (kind = .overcharge ∧ 5 / 4 * full < s.chip.chg.session)
      charging s.chip = true ∧ holds ∧ kind = ChgKind.overcharge)) ∧
    (∃ (s : State) (t : Time) (kind : ChgKind), s.chip.spi = [] ∧ (
      let held (d : Time) (o : Option Time) : Prop := ∃ t0, o = some t0 ∧ t0 + d ≤ max s.chip.now t
      let full : Rat := if s.chip.learn.learned then s.chip.learn.qFcc else ((cfg s.chip).pack.designCap : Rat)
      let holds : Prop := (kind = .overvolt ∧ held (sec 1) s.chip.pack.hold.chgHigh) ∨ (kind = .overCurrent ∧ held (sec 1)
        s.chip.pack.hold.chgOver) ∨ (kind = .trimLimit ∧ held (sec 30) s.chip.chg.kBadAt) ∨ (kind = .noCurrent ∧ held (sec 10)
        s.chip.pack.hold.chgNone) ∨ (kind = .overcharge ∧ 5 / 4 * full < s.chip.chg.session)
      charging s.chip = true ∧ holds ∧ kind = ChgKind.overvolt)) ∧
    (∃ (s : State) (t : Time) (kind : ChgKind), s.chip.spi = [] ∧ (
      let held (d : Time) (o : Option Time) : Prop := ∃ t0, o = some t0 ∧ t0 + d ≤ max s.chip.now t
      let full : Rat := if s.chip.learn.learned then s.chip.learn.qFcc else ((cfg s.chip).pack.designCap : Rat)
      let holds : Prop := (kind = .overvolt ∧ held (sec 1) s.chip.pack.hold.chgHigh) ∨ (kind = .overCurrent ∧ held (sec 1)
        s.chip.pack.hold.chgOver) ∨ (kind = .trimLimit ∧ held (sec 30) s.chip.chg.kBadAt) ∨ (kind = .noCurrent ∧ held (sec 10)
        s.chip.pack.hold.chgNone) ∨ (kind = .overcharge ∧ 5 / 4 * full < s.chip.chg.session)
      charging s.chip = true ∧ holds ∧ kind = ChgKind.noCurrent)) :=
  ⟨⟨md .coupled, 2, .overvolt, by decide +kernel⟩,
   ⟨chs (fun x => { x with kBadAt := some 2, session := 125000 }), sec 30 + 2, .trimLimit, by decide +kernel⟩,
   ⟨chs (fun x => { x with session := 125001 }), 2, .overcharge, by decide +kernel⟩,
   ⟨chs id (fun c => { c with pack.hold := held2 }), sec 10, .overvolt, by decide +kernel⟩,
   ⟨chs id (fun c => { c with pack.hold := held2 }), sec 30 + 2, .noCurrent, by decide +kernel⟩⟩

/-- V_PACK and the pack current read `v` and `i`. -/
def smp (v i : Rat) (c : Chip) : Chip := { c with
  meas.vPack := { c.meas.vPack with running := true, precHist := (List.range 20).map fun k => ⟨v, .valid, sec 1 - k * 1000⟩ }
  meas.iP := { c.meas.iP with running := true, precHist := (List.range 20).map fun k => ⟨i, .valid, sec 1 - k * 1000⟩ } }

/-- What the clauses of `EndsOfDischargeAndOfCharge` suppose can be met. -/
theorem witness_TaperSecondsDeclareEndOfCharge :
    (∃ (s : State) (t : Time), s.chip.spi = [] ∧ (
      let judged : Prop := charging s.chip = true ∧ s.chip.chg.spanPoint = false ∧ inLimp s.chip = false ∧ s.chip.gauge.eocAt
        + sec 1 ≤ max s.chip.now t
      ¬judged)) ∧
    (∃ (s : State) (t : Time), s.chip.spi = [] ∧ (
      let judged : Prop := charging s.chip = true ∧ s.chip.chg.spanPoint = false ∧ inLimp s.chip = false ∧ s.chip.gauge.eocAt
        + sec 1 ≤ max s.chip.now t
      let c0 := { tick t s.chip with gauge.eocAt := max s.chip.now t }
      judged ∧ eocSecond c0 = none)) ∧
    (∃ (s : State) (t : Time), s.chip.spi = [] ∧ (
      let judged : Prop := charging s.chip = true ∧ s.chip.chg.spanPoint = false ∧ inLimp s.chip = false ∧ s.chip.gauge.eocAt
        + sec 1 ≤ max s.chip.now t
      let c0 := { tick t s.chip with gauge.eocAt := max s.chip.now t }
      judged ∧ eocSecond c0 = some true ∧ s.chip.gauge.eocN < 179)) ∧
    (∃ (s : State) (t : Time), s.chip.spi = [] ∧ (
      let judged : Prop := charging s.chip = true ∧ s.chip.chg.spanPoint = false ∧ inLimp s.chip = false ∧ s.chip.gauge.eocAt
        + sec 1 ≤ max s.chip.now t
      let c0 := { tick t s.chip with gauge.eocAt := max s.chip.now t }
      judged ∧ eocSecond c0 = some false)) ∧
    (∃ (s : State) (t : Time), s.chip.spi = [] ∧ (
      let judged : Prop := charging s.chip = true ∧ s.chip.chg.spanPoint = false ∧ inLimp s.chip = false ∧ s.chip.gauge.eocAt
        + sec 1 ≤ max s.chip.now t
      let c0 := { tick t s.chip with gauge.eocAt := max s.chip.now t }
      judged ∧ eocSecond c0 = some true ∧ 179 ≤ s.chip.gauge.eocN)) :=
  ⟨⟨chs id, 2, by decide +kernel⟩,
   ⟨chs id, sec 1, by decide +kernel⟩,
   ⟨chs id (fun c => { smp 28700 (-1) c with gauge.eocN := 178, learn.qFcc := 5000 }), sec 1, by decide +kernel⟩,
   ⟨chs id (smp 20000 (-1)), sec 1, by decide +kernel⟩,
   ⟨chs id (fun c => { smp 28700 (-1) c with gauge.eocN := 179, learn.qFcc := 5000 }), sec 1, by decide +kernel⟩⟩

/-- Mode `m`, pack state `p`, with the share loop changed by `f`. -/
def shp (m : Mode) (p : PackSt) (f : Share → Share) : State := pk m (fun x => { x with st := p, vTp := 205/10 }) fun c => { vb 26000 26000 c with seq.strap := .dgnd, share := f { c.share with at_ := 2 } }

/-- What the clauses of `ShareLoopDrivesAndFaults` suppose can be met. -/
theorem witness_ShareLoopDrivesAndFaults :
    (∃ (s : State), s.chip.spi = [] ∧ shareDriven s.chip = false) ∧
    (∃ (s : State) (code : Nat) (ns : Time), s.chip.spi = [] ∧ (
      let vB : Rat := (code : Rat) * 2500 / 1024
      let within : Prop := 100 ≤ vB ∧ vB ≤ 2300
      (shareDriven s.chip = false ∨ ns < ms 10 ∨ within))) ∧
    (∃ (s : State), s.chip.spi = [] ∧ shareDriven s.chip = true ∧ s.chip.pair.drive = none) ∧
    (∃ (s : State) (t : Time) (code : Nat), s.chip.spi = [] ∧ (
      let c := tick t s.chip
      let vB : Rat := (code : Rat) * 2500 / 1024
      let within : Prop := 100 ≤ vB ∧ vB ≤ 2300
      let act : Prop := s.chip.pack.st = .diode ∧ partnerDiode c = true ∧ (s.chip.share.fault = false ∨ within) ∧
        s.chip.pair.drive = none
      shareDriven s.chip = true ∧ (s.chip.pack.st = PackSt.charge ∨ act ∧ c.now < s.chip.share.at_ + ms 1 ∨ ¬act ∧ c.now <
      s.chip.share.at_ + ms 10))) ∧
    (∃ (s : State) (code : Nat) (ns : Time), s.chip.spi = [] ∧ (
      let vB : Rat := (code : Rat) * 2500 / 1024
      let within : Prop := 100 ≤ vB ∧ vB ≤ 2300
      shareDriven s.chip = true ∧ ms 10 ≤ ns ∧ ¬within)) ∧
    (∃ (s : State) (t : Time) (code : Nat), s.chip.spi = [] ∧ (
      let c := tick t s.chip
      let vB : Rat := (code : Rat) * 2500 / 1024
      let within : Prop := 100 ≤ vB ∧ vB ≤ 2300
      let act : Prop := s.chip.pack.st = .diode ∧ partnerDiode c = true ∧ (s.chip.share.fault = false ∨ within) ∧
        s.chip.pair.drive = none
      shareDriven s.chip = true ∧ ¬act ∧ s.chip.pack.st ≠ PackSt.charge ∧ s.chip.share.at_ + ms 10 ≤ c.now)) ∧
    (∃ (s : State) (t : Time) (code : Nat), s.chip.spi = [] ∧ (
      let c := tick t s.chip
      let vB : Rat := (code : Rat) * 2500 / 1024
      let within : Prop := 100 ≤ vB ∧ vB ≤ 2300
      let act : Prop := s.chip.pack.st = .diode ∧ partnerDiode c = true ∧ (s.chip.share.fault = false ∨ within) ∧
        s.chip.pair.drive = none
      shareDriven s.chip = true ∧ act ∧ s.chip.share.at_ + ms 1 ≤ c.now)) :=
  ⟨⟨md .coupled, by decide +kernel⟩,
   ⟨md .coupled, 40, 40, by decide +kernel⟩,
   ⟨shp .coupled .standby id, by decide +kernel⟩,
   ⟨shp .coupled .charge id, 40, 40, by decide +kernel⟩,
   ⟨shp .coupled .standby id, 40, ms 10, by decide +kernel⟩,
   ⟨shp .coupled .standby id, ms 10 + 2, 40, by decide +kernel⟩,
   ⟨{ (shp .parked .diode id) with chip.pair := { (shp .parked .diode id).chip.pair with hbAt := some (ms 10), them := { (shp .parked .diode id).chip.pair.them with flags := 8 }, st := .joined } }, ms 10, 40, by decide +kernel⟩⟩

/-- Pack current words of `v`. -/
def wds (v : Rat) (c : Chip) : Chip := { vb 26000 26000 c with meas.iP := { c.meas.iP with running := true, precHist := [⟨v, .valid, ms 3 + 2⟩] } }

/-- What the clauses of `PackFaultsAndRetries` suppose can be met. -/
theorem witness_PackMirageAndReversalHoldThePath :
    (∃ (s : State) (t : Time), s.chip.spi = [] ∧ (
      let c := tick t s.chip
      let p := s.chip.pack
      let mirage : Prop := charging s.chip = false ∧ ∃ i, msMean c .iP = some i ∧ ((packSunkSt p.st = true ∧ p.offAt + ms 3 ≤
        c.now ∧ 30 < absRat i) ∨ (p.st = .standby ∧ p.standbyAt + ms 1 ≤ c.now ∧ packMv c + 100 ≤ busMv c ∧ i < -30))
      ¬mirage)) ∧
    (∃ (s : State) (t : Time), s.chip.spi = [] ∧ (
      let c := tick t s.chip
      let p := s.chip.pack
      let held (d : Time) (o : Option Time) : Prop := ∃ t0, o = some t0 ∧ t0 + d ≤ c.now
      ¬held (sec 1) p.hold.mirageHigh)) ∧
    (∃ (s : State) (t : Time), s.chip.spi = [] ∧ (
      let c := tick t s.chip
      let p := s.chip.pack
      let held (d : Time) (o : Option Time) : Prop := ∃ t0, o = some t0 ∧ t0 + d ≤ c.now
      let reverses : Prop := running s.chip = true ∧ p.st ≠ .off ∧ p.st ≠ .reversed ∧ held (ms 10) p.hold.reversed
      ¬reverses)) ∧
    (∃ (s : State) (t : Time), s.chip.spi = [] ∧ (
      let c := tick t s.chip
      let p := s.chip.pack
      let held (d : Time) (o : Option Time) : Prop := ∃ t0, o = some t0 ∧ t0 + d ≤ c.now
      let waits : Prop := p.st = .reversed ∧ held (ms 100) p.hold.forward ∧ s.chip.prs.present = true
      ¬waits)) ∧
    (∃ (s : State) (t : Time), s.chip.spi = [] ∧ (
      let c := tick t s.chip
      let p := s.chip.pack
      let stays : Prop := p.st = .off ∨ (p.st = .faultHold ∧ p.mirage = true)
      let mirage : Prop := charging s.chip = false ∧ ∃ i, msMean c .iP = some i ∧ ((packSunkSt p.st = true ∧ p.offAt + ms 3 ≤
        c.now ∧ 30 < absRat i) ∨ (p.st = .standby ∧ p.standbyAt + ms 1 ≤ c.now ∧ packMv c + 100 ≤ busMv c ∧ i < -30))
      mirage ∧ ¬stays)) ∧
    (∃ (s : State) (t : Time), s.chip.spi = [] ∧ (
      let c := tick t s.chip
      let p := s.chip.pack
      let held (d : Time) (o : Option Time) : Prop := ∃ t0, o = some t0 ∧ t0 + d ≤ c.now
      let reverses : Prop := running s.chip = true ∧ p.st ≠ .off ∧ p.st ≠ .reversed ∧ held (ms 10) p.hold.reversed
      reverses)) ∧
    (∃ (s : State) (t : Time) (f : FeedId), s.chip.spi = [] ∧ (
      let c := tick t s.chip
      let p := s.chip.pack
      let held (d : Time) (o : Option Time) : Prop := ∃ t0, o = some t0 ∧ t0 + d ≤ c.now
      held (sec 1) p.hold.mirageHigh ∧ feedAccepted (feed s.chip f) = true)) ∧
    (∃ (s : State) (t : Time) (f : FeedId), s.chip.spi = [] ∧ (
      let c := tick t s.chip
      let p := s.chip.pack
      let held (d : Time) (o : Option Time) : Prop := ∃ t0, o = some t0 ∧ t0 + d ≤ c.now
      held (sec 1) p.hold.mirageHigh ∧ feedAccepted (feed s.chip f) = false)) ∧
    (∃ (s : State) (t : Time), s.chip.spi = [] ∧ (
      let c := tick t s.chip
      let p := s.chip.pack
      let held (d : Time) (o : Option Time) : Prop := ∃ t0, o = some t0 ∧ t0 + d ≤ c.now
      let waits : Prop := p.st = .reversed ∧ held (ms 100) p.hold.forward ∧ s.chip.prs.present = true
      waits)) ∧
    (∃ (s : State) (t : Time), s.chip.spi = [] ∧ (
      let c := tick t s.chip
      let p := s.chip.pack
      let stays : Prop := p.st = .off ∨ (p.st = .faultHold ∧ p.mirage = true)
      let mirage : Prop := charging s.chip = false ∧ ∃ i, msMean c .iP = some i ∧ ((packSunkSt p.st = true ∧ p.offAt + ms 3 ≤
        c.now ∧ 30 < absRat i) ∨ (p.st = .standby ∧ p.standbyAt + ms 1 ≤ c.now ∧ packMv c + 100 ≤ busMv c ∧ i < -30))
      mirage ∧ stays)) :=
  ⟨⟨md .coupled, 2, by decide +kernel⟩,
   ⟨md .coupled, 2, by decide +kernel⟩,
   ⟨md .coupled, 2, by decide +kernel⟩,
   ⟨md .coupled, 2, by decide +kernel⟩,
   ⟨pk .coupled (fun x => { x with st := .noPack, offAt := 2, waitAt := 2, goodAt := 2 }) (wds 500), ms 3 + 2, by decide +kernel⟩,
   ⟨pk .parked (fun x => { x with st := .noPack, hold := held2 }) (wds (-500)), ms 10 + 2, by decide +kernel⟩,
   ⟨pk .parked (fun x => { x with st := .noPack, hold := held2 }) (wds (-500)), sec 1 + 2, .a, by decide +kernel⟩,
   ⟨pk .parked (fun x => { x with st := .noPack, hold := held2 }) (wds (-500)), sec 1 + 2, .b, by decide +kernel⟩,
   ⟨pk .parked (fun x => { x with st := .reversed, hold := held2 }) (wds (-500)), ms 100 + 2, by decide +kernel⟩,
   ⟨pk .parked (fun x => { x with st := .faultHold, mirage := true }) (wds (-500)), ms 3 + 2, by decide +kernel⟩⟩

/-- What the clauses of `PackFaultsAndRetries` suppose can be met. -/
theorem witness_PackRetriesEndAndReset :
    (∃ (s : State) (t : Time), s.chip.spi = [] ∧ (s.chip.pack.st ≠ PackSt.retryWait ∨ max s.chip.now t < s.chip.pack.waitAt +
      sec 10)) ∧
    (∃ (s : State) (t : Time), s.chip.spi = [] ∧ (packConnected s.chip.pack.st = false ∨ max s.chip.now t < s.chip.pack.goodAt
      + sec 60)) ∧
    (∃ (s : State) (t : Time), s.chip.spi = [] ∧ packConnected s.chip.pack.st = true ∧ s.chip.pack.goodAt + sec 60 ≤ t) ∧
    (∃ (s : State) (t : Time), s.chip.spi = [] ∧ s.chip.pack.st = PackSt.retryWait ∧ s.chip.pack.waitAt + sec 10 ≤ t) :=
  ⟨⟨md .coupled, 2, by decide +kernel⟩,
   ⟨md .coupled, 2, by decide +kernel⟩,
   ⟨pk .coupled (fun x => { x with st := .standby, offAt := 2, waitAt := 2, goodAt := 2 }) (wds 500), sec 60 + 2, by decide +kernel⟩,
   ⟨pk .coupled (fun x => { x with st := .retryWait, offAt := 2, waitAt := 2, goodAt := 2 }) (wds 500), sec 10 + 2, by decide +kernel⟩⟩

end Sys2Proof.Tests.Packs

namespace Sys2Proof.Tests.Spurs

open Sys2Proof.Machine

/-- The contract of guest 7 on spur 0. -/
def g7 : GuestCfg := { index := 7, spur := 0, side := false, beacon := true, cls := 0, period := 10, slotLen := 100, deadline := 40000, phase := 0, energy := 300, oasis := 1000, vmin := 8000, iMax := 100 }

/-- A gauge with guest 7 in its room. -/
def gst (c : Chip) : Chip := { c with inn := { c.inn with guests := [{ cfg := g7, pos := 0, reject := none, own := true }], rooms := [{ pos := 0, rcd := freshRec g7, dirty := false, due := false }] } }

/-- Mode `m` with every spur changed by `f`. -/
def sp (m : Mode) (f : Spur → Spur) (g : Chip → Chip := id) : State := md m fun c => g (setSpur (setSpur { c with seq.spursOn := true, meas.vBus := { c.meas.vBus with running := true, precHeld := 20000 } } 0 (f (spur c 0))) 3 (f (spur c 3)))

/-- A ramp that began at 2 ns. -/
def rp : Ramp := { start := 2, from_ := 2, resumed := false, limited := false }

/-- What the clauses of `SpurRampsEndOnOrOff` suppose can be met. -/
theorem witness_SpurRampsEndOnOrOff :
    (∃ (s : State) (n : Fin 8) (vs : List (Fin 8 × Int)), s.chip.spi = [] ∧ (
      let x := spur s.chip n
      (x.ramp.any fun _ => decide (x.st = SpurSt.rampUp ∧ tieConfirmed s.chip n vs = [])) = true)) ∧
    (∃ (s : State) (n : Fin 8) (vs : List (Fin 8 × Int)) (m : Fin 8), s.chip.spi = [] ∧ (
      let x := spur s.chip n
      (x.ramp.any fun _ => decide (x.st = SpurSt.rampUp ∧ tieConfirmed s.chip n vs ≠ [] ∧ (m = n ∨ m ∈ tieConfirmed s.chip n
      vs))) = true)) ∧
    (∃ (s : State) (n : Fin 8) (vs : List (Fin 8 × Int)) (m : Fin 8), s.chip.spi = [] ∧ (
      let x := spur s.chip n
      ((x.ramp.any fun _ => decide (x.st = SpurSt.rampUp ∧ tieConfirmed s.chip n vs ≠ [] ∧ (∀ (k : Fin 8), k = n ∨ k ∈
      tieConfirmed s.chip n vs → m ≠ k ∧ ((spur s.chip k).merged = true → (spur s.chip k).tied.getLsbD (↑m : Nat) = false)))))
      = true)) ∧
    (∃ (s : State) (n : Fin 8) (mv : Int), s.chip.spi = [] ∧ (
      let x := spur s.chip n
      (x.st ≠ SpurSt.rampDown ∨ 500 ≤ mv))) ∧
    (∃ (s : State) (n : Fin 8), s.chip.spi = [] ∧ (
      let x := spur s.chip n
      conducting x.st = true)) ∧
    (∃ (s : State) (n : Fin 8), s.chip.spi = [] ∧ (
      let x := spur s.chip n
      (x.st ≠ SpurSt.rampUp ∨ x.ramp = none))) ∧
    (∃ (s : State) (n : Fin 8), s.chip.spi = [] ∧ (
      let x := spur s.chip n
      conducting x.st = false)) ∧
    (∃ (s : State) (n : Fin 8) (mv : Int) (m : Fin 8), s.chip.spi = [] ∧ (
      let x := spur s.chip n
      x.st = SpurSt.rampDown ∧ mv < 500 ∧ m ≠ n)) ∧
    (∃ (s : State) (n : Fin 8) (mv : Int), s.chip.spi = [] ∧ (
      let x := spur s.chip n
      x.st = SpurSt.rampDown ∧ mv < 500 ∧ (
      let again : Bool := spurCommand s.chip n && !x.hot && (x.probing.isNone || x.probeHeld)
      again = false))) :=
  ⟨⟨let c := sp .coupled (fun x => { x with st := .off, vHist := [(5, 1)] }); { c with chip := (updSpur 0 (fun x => { x with st := .rampUp, ramp := some rp, tieCand := 0xFF })) { c.chip with img.cfg.board.spurs := 0xFF } }, 0, [], by decide +kernel⟩,
   ⟨let c := sp .coupled (fun x => { x with st := .off, vHist := [(5, 1)] }); { c with chip := (updSpur 0 (fun x => { x with st := .rampUp, ramp := some rp, tieCand := 0xFF })) { c.chip with img.cfg.board.spurs := 0xFF } }, 0, [(3, 19999), (0, 19999), (1, 19999)], 0, by decide +kernel⟩,
   ⟨let c := sp .coupled (fun x => { x with st := .off, vHist := [(5, 1)] }); { c with chip := (updSpur 0 (fun x => { x with st := .rampUp, ramp := some rp, tieCand := 0xFF })) { c.chip with img.cfg.board.spurs := 0xFF } }, 0, [(3, 19999), (0, 19999), (1, 19999)], 5, by decide +kernel⟩,
   ⟨let c := sp .coupled (fun x => { x with st := .off, vHist := [(5, 1)] }); { c with chip := (updSpur 0 (fun x => { x with st := .rampUp, ramp := some rp, tieCand := 0xFF })) { c.chip with img.cfg.board.spurs := 0xFF } }, 0, 499, by decide +kernel⟩,
   ⟨let c := sp .coupled (fun x => { x with st := .off, vHist := [(5, 1)] }); { c with chip := (updSpur 0 (fun x => { x with st := .rampUp, ramp := some rp, tieCand := 0xFF })) { c.chip with img.cfg.board.spurs := 0xFF } }, 0, by decide +kernel⟩,
   ⟨let c := sp .coupled (fun x => { x with st := .off, vHist := [(5, 1)] }); { c with chip := (updSpur 0 (fun x => { x with st := .rampUp, ramp := some rp, tieCand := 0xFF })) { c.chip with img.cfg.board.spurs := 0xFF } }, 3, by decide +kernel⟩,
   ⟨let c := sp .coupled (fun x => { x with st := .off, vHist := [(5, 1)] }); { c with chip := (updSpur 0 (fun x => { x with st := .rampUp, ramp := some rp, tieCand := 0xFF })) { c.chip with img.cfg.board.spurs := 0xFF } }, 3, by decide +kernel⟩,
   ⟨sp .coupled (fun x => id { x with st := .rampDown }), 0, 499, 3, by decide +kernel⟩,
   ⟨sp .coupled (fun x => id { x with st := .rampDown, cmd := true }) gst, 0, 499, by decide +kernel⟩⟩

/-- What the clauses of `SpurFailuresRetryThenCutOrFault` suppose can be met. -/
theorem witness_SpurFailuresRetryThenCutOrFault :
    (∃ (s : State) (n : Fin 8) (ns : Time), s.chip.spi = [] ∧ (
      let x := spur s.chip n
      (x.limiting = false ∨ ns ≤ ms 1 ∨ x.st ≠ SpurSt.rampUp ∧ x.st ≠ SpurSt.on))) ∧
    (∃ (s : State) (n : Fin 8), s.chip.spi = [] ∧ (
      let x := spur s.chip n
      x.ramp = none)) ∧
    (∃ (s : State) (t : Time) (n : Fin 8) (tj : Int), s.chip.spi = [] ∧ (
      let x := spur s.chip n
      let now := max s.chip.now t
      (tj < 175 ∨ conducting x.st = false ∧ (x.limFailAt ≠ some now ∨ x.hot = true)))) ∧
    (∃ (s : State) (n : Fin 8) (ns : Time), s.chip.spi = [] ∧ (
      let x := spur s.chip n
      let again : Prop := x.probing = none ∧ x.retries < (spurCfg s.chip n).retries
      x.limiting = true ∧ ms 1 < ns ∧ (x.st = SpurSt.rampUp ∨ x.st = SpurSt.on) ∧ again)) ∧
    (∃ (s : State) (n : Fin 8) (ns : Time) (m : Fin 8), s.chip.spi = [] ∧ (
      let x := spur s.chip n
      x.limiting = true ∧ ms 1 < ns ∧ (x.st = SpurSt.rampUp ∨ x.st = SpurSt.on) ∧ m ≠ n)) ∧
    (∃ (s : State) (n : Fin 8) (tj : Int), s.chip.spi = [] ∧ (
      let x := spur s.chip n
      let again : Prop := x.probing = none ∧ x.retries < (spurCfg s.chip n).retries
      conducting x.st = true ∧ 175 ≤ tj ∧ again)) ∧
    (∃ (s : State) (n : Fin 8) (tj : Int) (m : Fin 8), s.chip.spi = [] ∧ (
      let x := spur s.chip n
      conducting x.st = true ∧ 175 ≤ tj ∧ m ≠ n)) ∧
    (∃ (s : State) (t : Time) (n : Fin 8) (tj : Int), s.chip.spi = [] ∧ (
      let x := spur s.chip n
      let now := max s.chip.now t
      conducting x.st = true ∧ 175 ≤ tj ∧ x.limiting = true ∧ x.st ≠ SpurSt.rampDown ∧ x.limAt + ms 1 < now)) ∧
    (∃ (s : State) (t : Time) (n : Fin 8) (mv : Int), s.chip.spi = [] ∧ (
      let x := spur s.chip n
      let now := max s.chip.now t
      (x.ramp.any fun r => (
      let late : Prop := x.st = .rampUp ∧ r.from_ + us x.tR + ms 2 ≤ now ∧ (mv : Rat) * 10 < 9 * s.chip.meas.vBus.precHeld
      decide (¬late))) = true)) ∧
    (∃ (s : State) (n : Fin 8) (ns : Time), s.chip.spi = [] ∧ (
      let x := spur s.chip n
      let again : Prop := x.probing = none ∧ x.retries < (spurCfg s.chip n).retries
      x.limiting = true ∧ ms 1 < ns ∧ (x.st = SpurSt.rampUp ∨ x.st = SpurSt.on) ∧ ¬again)) ∧
    (∃ (s : State) (n : Fin 8) (ns : Time), s.chip.spi = [] ∧ (
      let x := spur s.chip n
      let next : SpurSt := if x.probing.isSome then .faulted else if x.retries < (spurCfg s.chip n).retries then .retryWait
        else if hasGuests s.chip n then .cut else .faulted
      x.limiting = true ∧ ms 1 < ns ∧ (x.st = SpurSt.rampUp ∨ x.st = SpurSt.on) ∧ x.probing = none ∧ next = SpurSt.faulted)) ∧
    (∃ (s : State) (n : Fin 8) (tj : Int), s.chip.spi = [] ∧ (
      let x := spur s.chip n
      let again : Prop := x.probing = none ∧ x.retries < (spurCfg s.chip n).retries
      conducting x.st = true ∧ 175 ≤ tj ∧ ¬again)) ∧
    (∃ (s : State) (n : Fin 8) (tj : Int), s.chip.spi = [] ∧ (
      let x := spur s.chip n
      let next : SpurSt := if x.probing.isSome then .faulted else if x.retries < (spurCfg s.chip n).retries then .retryWait
        else if hasGuests s.chip n then .cut else .faulted
      conducting x.st = true ∧ 175 ≤ tj ∧ x.probing = none ∧ next = SpurSt.faulted)) ∧
    (∃ (s : State) (t : Time) (n : Fin 8) (mv : Int), s.chip.spi = [] ∧ (
      let x := spur s.chip n
      let now := max s.chip.now t
      let again : Prop := x.probing = none ∧ x.retries < (spurCfg s.chip n).retries
      (x.ramp.any fun r => (
      let late : Prop := x.st = .rampUp ∧ r.from_ + us x.tR + ms 2 ≤ now ∧ (mv : Rat) * 10 < 9 * s.chip.meas.vBus.precHeld
      decide (late ∧ ¬again))) = true)) ∧
    (∃ (s : State) (t : Time) (n : Fin 8) (mv : Int), s.chip.spi = [] ∧ (
      let x := spur s.chip n
      let now := max s.chip.now t
      let next : SpurSt := if x.probing.isSome then .faulted else if x.retries < (spurCfg s.chip n).retries then .retryWait
        else if hasGuests s.chip n then .cut else .faulted
      (x.ramp.any fun r => (
      let late : Prop := x.st = .rampUp ∧ r.from_ + us x.tR + ms 2 ≤ now ∧ (mv : Rat) * 10 < 9 * s.chip.meas.vBus.precHeld
      decide (late ∧ x.probing = none ∧ next = SpurSt.faulted))) = true)) ∧
    (∃ (s : State) (t : Time) (n : Fin 8) (mv : Int) (m : Fin 8), s.chip.spi = [] ∧ (
      let x := spur s.chip n
      let now := max s.chip.now t
      (x.ramp.any fun r => (
      let late : Prop := x.st = .rampUp ∧ r.from_ + us x.tR + ms 2 ≤ now ∧ (mv : Rat) * 10 < 9 * s.chip.meas.vBus.precHeld
      decide (late ∧ m ≠ n))) = true)) ∧
    (∃ (s : State) (t : Time) (n : Fin 8) (mv : Int), s.chip.spi = [] ∧ (
      let x := spur s.chip n
      let now := max s.chip.now t
      let again : Prop := x.probing = none ∧ x.retries < (spurCfg s.chip n).retries
      (x.ramp.any fun r => (
      let late : Prop := x.st = .rampUp ∧ r.from_ + us x.tR + ms 2 ≤ now ∧ (mv : Rat) * 10 < 9 * s.chip.meas.vBus.precHeld
      decide (late ∧ again))) = true)) ∧
    (∃ (s : State) (t : Time) (n : Fin 8) (tj : Int) (m : Fin 8), s.chip.spi = [] ∧ (
      let x := spur s.chip n
      let now := max s.chip.now t
      conducting x.st = false ∧ 175 ≤ tj ∧ x.limFailAt = some now ∧ x.hot = false ∧ m ≠ n)) :=
  ⟨⟨sp .coupled (fun x => (fun x => { x with limiting := true }) { x with st := .absent }), 0, 2, by decide +kernel⟩,
   ⟨sp .coupled (fun x => (fun x => { x with limiting := true }) { x with st := .absent }), 0, by decide +kernel⟩,
   ⟨sp .coupled (fun x => (fun x => { x with limiting := true }) { x with st := .absent }), 2, 0, 17999, by decide +kernel⟩,
   ⟨sp .coupled (fun x => (fun x => { x with limiting := true }) { x with st := .rampUp }), 0, ms 1 + 1, by decide +kernel⟩,
   ⟨sp .coupled (fun x => (fun x => { x with limiting := true }) { x with st := .rampUp }), 0, ms 1 + 1, 3, by decide +kernel⟩,
   ⟨sp .coupled (fun x => (fun x => { x with limiting := true }) { x with st := .rampUp }), 0, 175, by decide +kernel⟩,
   ⟨sp .coupled (fun x => (fun x => { x with limiting := true }) { x with st := .rampUp }), 0, 175, 3, by decide +kernel⟩,
   ⟨sp .coupled (fun x => (fun x => { x with limiting := true }) { x with st := .rampUp }), ms 1 + 1, 0, 175, by decide +kernel⟩,
   ⟨sp .coupled (fun x => (fun x => { x with limiting := true, retries := 9, limAt := 1, ramp := some rp }) { x with st := .absent }), 2, 0, 17999, by decide +kernel⟩,
   ⟨sp .coupled (fun x => (fun x => { x with limiting := true, retries := 9, limAt := 1, ramp := some rp }) { x with st := .rampUp }), 0, ms 1 + 1, by decide +kernel⟩,
   ⟨sp .coupled (fun x => (fun x => { x with limiting := true, retries := 9, limAt := 1, ramp := some rp }) { x with st := .rampUp }), 0, ms 1 + 1, by decide +kernel⟩,
   ⟨sp .coupled (fun x => (fun x => { x with limiting := true, retries := 9, limAt := 1, ramp := some rp }) { x with st := .rampUp }), 0, 175, by decide +kernel⟩,
   ⟨sp .coupled (fun x => (fun x => { x with limiting := true, retries := 9, limAt := 1, ramp := some rp }) { x with st := .rampUp }), 0, 175, by decide +kernel⟩,
   ⟨sp .coupled (fun x => (fun x => { x with limiting := true, retries := 9, limAt := 1, ramp := some rp }) { x with st := .rampUp }), us 1000 + ms 2 + 2, 0, 17999, by decide +kernel⟩,
   ⟨sp .coupled (fun x => (fun x => { x with limiting := true, retries := 9, limAt := 1, ramp := some rp }) { x with st := .rampUp }), us 1000 + ms 2 + 2, 0, 17999, by decide +kernel⟩,
   ⟨sp .coupled (fun x => (fun x => { x with limiting := true, retries := 9, limAt := 1, ramp := some rp }) { x with st := .rampUp }), us 1000 + ms 2 + 2, 0, 17999, 3, by decide +kernel⟩,
   ⟨sp .coupled (fun x => (fun x => { x with limiting := true, ramp := some rp }) { x with st := .rampUp }), us 1000 + ms 2 + 2, 0, 17999, by decide +kernel⟩,
   ⟨sp .coupled (fun x => (fun x => { x with limFailAt := some (ms 1) }) { x with st := .absent }), ms 1, 0, 175, 3, by decide +kernel⟩⟩

/-- What the clauses of `SpurRetriesAndFaultedProbes` suppose can be met. -/
theorem witness_SpurRetriesRestartOrClear :
    (∃ (s : State) (t : Time) (n : Fin 8), s.chip.spi = [] ∧ (
      let x := spur s.chip n
      let now := max s.chip.now t
      let due : Prop := x.st = .retryWait ∧ x.waitAt + ms 100 ≤ now
      (¬due ∨ x.cmd = true ∧ x.hot = true))) ∧
    (∃ (s : State) (n : Fin 8) (tj : Int), s.chip.spi = [] ∧ (
      let x := spur s.chip n
      (x.hot = false ∨ 155 ≤ tj))) ∧
    (∃ (s : State) (t : Time) (n : Fin 8), s.chip.spi = [] ∧ (
      let x := spur s.chip n
      let now := max s.chip.now t
      let cleared : Prop := x.st = .on ∧ x.onAt + sec 60 ≤ now ∧ (inLimp s.chip = true ∨ hasGuests s.chip n = false)
      ¬cleared)) ∧
    (∃ (s : State) (t : Time) (n : Fin 8), s.chip.spi = [] ∧ (
      let x := spur s.chip n
      let now := max s.chip.now t
      let cleared : Prop := x.st = .on ∧ x.onAt + sec 60 ≤ now ∧ (inLimp s.chip = true ∨ hasGuests s.chip n = false)
      cleared)) ∧
    (∃ (s : State) (t : Time) (n : Fin 8), s.chip.spi = [] ∧ (
      let x := spur s.chip n
      let now := max s.chip.now t
      let due : Prop := x.st = .retryWait ∧ x.waitAt + ms 100 ≤ now
      due ∧ x.cmd = false)) ∧
    (∃ (s : State) (t : Time) (n : Fin 8), s.chip.spi = [] ∧ (
      let x := spur s.chip n
      let now := max s.chip.now t
      let due : Prop := x.st = .retryWait ∧ x.waitAt + ms 100 ≤ now
      due ∧ x.cmd = true ∧ x.hot = false)) ∧
    (∃ (s : State) (n : Fin 8) (tj : Int) (m : Fin 8), s.chip.spi = [] ∧ (
      let x := spur s.chip n
      x.hot = true ∧ tj < 155 ∧ m ≠ n)) ∧
    (∃ (s : State) (t : Time) (n : Fin 8) (tj : Int), s.chip.spi = [] ∧ (
      let x := spur s.chip n
      let now := max s.chip.now t
      let due : Prop := x.st = .retryWait ∧ x.waitAt + ms 100 ≤ now
      x.hot = true ∧ tj < 155 ∧ (
      let waits : Prop := x.st = .off ∨ due ∨ (x.st = .faulted ∧ x.probeHeld = true) ∨ x.st = .rampDown
      x.cmd = true ∧ spurCommand s.chip n = true ∧ ¬waits))) ∧
    (∃ (s : State) (t : Time) (n : Fin 8) (tj : Int), s.chip.spi = [] ∧ (
      let x := spur s.chip n
      let now := max s.chip.now t
      let due : Prop := x.st = .retryWait ∧ x.waitAt + ms 100 ≤ now
      x.hot = true ∧ tj < 155 ∧ (
      let waits : Prop := x.st = .off ∨ due ∨ (x.st = .faulted ∧ x.probeHeld = true) ∨ x.st = .rampDown
      x.cmd = true ∧ spurCommand s.chip n = true ∧ waits))) :=
  ⟨⟨sp .coupled (fun x => (fun x => { x with waitAt := 2, onAt := 2, retries := 2 }) { x with st := .absent }), 2, 0, by decide +kernel⟩,
   ⟨sp .coupled (fun x => (fun x => { x with waitAt := 2, onAt := 2, retries := 2 }) { x with st := .absent }), 0, 154, by decide +kernel⟩,
   ⟨sp .coupled (fun x => (fun x => { x with waitAt := 2, onAt := 2, retries := 2 }) { x with st := .absent }), 2, 0, by decide +kernel⟩,
   ⟨sp .coupled (fun x => (fun x => { x with waitAt := 2, onAt := 2, retries := 2 }) { x with st := .on }), sec 60 + 2, 0, by decide +kernel⟩,
   ⟨sp .coupled (fun x => (fun x => { x with waitAt := 2, onAt := 2, retries := 2 }) { x with st := .retryWait }), ms 100 + 2, 0, by decide +kernel⟩,
   ⟨sp .coupled (fun x => (fun x => { x with waitAt := 2, onAt := 2, retries := 2 }) { x with st := .retryWait, cmd := true }) gst, ms 100 + 2, 0, by decide +kernel⟩,
   ⟨sp .coupled (fun x => (fun x => { x with waitAt := 2, onAt := 2, hot := true, granted := true }) { x with st := .absent }), 0, 154, 3, by decide +kernel⟩,
   ⟨sp .coupled (fun x => (fun x => { x with waitAt := 2, onAt := 2, hot := true, granted := true }) { x with st := .absent, cmd := true }) gst, 2, 0, 154, by decide +kernel⟩,
   ⟨sp .coupled (fun x => (fun x => { x with waitAt := 2, onAt := 2, hot := true, granted := true }) { x with st := .off, cmd := true }) gst, 2, 0, 154, by decide +kernel⟩⟩

/-- What the clauses of `BackfeedOpenLoadAndTotals` suppose can be met. -/
theorem witness_BackfeedBlocksTheSpur :
    (∃ (s : State) (n : Fin 8) (mv : Int), s.chip.spi = [] ∧ (
      let x := spur s.chip n
      (x.st ≠ SpurSt.rampUp ∧ x.st ≠ SpurSt.on ∨ mv < 300))) ∧
    (∃ (s : State) (t : Time) (n : Fin 8), s.chip.spi = [] ∧ (
      let x := spur s.chip n
      let now := max s.chip.now t
      let recent := x.vHist.filter fun p => decide (now ≤ p.2 + sec 1)
      let released : Prop := x.st = .blocked ∧ x.blockedAt + sec 1 ≤ now ∧ recent ≠ [] ∧ ∀ p ∈ recent, p.1 < 2000
      ¬released)) ∧
    (∃ (s : State) (n : Fin 8) (mv : Int) (m : Fin 8), s.chip.spi = [] ∧ (
      let x := spur s.chip n
      (x.st = SpurSt.rampUp ∨ x.st = SpurSt.on) ∧ 300 ≤ mv ∧ m ≠ n)) ∧
    (∃ (s : State) (t : Time) (n m : Fin 8), s.chip.spi = [] ∧ (
      let x := spur s.chip n
      let now := max s.chip.now t
      let recent := x.vHist.filter fun p => decide (now ≤ p.2 + sec 1)
      let released : Prop := x.st = .blocked ∧ x.blockedAt + sec 1 ≤ now ∧ recent ≠ [] ∧ ∀ p ∈ recent, p.1 < 2000
      released ∧ m ≠ n)) :=
  ⟨⟨sp .coupled (fun x => id { x with st := .absent }), 0, 299, by decide +kernel⟩,
   ⟨sp .coupled (fun x => id { x with st := .absent }), 2, 0, by decide +kernel⟩,
   ⟨sp .coupled (fun x => id { x with st := .rampUp }), 0, 300, 3, by decide +kernel⟩,
   ⟨sp .coupled (fun x => (fun x => { x with blockedAt := 2, vHist := [(1999, sec 1)] }) { x with st := .blocked }), sec 1 + 2, 0, 3, by decide +kernel⟩⟩

/-- What the clauses of `SpurRetriesAndFaultedProbes` suppose can be met. -/
theorem witness_FaultedSpursAreProbed :
    (∃ (s : State) (t : Time) (n : Fin 8), s.chip.spi = [] ∧ (
      let x := spur s.chip n
      let now := max s.chip.now t
      let due : Prop := x.st = .faulted ∧ x.probeHeld = false ∧ x.probeAt + minutes 10 ≤ now
      ¬due)) ∧
    (∃ (s : State) (t : Time) (n : Fin 8), s.chip.spi = [] ∧ (
      let x := spur s.chip n
      let now := max s.chip.now t
      let succeeded : Prop := ∃ p, x.probing = some p ∧ x.st = .on ∧ p + sec 1 ≤ now
      ¬succeeded)) ∧
    (∃ (s : State) (t : Time) (n m : Fin 8), s.chip.spi = [] ∧ (
      let x := spur s.chip n
      let now := max s.chip.now t
      let due : Prop := x.st = .faulted ∧ x.probeHeld = false ∧ x.probeAt + minutes 10 ≤ now
      due ∧ m ≠ n)) ∧
    (∃ (s : State) (t : Time) (n : Fin 8), s.chip.spi = [] ∧ (
      let x := spur s.chip n
      let now := max s.chip.now t
      let succeeded : Prop := ∃ p, x.probing = some p ∧ x.st = .on ∧ p + sec 1 ≤ now
      succeeded)) :=
  ⟨⟨sp .coupled (fun x => (fun x => { x with probeAt := 2 }) { x with st := .absent }), 2, 0, by decide +kernel⟩,
   ⟨sp .coupled (fun x => (fun x => { x with probeAt := 2 }) { x with st := .absent }), 2, 0, by decide +kernel⟩,
   ⟨sp .coupled (fun x => (fun x => { x with probeAt := 2 }) { x with st := .faulted }), minutes 10 + 2, 0, 3, by decide +kernel⟩,
   ⟨sp .coupled (fun x => (fun x => { x with probeAt := 2, probing := some 2, retries := 1 }) { x with st := .on }), sec 1 + 2, 0, by decide +kernel⟩⟩

/-- What the clauses of `BackfeedOpenLoadAndTotals` suppose can be met. -/
theorem witness_OpenLoadNeedsTwoFindings :
    (∃ (s : State) (n : Fin 8), s.chip.spi = [] ∧ (
      let x := spur s.chip n
      let testable : Prop := x.testDue = true ∧ x.st = .off ∧ x.cmd = false ∧ ∃ p, x.vHist.head? = some p ∧ p.1 < 200
      ¬testable)) ∧
    (∃ (s : State) (t : Time) (n : Fin 8), s.chip.spi = [] ∧ (
      let x := spur s.chip n
      let now := max s.chip.now t
      let due : Prop := (inLimp s.chip = true ∨ hasGuests s.chip n = false) ∧ x.diagAt + sec 1 ≤ now
      (¬due ∨ x.st ≠ SpurSt.on ∧ (x.st ≠ SpurSt.off ∨ x.cmd = true)))) ∧
    (∃ (s : State) (t : Time) (n : Fin 8) (mv : Int), s.chip.spi = [] ∧ (
      let x := spur s.chip n
      let now := max s.chip.now t
      let due : Prop := (inLimp s.chip = true ∨ hasGuests s.chip n = false) ∧ x.diagAt + sec 1 ≤ now
      due ∧ x.st = SpurSt.off ∧ x.cmd = false ∧ (decide (1000 < mv) = false ∨ x.lastOpen = false ∨ x.openLoad = true))) ∧
    (∃ (s : State) (t : Time) (n m : Fin 8), s.chip.spi = [] ∧ (
      let x := spur s.chip n
      let now := max s.chip.now t
      let due : Prop := (inLimp s.chip = true ∨ hasGuests s.chip n = false) ∧ x.diagAt + sec 1 ≤ now
      due ∧ x.st = SpurSt.off ∧ x.cmd = false ∧ m ≠ n)) ∧
    (∃ (s : State) (t : Time) (n : Fin 8), s.chip.spi = [] ∧ (
      let x := spur s.chip n
      let now := max s.chip.now t
      let due : Prop := (inLimp s.chip = true ∨ hasGuests s.chip n = false) ∧ x.diagAt + sec 1 ≤ now
      due ∧ x.st = SpurSt.on ∧ x.onQ.snd = 0)) ∧
    (∃ (s : State) (t : Time) (n : Fin 8) (mv : Int), s.chip.spi = [] ∧ (
      let x := spur s.chip n
      let now := max s.chip.now t
      let due : Prop := (inLimp s.chip = true ∨ hasGuests s.chip n = false) ∧ x.diagAt + sec 1 ≤ now
      due ∧ x.st = SpurSt.off ∧ x.cmd = false ∧ decide (1000 < mv) = true ∧ x.lastOpen = true ∧ x.openLoad = false)) ∧
    (∃ (s : State) (t : Time) (n : Fin 8), s.chip.spi = [] ∧ (
      let x := spur s.chip n
      let now := max s.chip.now t
      let due : Prop := (inLimp s.chip = true ∨ hasGuests s.chip n = false) ∧ x.diagAt + sec 1 ≤ now
      due ∧ x.st = SpurSt.on ∧ x.onQ.snd ≠ 0 ∧ decide (x.onQ.fst / (↑x.onQ.snd : Rat) < 2) = true ∧ x.lastOpen = true ∧
      x.openLoad = false)) ∧
    (∃ (s : State) (t : Time) (n m : Fin 8), s.chip.spi = [] ∧ (
      let x := spur s.chip n
      let now := max s.chip.now t
      let due : Prop := (inLimp s.chip = true ∨ hasGuests s.chip n = false) ∧ x.diagAt + sec 1 ≤ now
      due ∧ x.st = SpurSt.on ∧ x.onQ.snd ≠ 0 ∧ m ≠ n)) ∧
    (∃ (s : State) (t : Time) (n : Fin 8), s.chip.spi = [] ∧ (
      let x := spur s.chip n
      let now := max s.chip.now t
      let due : Prop := (inLimp s.chip = true ∨ hasGuests s.chip n = false) ∧ x.diagAt + sec 1 ≤ now
      due ∧ x.st = SpurSt.on ∧ x.onQ.snd ≠ 0 ∧ (decide (x.onQ.fst / (↑x.onQ.snd : Rat) < 2) = false ∨ x.lastOpen = false ∨
      x.openLoad = true))) ∧
    (∃ (s : State) (n : Fin 8) (mv : Int), s.chip.spi = [] ∧ (
      let x := spur s.chip n
      let testable : Prop := x.testDue = true ∧ x.st = .off ∧ x.cmd = false ∧ ∃ p, x.vHist.head? = some p ∧ p.1 < 200
      testable ∧ (decide (1000 < mv) = false ∨ x.lastOpen = false ∨ x.openLoad = true))) ∧
    (∃ (s : State) (n m : Fin 8), s.chip.spi = [] ∧ (
      let x := spur s.chip n
      let testable : Prop := x.testDue = true ∧ x.st = .off ∧ x.cmd = false ∧ ∃ p, x.vHist.head? = some p ∧ p.1 < 200
      testable ∧ m ≠ n)) ∧
    (∃ (s : State) (n : Fin 8) (mv : Int), s.chip.spi = [] ∧ (
      let x := spur s.chip n
      let testable : Prop := x.testDue = true ∧ x.st = .off ∧ x.cmd = false ∧ ∃ p, x.vHist.head? = some p ∧ p.1 < 200
      testable ∧ decide (1000 < mv) = true ∧ x.lastOpen = true ∧ x.openLoad = false)) :=
  ⟨⟨sp .coupled (fun x => (fun x => { x with diagAt := 2 }) { x with st := .absent }), 0, by decide +kernel⟩,
   ⟨sp .coupled (fun x => (fun x => { x with diagAt := 2 }) { x with st := .absent }), 2, 0, by decide +kernel⟩,
   ⟨sp .coupled (fun x => (fun x => { x with diagAt := 2 }) { x with st := .off }), sec 1 + 2, 0, 1000, by decide +kernel⟩,
   ⟨sp .coupled (fun x => (fun x => { x with diagAt := 2 }) { x with st := .off }), sec 1 + 2, 0, 3, by decide +kernel⟩,
   ⟨sp .coupled (fun x => (fun x => { x with diagAt := 2 }) { x with st := .on }), sec 1 + 2, 0, by decide +kernel⟩,
   ⟨sp .coupled (fun x => (fun x => { x with diagAt := 2, onQ := (5, 3), lastOpen := true }) { x with st := .off }), sec 1 + 2, 0, 1001, by decide +kernel⟩,
   ⟨sp .coupled (fun x => (fun x => { x with diagAt := 2, onQ := (5, 3), lastOpen := true }) { x with st := .on }), sec 1 + 2, 0, by decide +kernel⟩,
   ⟨sp .coupled (fun x => (fun x => { x with diagAt := 2, onQ := (5, 3), lastOpen := true }) { x with st := .on }), sec 1 + 2, 0, 3, by decide +kernel⟩,
   ⟨sp .coupled (fun x => (fun x => { x with diagAt := 2, onQ := (5, 3) }) { x with st := .on }), sec 1 + 2, 0, by decide +kernel⟩,
   ⟨sp .coupled (fun x => (fun x => { x with testDue := true, lastOpen := true, vHist := [(199, 3)] }) { x with st := .off }), 0, 1000, by decide +kernel⟩,
   ⟨sp .coupled (fun x => (fun x => { x with testDue := true, lastOpen := true, vHist := [(199, 3)] }) { x with st := .off }), 0, 3, by decide +kernel⟩,
   ⟨sp .coupled (fun x => (fun x => { x with testDue := true, lastOpen := true, vHist := [(199, 3)] }) { x with st := .off }), 0, 1001, by decide +kernel⟩⟩

/-- The total of the spurs has stood above its rating since 2 ns. -/
def tt (c : Chip) : Chip := { c with totals.all := some 2 }

/-- What the clauses of `BackfeedOpenLoadAndTotals` suppose can be met. -/
theorem witness_TotalOverloadShedsOneSpur :
    (∃ (s : State) (t : Time), s.chip.spi = [] ∧ (
      let now := max s.chip.now t
      let old (o : Option Time) : Prop := ∃ t0, o = some t0 ∧ t0 + ms 100 ≤ now
      let exceeded : Prop := old s.chip.totals.all ∨ old s.chip.totals.low ∨ old s.chip.totals.high
      ¬exceeded)) ∧
    (∃ (s : State) (m : Fin 8), s.chip.spi = [] ∧ (
      let excess (n : Fin 8) : Rat := ((spur s.chip n).iLast).getD 0 - (if hasGuests s.chip n then (guestAllowance s.chip n :
        Rat) else spurAllowance s.chip)
      ((greatestExcess s.chip).any fun n => decide ((spur s.chip m).st = SpurSt.on ∧ excess m = excess n)) = true)) ∧
    (∃ (s : State) (t : Time), s.chip.spi = [] ∧ (
      let now := max s.chip.now t
      let old (o : Option Time) : Prop := ∃ t0, o = some t0 ∧ t0 + ms 100 ≤ now
      let exceeded : Prop := old s.chip.totals.all ∨ old s.chip.totals.low ∨ old s.chip.totals.high
      exceeded ∧ (∀ (n : Fin 8), (spur s.chip n).st ≠ SpurSt.on))) ∧
    (∃ (s : State) (t : Time) (m : Fin 8), s.chip.spi = [] ∧ (
      let now := max s.chip.now t
      let old (o : Option Time) : Prop := ∃ t0, o = some t0 ∧ t0 + ms 100 ≤ now
      let exceeded : Prop := old s.chip.totals.all ∨ old s.chip.totals.low ∨ old s.chip.totals.high
      ((greatestExcess s.chip).any fun n => decide (exceeded ∧ hasGuests s.chip n = true ∧ m ≠ n)) = true)) ∧
    (∃ (s : State) (t : Time) (m : Fin 8), s.chip.spi = [] ∧ (
      let now := max s.chip.now t
      let old (o : Option Time) : Prop := ∃ t0, o = some t0 ∧ t0 + ms 100 ≤ now
      let exceeded : Prop := old s.chip.totals.all ∨ old s.chip.totals.low ∨ old s.chip.totals.high
      ((greatestExcess s.chip).any fun n => decide (exceeded ∧ hasGuests s.chip n = false ∧ m ≠ n)) = true)) :=
  ⟨⟨sp .coupled (fun x => id { x with st := .absent }), 2, by decide +kernel⟩,
   ⟨sp .coupled (fun x => id { x with st := .on }), 0, by decide +kernel⟩,
   ⟨sp .coupled (fun x => { x with st := .absent, cmd := true, iLast := some 4000 }) (fun c => tt (gst c)), ms 100 + 2, by decide +kernel⟩,
   ⟨sp .coupled (fun x => { x with st := .on, cmd := true, iLast := some 4000 }) (fun c => tt (gst c)), ms 100 + 2, 3, by decide +kernel⟩,
   ⟨sp .coupled (fun x => { x with st := .on, iLast := some 4000 }) tt, ms 100 + 2, 0, by decide +kernel⟩⟩

end Sys2Proof.Tests.Spurs

namespace Sys2Proof.Tests.Estimating

open Sys2Proof.Machine

/-- The measurement governor changed by `f`. -/
def gv (f : Gov → Gov) (c : Chip) : Chip := { c with gauge.gov := f c.gauge.gov }

/-- What the clauses of `GovernorRunsTheModulators` suppose can be met. -/
theorem witness_GovernorRunsTheModulators :
    (∃ (s : State), s.chip.spi = [] ∧ (
      let g := s.chip.gauge.gov
      let opens : Prop := g.st ≠ .full ∧ g.win = none ∧ (g.winStart < g.secAt ∨ g.winStart = 0)
      ¬opens)) ∧
    (∃ (s : State) (t : Time), s.chip.spi = [] ∧ (
      let c := tick t s.chip
      let g := s.chip.gauge.gov
      (g.st = GovSt.full ∨ g.win = none ∨ ∃ w, g.win = some w ∧ c.now < w + if g.st = GovSt.duty05 then ms 5 else ms 20))) ∧
    (∃ (s : State) (uv : Int), s.chip.spi = [] ∧ (
      let g := s.chip.gauge.gov
      let crosses (uv : Int) : Prop := g.st ≠ .full ∧ g.burst = none ∧ wakeUv s.chip ≤ absRat (uv : Rat)
      ¬crosses uv)) ∧
    (∃ (s : State) (t : Time), s.chip.spi = [] ∧ (
      let c := tick t s.chip
      let g := s.chip.gauge.gov
      let ends : Prop := g.burst ≠ none ∧ ∃ q, g.quietAt = some q ∧ q + ms 10 ≤ c.now
      ¬ends)) ∧
    (∃ (s : State) (t : Time), s.chip.spi = [] ∧ (
      let c := tick t s.chip
      let g := s.chip.gauge.gov
      c.now < g.secAt + sec 1)) ∧
    (∃ (s : State) (t : Time), s.chip.spi = [] ∧ (
      let c := tick t s.chip
      let g := s.chip.gauge.gov
      g.secAt + sec 1 ≤ c.now ∧ s.chip.prs.present = false)) ∧
    (∃ (s : State) (t : Time), s.chip.spi = [] ∧ (
      let c := tick t s.chip
      let g := s.chip.gauge.gov
      g.secAt + sec 1 ≤ c.now ∧ g.st = GovSt.full)) ∧
    (∃ (s : State), s.chip.spi = [] ∧ (
      let g := s.chip.gauge.gov
      let opens : Prop := g.st ≠ .full ∧ g.win = none ∧ (g.winStart < g.secAt ∨ g.winStart = 0)
      opens)) ∧
    (∃ (s : State) (t : Time), s.chip.spi = [] ∧ (
      let c := tick t s.chip
      let g := s.chip.gauge.gov
      g.secAt + sec 1 ≤ c.now ∧ g.st ≠ GovSt.full)) ∧
    (∃ (s : State) (t : Time), s.chip.spi = [] ∧ (
      let c := tick t s.chip
      let g := s.chip.gauge.gov
      g.secAt + sec 1 ≤ c.now ∧ g.st = GovSt.duty2)) ∧
    (∃ (s : State) (t w : Time), s.chip.spi = [] ∧ (
      let c := tick t s.chip
      let g := s.chip.gauge.gov
      g.st ≠ GovSt.full ∧ g.win = some w ∧ ((w + if g.st = GovSt.duty05 then ms 5 else ms 20) ≤ c.now) ∧ g.burst = none ∧
      g.runAt.isSome = true)) ∧
    (∃ (s : State) (t w : Time), s.chip.spi = [] ∧ (
      let c := tick t s.chip
      let g := s.chip.gauge.gov
      g.st ≠ GovSt.full ∧ g.win = some w ∧ ((w + if g.st = GovSt.duty05 then ms 5 else ms 20) ≤ c.now) ∧ g.burst ≠ none)) ∧
    (∃ (s : State) (t : Time), s.chip.spi = [] ∧ (
      let c := tick t s.chip
      let g := s.chip.gauge.gov
      g.secAt + sec 1 ≤ c.now ∧ g.st = GovSt.duty05)) ∧
    (∃ (s : State) (uv : Int) (n : Fin 8), s.chip.spi = [] ∧ (
      let g := s.chip.gauge.gov
      let crosses (uv : Int) : Prop := g.st ≠ .full ∧ g.burst = none ∧ wakeUv s.chip ≤ absRat (uv : Rat)
      crosses uv ∧ (spur s.chip n).st = SpurSt.on)) ∧
    (∃ (s : State) (t : Time) (n : Fin 8), s.chip.spi = [] ∧ (
      let c := tick t s.chip
      let g := s.chip.gauge.gov
      let ends : Prop := g.burst ≠ none ∧ ∃ q, g.quietAt = some q ∧ q + ms 10 ≤ c.now
      ends ∧ (spur s.chip n).st = SpurSt.on)) ∧
    (∃ (s : State) (t : Time), s.chip.spi = [] ∧ (
      let c := tick t s.chip
      let g := s.chip.gauge.gov
      let ends : Prop := g.burst ≠ none ∧ ∃ q, g.quietAt = some q ∧ q + ms 10 ≤ c.now
      ends ∧ g.st ≠ GovSt.full ∧ g.win = none ∧ g.runAt.isSome = true)) ∧
    (∃ (s : State) (t : Time), s.chip.spi = [] ∧ (
      let c := tick t s.chip
      let g := s.chip.gauge.gov
      g.secAt + sec 1 ≤ c.now ∧ s.chip.prs.present = true)) :=
  ⟨⟨md .parked, by decide +kernel⟩,
   ⟨md .parked, 2, by decide +kernel⟩,
   ⟨md .parked, 0, by decide +kernel⟩,
   ⟨md .parked, 2, by decide +kernel⟩,
   ⟨md .parked, 2, by decide +kernel⟩,
   ⟨md .parked, sec 1, by decide +kernel⟩,
   ⟨md .parked, sec 1, by decide +kernel⟩,
   ⟨md .parked (fun c => setSpur (startMods (gv (fun g => { g with st := .duty05, iBase := 1/100, qual := 7 }) c)) 3 { spur c 3 with st := .on }), by decide +kernel⟩,
   ⟨md .parked (fun c => startMods (gv (fun g => { g with st := .duty2, win := some 2, runAt := some 2 }) c)), sec 1, by decide +kernel⟩,
   ⟨md .parked (fun c => startMods (gv (fun g => { g with st := .duty2, win := some 2, runAt := some 2 }) c)), sec 1, by decide +kernel⟩,
   ⟨md .parked (fun c => startMods (gv (fun g => { g with st := .duty2, win := some 2, runAt := some 2 }) c)), ms 20 + 2, 2, by decide +kernel⟩,
   ⟨md .parked (fun c => startMods (gv (fun g => { g with st := .duty05, win := some 2, runAt := some 2, burst := some 2, quietAt := some 2 }) c)), ms 5 + 2, 2, by decide +kernel⟩,
   ⟨md .parked (fun c => startMods (gv (fun g => { g with st := .duty05, win := some 2, runAt := some 2, burst := some 2, quietAt := some 2 }) c)), sec 1, by decide +kernel⟩,
   ⟨md .parked (fun c => setSpur (startMods (gv (fun g => { g with st := .duty05, iBase := 1/100, qual := 7 }) c)) 3 { spur c 3 with st := .on }), 300, 3, by decide +kernel⟩,
   ⟨md .parked (fun c => setSpur (gv (fun g => { g with st := .duty05, runAt := some 2, burst := some 2, quietAt := some 2 }) c) 3 { spur c 3 with st := .on }), ms 20 + 2, 3, by decide +kernel⟩,
   ⟨md .parked (fun c => setSpur (gv (fun g => { g with st := .duty05, runAt := some 2, burst := some 2, quietAt := some 2 }) c) 3 { spur c 3 with st := .on }), ms 20 + 2, by decide +kernel⟩,
   ⟨md .parked (fun c => { gv (fun g => { g with st := .duty2, iBase := 1/7, selfQ := 3 }) c with prs.present := true, seq.modeAt := 1000 }), sec 1, by decide +kernel⟩⟩

/-- The gauge block changed by `f`. -/
def ga (f : Gauge → Gauge) (c : Chip) : Chip := { c with gauge := f c.gauge }

/-- `n` samples of `v`, the latest at `t0`. -/
def wv (v : Rat) (n : Nat) (t0 : Nat) : List Sample := (List.range n).map fun k => ⟨v, .valid, t0 - k * 1000⟩

/-- A gauge with a pack and samples of the last second. -/
def rich (c : Chip) : Chip := { c with
  meas.vPack := { c.meas.vPack with running := true, precHist := wv 15000 20 (sec 2 ), prec := ⟨15000, .valid, sec 2⟩, precHeld := 15000 }
  meas.iP := { c.meas.iP with running := true, precHist := wv 10 20 (sec 2), prec := ⟨10, .valid, sec 2⟩, precHeld := 10 } }

/-- What the clauses of `RestSecondsLeadToAnchors` suppose can be met. -/
theorem witness_RestSecondsLeadToAnchors :
    (∃ (s : State) (t : Time), s.chip.spi = [] ∧ (
      let c := tick t s.chip
      let g := s.chip.gauge
      let gaps : Prop := g.cnt.gap = false ∧ ∃ t0, g.cnt.gapAt = some t0 ∧ t0 + sec 1 < c.now
      ¬gaps)) ∧
    (∃ (s : State) (t : Time), s.chip.spi = [] ∧ (
      let c := tick t s.chip
      let g := s.chip.gauge
      c.now < g.restAt + sec 1)) ∧
    (∃ (s : State) (t : Time), s.chip.spi = [] ∧ (
      let c := tick t s.chip
      let g := s.chip.gauge
      let due : Prop := g.rest = true ∧ g.formed = true ∧ s.chip.prs.present = true ∧ inLimp s.chip = false ∧ g.anchorAt ≤
        c.now
      (¬due ∨ anchorWords c = none))) ∧
    (∃ (s : State) (t : Time), s.chip.spi = [] ∧ (
      let c := tick t s.chip
      let g := s.chip.gauge
      g.restAt + sec 1 ≤ c.now ∧ secondMean c = none)) ∧
    (∃ (s : State) (t : Time), s.chip.spi = [] ∧ (
      let c := tick t s.chip
      let g := s.chip.gauge
      let gaps : Prop := g.cnt.gap = false ∧ ∃ t0, g.cnt.gapAt = some t0 ∧ t0 + sec 1 < c.now
      gaps)) ∧
    (∃ (s : State) (t : Time), s.chip.spi = [] ∧ (
      let c := tick t s.chip
      let g := s.chip.gauge
      let rest : Rat := ((cfg s.chip).gauge.rest : Rat)
      g.restAt + sec 1 ≤ c.now ∧ ((secondMean c).any fun i => decide (rest ≤ i)) = true)) ∧
    (∃ (s : State) (t : Time), s.chip.spi = [] ∧ (
      let c := tick t s.chip
      let g := s.chip.gauge
      let rest : Rat := ((cfg s.chip).gauge.rest : Rat)
      g.restAt + sec 1 ≤ c.now ∧ ((secondMean c).any fun i => decide (i < rest ∧ g.rest = false)) = true)) ∧
    (∃ (s : State) (t : Time), s.chip.spi = [] ∧ (
      let c := tick t s.chip
      let g := s.chip.gauge
      g.restAt + sec 1 ≤ c.now ∧ (g.gAt.any fun t0 => decide (c.now < t0 + minutes 1)) = true)) ∧
    (∃ (s : State) (t : Time), s.chip.spi = [] ∧ (
      let c := tick t s.chip
      let g := s.chip.gauge
      let due : Prop := g.rest = true ∧ g.formed = true ∧ s.chip.prs.present = true ∧ inLimp s.chip = false ∧ g.anchorAt ≤
        c.now
      due ∧ ((anchorWords c).any fun (vs, is) => (
      let d : Chip := { c with gauge.fT := formFT c }
      let zA := ocvInv d (meanCellV c vs + meanPackMa c is / 1000 * serOhm d g.z + g.uF + g.uS)
      let good : Prop := s.chip.tmp.packFormed = true ∧ s.chip.tmp.packSrc ≠ 5 ∧ 0 ≤ s.chip.tmp.pack ∧ s.chip.tmp.pack ≤ 5000
        ∧ inWindow s.chip zA = true
      decide (good))) = true)) ∧
    (∃ (s : State) (t : Time), s.chip.spi = [] ∧ (
      let c := tick t s.chip
      let g := s.chip.gauge
      let due : Prop := g.rest = true ∧ g.formed = true ∧ s.chip.prs.present = true ∧ inLimp s.chip = false ∧ g.anchorAt ≤
        c.now
      due ∧ ((anchorWords c).any fun (vs, is) => (
      let d : Chip := { c with gauge.fT := formFT c }
      let zA := ocvInv d (meanCellV c vs + meanPackMa c is / 1000 * serOhm d g.z + g.uF + g.uS)
      let good : Prop := s.chip.tmp.packFormed = true ∧ s.chip.tmp.packSrc ≠ 5 ∧ 0 ≤ s.chip.tmp.pack ∧ s.chip.tmp.pack ≤ 5000
        ∧ inWindow s.chip zA = true
      decide (¬good))) = true)) :=
  ⟨⟨md .parked, 2, by decide +kernel⟩,
   ⟨md .parked, 2, by decide +kernel⟩,
   ⟨md .parked, 2, by decide +kernel⟩,
   ⟨md .parked, sec 1, by decide +kernel⟩,
   ⟨md .parked (ga fun g => { g with cnt := { g.cnt with gapAt := some 2 } }), sec 1 + 3, by decide +kernel⟩,
   ⟨md .parked (ga fun g => { g with gov := { g.gov with st := .duty2, iSec := -400 } }), sec 1, by decide +kernel⟩,
   ⟨md .parked (ga fun g => { g with gov := { g.gov with st := .duty2, iSec := -2 }, qualS := 5, tRest := 6, gAt := some 5 }), sec 1, by decide +kernel⟩,
   ⟨md .parked (ga fun g => { g with gov := { g.gov with st := .duty2, iSec := -2 }, qualS := 5, tRest := 6, gAt := some 5 }), sec 1, by decide +kernel⟩,
   ⟨md .coupled (fun c => rich (ga (fun g => { g with rest := true, formed := true, z := 9/10 }) { c with prs.present := true, tmp.packFormed := true, tmp.pack := 2500 })), sec 2, by decide +kernel⟩,
   ⟨md .coupled (fun c => rich (ga (fun g => { g with rest := true, formed := true, z := 9/10 }) { c with prs.present := true })), sec 2, by decide +kernel⟩⟩

/-- A gauge at rest with its first estimate and voltages of rest. -/
def est (c : Chip) : Chip := rich (ga (fun g => { g with rest := true, formed := true, z := 9/10, cnt := { g.cnt with n := -1000000 } }) { c with prs.present := true, tmp.packFormed := true, tmp.pack := 2500, learn.qFcc := 5000 })

/-- An impedance measurement under way. -/
def imp1 : ImpRun := { at_ := 2, i0 := 0, dev := 1, v0 := 4, z := 1/2, n := 0, words := [], i1 := some 900, serM := none, polFM := none, tauFM := none, phase := 0, last4 := [(900, 39/10)], track := [] }

/-- What the clauses of `EstimatesFormAndUpdate` suppose can be met. -/
theorem witness_EstimatesFormAndUpdate :
    (∃ (s : State) (t : Time), s.chip.spi = [] ∧ (
      let c := tick t s.chip
      let g := s.chip.gauge
      let mode (m : Mode) : Prop := s.chip.seq.mode = m
      let due : Prop := ((mode .coupled ∨ mode .depot) ∧ g.updAt + ms 250 ≤ c.now) ∨ (mode .limp ∧ g.updAt + sec 1 ≤ c.now) ∨
        (mode .parked ∧ ((g.gov.st = .full ∧ g.updAt < g.gov.secAt) ∨ (g.gov.st ≠ .full ∧ g.updAt < g.gov.winEnd ∧ g.gov.win =
        none)))
      (¬due ∨ inLimp s.chip = false ∧ (g.formed = false ∨ s.chip.prs.present = false)))) ∧
    (∃ (s : State), s.chip.spi = [] ∧ (
      let g := s.chip.gauge
      let ready : Prop := g.wanted = true ∧ g.formed = false ∧ s.chip.prs.present = true ∧ 64 ≤ g.v0n ∧ inLimp s.chip = false
      ¬ready)) ∧
    (∃ (s : State), s.chip.spi = [] ∧ (s.chip.learn.impRun = none ∨ ∃ r, s.chip.learn.impRun = some r ∧ r.i1 = none)) ∧
    (∃ (s : State) (t : Time), s.chip.spi = [] ∧ (
      let c := tick t s.chip
      let g := s.chip.gauge
      let mode (m : Mode) : Prop := s.chip.seq.mode = m
      let due : Prop := ((mode .coupled ∨ mode .depot) ∧ g.updAt + ms 250 ≤ c.now) ∨ (mode .limp ∧ g.updAt + sec 1 ≤ c.now) ∨
        (mode .parked ∧ ((g.gov.st = .full ∧ g.updAt < g.gov.secAt) ∨ (g.gov.st ≠ .full ∧ g.updAt < g.gov.winEnd ∧ g.gov.win =
        none)))
      due ∧ inLimp s.chip = true)) ∧
    (∃ (s : State) (t : Time), s.chip.spi = [] ∧ (
      let c := tick t s.chip
      let g := s.chip.gauge
      let mode (m : Mode) : Prop := s.chip.seq.mode = m
      let due : Prop := ((mode .coupled ∨ mode .depot) ∧ g.updAt + ms 250 ≤ c.now) ∨ (mode .limp ∧ g.updAt + sec 1 ≤ c.now) ∨
        (mode .parked ∧ ((g.gov.st = .full ∧ g.updAt < g.gov.secAt) ∨ (g.gov.st ≠ .full ∧ g.updAt < g.gov.winEnd ∧ g.gov.win =
        none)))
      due ∧ inLimp s.chip = false ∧ g.formed = true ∧ s.chip.prs.present = true)) ∧
    (∃ (s : State), s.chip.spi = [] ∧ (
      let g := s.chip.gauge
      let ready : Prop := g.wanted = true ∧ g.formed = false ∧ s.chip.prs.present = true ∧ 64 ≤ g.v0n ∧ inLimp s.chip = false
      ready)) ∧
    (∃ (s : State), s.chip.spi = [] ∧ (s.chip.learn.impRun.any fun r => (r.i1.any fun _ => decide (r.phase = 0))) = true) ∧
    (∃ (s : State) (t : Time), s.chip.spi = [] ∧ (
      let c := tick t s.chip
      ((s.chip.learn.impRun.any fun r => (r.i1.any fun _ => (
      let at_ := c.now - r.at_
      decide (r.phase = 1) && (r.serM.any fun _ => decide (nsSec at_ < 5 * tauFAt s.chip r.z)))))) = true)) ∧
    (∃ (s : State) (t : Time), s.chip.spi = [] ∧ (
      let c := tick t s.chip
      ((s.chip.learn.impRun.any fun r => (r.i1.any fun _ => (
      let at_ := c.now - r.at_
      decide (r.phase = 1) && (r.serM.any fun _ => decide (5 * tauFAt s.chip r.z ≤ nsSec at_)))))) = true)) ∧
    (∃ (s : State), s.chip.spi = [] ∧ ((s.chip.learn.impRun.any fun r => (r.i1.any fun _ => decide ((r.phase = 1 ∧ r.serM =
      none ∨ r.phase = 2 ∧ (r.serM = none ∨ r.polFM = none) ∨ 2 < r.phase))))) = true) ∧
    (∃ (s : State) (t : Time), s.chip.spi = [] ∧ (
      let c := tick t s.chip
      ((s.chip.learn.impRun.any fun r => (r.i1.any fun _ => (
      let at_ := c.now - r.at_
      decide (r.phase = 2 ∧ r.serM.isSome = true ∧ r.polFM.isSome = true ∧ nsSec at_ < 3 * tauSAt s.chip r.z))))) = true)) ∧
    (∃ (s : State) (t : Time), s.chip.spi = [] ∧ (
      let c := tick t s.chip
      ((s.chip.learn.impRun.any fun r => (r.i1.any fun _ => (
      let at_ := c.now - r.at_
      decide (r.phase = 2 ∧ r.serM.isSome = true ∧ r.polFM.isSome = true ∧ 3 * tauSAt s.chip r.z ≤ nsSec at_))))) = true)) :=
  ⟨⟨md .parked, 2, by decide +kernel⟩,
   ⟨md .parked, by decide +kernel⟩,
   ⟨md .parked, by decide +kernel⟩,
   ⟨md .limp, sec 1, by decide +kernel⟩,
   ⟨md .coupled est, ms 250, by decide +kernel⟩,
   ⟨md .coupled (fun c => ga (fun g => { g with formed := false, wanted := true, v0n := 64, v0V := 64 * 15000, v0I := 64 * 10 }) (est c)), by decide +kernel⟩,
   ⟨md .coupled (fun c => { est c with learn.impRun := some imp1 }), by decide +kernel⟩,
   ⟨md .coupled (fun c => { est c with learn.impRun := some { imp1 with phase := 1, serM := some (1/100) } }), 2, by decide +kernel⟩,
   ⟨md .coupled (fun c => { est c with learn.impRun := some { imp1 with phase := 1, serM := some (1/100) } }), minutes 60, by decide +kernel⟩,
   ⟨md .coupled (fun c => { est c with learn.impRun := some { imp1 with phase := 1 } }), by decide +kernel⟩,
   ⟨md .coupled (fun c => { est c with learn.impRun := some { imp1 with phase := 2, serM := some (1/100), polFM := some (1/100) } }), 2, by decide +kernel⟩,
   ⟨md .coupled (fun c => { est c with learn.impRun := some { imp1 with phase := 2, serM := some (1/100), polFM := some (1/100) } }), minutes 60, by decide +kernel⟩⟩

end Sys2Proof.Tests.Estimating

namespace Sys2Proof.Tests.Tags

open Sys2Proof.Machine

/-- The answer of a tag to a command with its CRC-16 (R547, R548). -/
def an (x : TagCmd) (bs : List Byte) : TagResult := .answer (bs ++ u16B (crc16 (x.code :: bs)))

/-- A READ at address 0. -/
def rdc : TagCmd := .read 0 0

/-- The tag block changed by `f`. -/
def tg (f : Tag → Tag) (c : Chip) : Chip := { c with tag := f c.tag }

/-- A pack is present. -/
def pr (c : Chip) : Chip := { c with prs.present := true }

/-- A pack is present, with the tag block changed by `f`. -/
def ins (f : Tag → Tag) : State := md .coupled fun c => pr (tg f c)

/-- What the clauses of `TagExchangeRunsInOrder` suppose can be met. -/
theorem witness_TagExchangeRunsInOrder :
    (∃ (s : State) (t : Time), s.chip.spi = [] ∧ (
      let g := s.chip.tag
      let now := max s.chip.now t
      let due (why : ProbeWhy) : Prop := tagActive s.chip = true ∧ g.ts1Probe = false ∧ g.txn = none ∧ g.probe = some why ∧
        (why = .silent → g.lastProbe + sec 10 ≤ now) ∧ (why ≠ .silent → g.probes = 0 ∨ g.lastProbe + ms 20 ≤ now)
      (tagActive s.chip = false ∨ (g.ts1Probe = false ∧ ¬due .configure ∧ ¬due .inserted ∧ ¬due .silent)))) ∧
    (∃ (s : State), s.chip.spi = [] ∧ (
      let g := s.chip.tag
      (g.txn = none ∨ g.ts1Probe = true))) ∧
    (∃ (s : State), s.chip.spi = [] ∧ (
      let g := s.chip.tag
      (g.stage ≠ TagStage.response ∨ g.busyAt = none ∨ g.txn ≠ none) ∧ (g.tool = none ∨ tagActive s.chip = false ∨ tagIdle
      s.chip = false))) ∧
    (∃ (s : State) (t : Time), s.chip.spi = [] ∧ (
      let g := s.chip.tag
      let now := max s.chip.now t
      (exchanging g.stage = false ∨ now < g.exAt + sec 1))) ∧
    (∃ (s : State) (t : Time), s.chip.spi = [] ∧ (
      let g := s.chip.tag
      let now := max s.chip.now t
      (g.stage = TagStage.idle ∨ exchanging g.stage = true ∨ now < g.verdictAt + sec 1))) ∧
    (∃ (s : State) (t : Time) (why : ProbeWhy), s.chip.spi = [] ∧ (
      let g := s.chip.tag
      let now := max s.chip.now t
      let due (why : ProbeWhy) : Prop := tagActive s.chip = true ∧ g.ts1Probe = false ∧ g.txn = none ∧ g.probe = some why ∧
        (why = .silent → g.lastProbe + sec 10 ≤ now) ∧ (why ≠ .silent → g.probes = 0 ∨ g.lastProbe + ms 20 ≤ now)
      due why ∧ (why ≠ ProbeWhy.configure ∨ s.chip.prs.present = true))) ∧
    (∃ (s : State) (t : Time) (why : ProbeWhy), s.chip.spi = [] ∧ (
      let g := s.chip.tag
      let now := max s.chip.now t
      let due (why : ProbeWhy) : Prop := tagActive s.chip = true ∧ g.ts1Probe = false ∧ g.txn = none ∧ g.probe = some why ∧
        (why = .silent → g.lastProbe + sec 10 ≤ now) ∧ (why ≠ .silent → g.probes = 0 ∨ g.lastProbe + ms 20 ≤ now)
      let last : Prop := (due .inserted ∧ g.probeAt + ms 500 ≤ now) ∨ (due .configure ∧ 4 ≤ g.probes)
      due why ∧ ¬last)) ∧
    (∃ (s : State) (t : Time), s.chip.spi = [] ∧ (
      let g := s.chip.tag
      let now := max s.chip.now t
      let due (why : ProbeWhy) : Prop := tagActive s.chip = true ∧ g.ts1Probe = false ∧ g.txn = none ∧ g.probe = some why ∧
        (why = .silent → g.lastProbe + sec 10 ≤ now) ∧ (why ≠ .silent → g.probes = 0 ∨ g.lastProbe + ms 20 ≤ now)
      let last : Prop := (due .inserted ∧ g.probeAt + ms 500 ≤ now) ∨ (due .configure ∧ 4 ≤ g.probes)
      last ∧ (g.probe = some ProbeWhy.inserted ∨ s.chip.prs.present = true) ∧ g.verdict ≠ Verdict.silent)) ∧
    (∃ (s : State) (t : Time) (why : ProbeWhy), s.chip.spi = [] ∧ (
      let g := s.chip.tag
      let now := max s.chip.now t
      let due (why : ProbeWhy) : Prop := tagActive s.chip = true ∧ g.ts1Probe = false ∧ g.txn = none ∧ g.probe = some why ∧
        (why = .silent → g.lastProbe + sec 10 ≤ now) ∧ (why ≠ .silent → g.probes = 0 ∨ g.lastProbe + ms 20 ≤ now)
      due why ∧ why = ProbeWhy.configure)) ∧
    (∃ (s : State) (t : Time), s.chip.spi = [] ∧ (
      let g := s.chip.tag
      let now := max s.chip.now t
      let due (why : ProbeWhy) : Prop := tagActive s.chip = true ∧ g.ts1Probe = false ∧ g.txn = none ∧ g.probe = some why ∧
        (why = .silent → g.lastProbe + sec 10 ≤ now) ∧ (why ≠ .silent → g.probes = 0 ∨ g.lastProbe + ms 20 ≤ now)
      let last : Prop := (due .inserted ∧ g.probeAt + ms 500 ≤ now) ∨ (due .configure ∧ 4 ≤ g.probes)
      last ∧ g.probe = some ProbeWhy.configure ∧ s.chip.prs.present = false)) ∧
    (∃ (s : State) (a : Bool), s.chip.spi = [] ∧ (
      let g := s.chip.tag
      tagActive s.chip = true ∧ g.ts1Probe = true ∧ a = false ∧ g.txn ≠ none ∧ ¬g.fails < 2 ∧ s.chip.prs.verdict = none)) ∧
    (∃ (s : State) (a : Bool), s.chip.spi = [] ∧ (
      let g := s.chip.tag
      tagActive s.chip = true ∧ g.ts1Probe = true ∧ (a = true ∨ g.txn = none ∨ g.fails < 2) ∧ s.chip.prs.verdict = none ∧
      g.txn ≠ none)) ∧
    (∃ (s : State) (t : Time), s.chip.spi = [] ∧ (
      let g := s.chip.tag
      let now := max s.chip.now t
      g.stage ≠ TagStage.idle ∧ exchanging g.stage = false ∧ g.verdictAt + sec 1 ≤ now)) ∧
    (∃ (s : State) (a : Bool), s.chip.spi = [] ∧ (
      let g := s.chip.tag
      tagActive s.chip = true ∧ g.ts1Probe = true ∧ (a = true ∨ g.txn = none ∨ g.fails < 2) ∧ (s.chip.prs.verdict.any fun v =>
      decide (v.ts2Left = 0 ∧ v.ts2.getLast? ≠ some Status.valid ∧ a = true)) = true)) ∧
    (∃ (s : State) (a : Bool), s.chip.spi = [] ∧ (
      let g := s.chip.tag
      tagActive s.chip = true ∧ g.ts1Probe = true ∧ (a = true ∨ g.txn = none ∨ g.fails < 2) ∧ (s.chip.prs.verdict.any fun v =>
      decide (v.ts2Left = 0 ∧ v.ts2.getLast? ≠ some Status.valid ∧ a = false)) = true)) :=
  ⟨⟨md .unpowered, 2, by decide +kernel⟩,
   ⟨md .unpowered, by decide +kernel⟩,
   ⟨md .unpowered, by decide +kernel⟩,
   ⟨md .unpowered, 2, by decide +kernel⟩,
   ⟨md .unpowered, 2, by decide +kernel⟩,
   ⟨md .coupled (tg fun g => { g with probe := some .inserted }), 2, .inserted, by decide +kernel⟩,
   ⟨md .coupled (tg fun g => { g with probe := some .inserted }), 2, .inserted, by decide +kernel⟩,
   ⟨ins (fun g => { g with probe := some .configure, probes := 4 }), sec 12, by decide +kernel⟩,
   ⟨md .coupled (tg fun g => { g with probe := some .configure, probes := 4 }), sec 12, .configure, by decide +kernel⟩,
   ⟨md .coupled (tg fun g => { g with probe := some .configure, probes := 4 }), sec 12, by decide +kernel⟩,
   ⟨ins (fun g => { g with ts1Probe := true, txn := some .slotStatus, stage := .slots, fails := 2 }), false, by decide +kernel⟩,
   ⟨ins (fun g => { g with ts1Probe := true, txn := some .slotStatus, stage := .slots, fails := 2 }), true, by decide +kernel⟩,
   ⟨ins (fun g => { g with ts1Probe := true, txn := some .slotStatus, stage := .slots, fails := 2 }), sec 12, by decide +kernel⟩,
   ⟨{ (ins fun g => { g with ts1Probe := true }) with chip.prs.verdict := some { ts2 := [.opn, .opn], ts2Left := 0 } }, true, by decide +kernel⟩,
   ⟨{ (ins fun g => { g with ts1Probe := true }) with chip.prs.verdict := some { ts2 := [.opn, .opn], ts2Left := 0 } }, false, by decide +kernel⟩⟩

/-- A header of the form of Table 12.4 under a key that is trusted. -/
def hdG : List Byte := [0x55, 0x41, 0x53, 0x48, 1, 1, 8, 0] ++ List.replicate 16 5 ++ (Crypto.sha256 (Crypto.publicKey 77)).take 4 ++ List.replicate 33 2 ++ [0,0,0] ++ List.replicate 96 3

/-- The same under another issuer. -/
def hdU : List Byte := [0x55, 0x41, 0x53, 0x48, 1, 1, 8, 0] ++ List.replicate 16 5 ++ [1,2,3,4] ++ List.replicate 33 2 ++ [0,0,0] ++ List.replicate 96 3

/-- A certificate of Table 12.6 for the key of the scalar 77. -/
def certB : List Byte := [1, 2, 0, 0, 0, 0] ++ List.replicate 16 4 ++ ((if (leNat ((Crypto.publicKey 77).drop 32)) % 2 = 0 then 2 else 3) : Byte) :: (Crypto.publicKey 77).take 32 ++ List.replicate 65 0

/-- A record of the form of Table 12.5. -/
def recG : List Byte := [1, 3] ++ List.replicate 34 0 ++ [0,0,0,0] ++ List.replicate 160 0 ++ certB ++ List.replicate 64 1

/-- The key of the scalar 77 is trusted as an issuer. -/
def tr77 (c : Chip) : Chip := { c with img.cfg := { c.img.cfg with trust := [{ key := Crypto.publicKey 77, usage := 3 }] } }

/-- What the clauses of `TagExchangeRunsInOrder` suppose can be met. -/
theorem witness_TagExchangeRunsInOrder_more :
    (∃ (s : State) (t : Time), s.chip.spi = [] ∧ (
      let g := s.chip.tag
      let now := max s.chip.now t
      let due (why : ProbeWhy) : Prop := tagActive s.chip = true ∧ g.ts1Probe = false ∧ g.txn = none ∧ g.probe = some why ∧
        (why = .silent → g.lastProbe + sec 10 ≤ now) ∧ (why ≠ .silent → g.probes = 0 ∨ g.lastProbe + ms 20 ≤ now)
      (tagActive s.chip = false ∨ (g.ts1Probe = false ∧ ¬due .configure ∧ ¬due .inserted ∧ ¬due .silent)))) ∧
    (∃ (s : State) (res : TagResult), s.chip.spi = [] ∧ (
      let g := s.chip.tag
      (g.txn.any fun cmd => decide (g.ts1Probe = false) && (match tagAnswer cmd res with
      | Except.error _ => decide (g.fails < 2)
      | _ => false)) = true)) ∧
    (∃ (s : State) (res : TagResult), s.chip.spi = [] ∧ (
      let g := s.chip.tag
      (g.txn.any fun cmd => decide (g.ts1Probe = false) && (match tagAnswer cmd res with
      | Except.ok _ => decide (g.write = none ∧ g.stage = TagStage.slots)
      | _ => false)) = true)) ∧
    (∃ (s : State), s.chip.spi = [] ∧ (
      let g := s.chip.tag
      (g.stage ≠ TagStage.response ∨ g.busyAt = none ∨ g.txn ≠ none) ∧ (g.tool = none ∨ tagActive s.chip = false ∨ tagIdle
      s.chip = false))) ∧
    (∃ (s : State) (t : Time), s.chip.spi = [] ∧ (
      let g := s.chip.tag
      let now := max s.chip.now t
      (exchanging g.stage = false ∨ now < g.exAt + sec 1))) ∧
    (∃ (s : State) (t : Time), s.chip.spi = [] ∧ (
      let g := s.chip.tag
      let now := max s.chip.now t
      (g.stage = TagStage.idle ∨ exchanging g.stage = true ∨ now < g.verdictAt + sec 1))) ∧
    (∃ (s : State) (t : Time), s.chip.spi = [] ∧ (
      let g := s.chip.tag
      let now := max s.chip.now t
      g.stage ≠ TagStage.idle ∧ exchanging g.stage = false ∧ g.verdictAt + sec 1 ≤ now)) ∧
    (∃ (s : State) (res : TagResult), s.chip.spi = [] ∧ (
      let g := s.chip.tag
      ((g.txn.any fun cmd => decide (g.ts1Probe = false) && (match tagAnswer cmd res with
      | Except.error a => decide (¬g.fails < 2 ∧ (g.stage ≠ TagStage.challenge ∨ (g.absent && a) = false) ∧ g.write = none ∧
        exchanging g.stage = false ∧ g.stage ≠ TagStage.idle)
      | _ => false))) = true)) ∧
    (∃ (s : State) (res : TagResult), s.chip.spi = [] ∧ (
      let g := s.chip.tag
      (g.txn.any fun cmd => decide (g.ts1Probe = false) && (match tagAnswer cmd res with
      | Except.ok bs => decide (g.write = none ∧ g.stage = TagStage.challenge ∧ u8At bs 0 = 0)
      | _ => false)) = true)) ∧
    (∃ (s : State) (res : TagResult), s.chip.spi = [] ∧ (
      let g := s.chip.tag
      (g.txn.any fun cmd => decide (g.ts1Probe = false) && (match tagAnswer cmd res with
      | Except.ok bs => decide (g.write = none ∧ g.stage = TagStage.challenge ∧ u8At bs 0 ≠ 0 ∧ g.verdict ≠ Verdict.silent)
      | _ => false)) = true)) ∧
    (∃ (s : State) (t : Time), s.chip.spi = [] ∧ (
      let g := s.chip.tag
      let now := max s.chip.now t
      exchanging g.stage = true ∧ g.exAt + sec 1 ≤ now ∧ g.verdict ≠ Verdict.silent)) ∧
    (∃ (s : State) (res : TagResult), s.chip.spi = [] ∧ (
      let g := s.chip.tag
      ((g.txn.any fun cmd => decide (g.ts1Probe = false) && (match tagAnswer cmd res with
      | Except.error a => decide (¬g.fails < 2 ∧ g.stage = TagStage.challenge ∧ (g.absent && a) = true ∧ g.verdict ≠
        Verdict.silent)
      | _ => false))) = true)) ∧
    (∃ (s : State) (res : TagResult), s.chip.spi = [] ∧ (
      let g := s.chip.tag
      ((g.txn.any fun cmd => decide (g.ts1Probe = false) && (match tagAnswer cmd res with
      | Except.error a => decide (¬g.fails < 2 ∧ (g.stage ≠ TagStage.challenge ∨ (g.absent && a) = false) ∧ g.write = none ∧
        exchanging g.stage = true ∧ g.verdict ≠ Verdict.silent)
      | _ => false))) = true)) ∧
    (∃ (s : State) (res : TagResult), s.chip.spi = [] ∧ (
      let g := s.chip.tag
      ((g.txn.any fun cmd => decide (g.ts1Probe = false) && (match tagAnswer cmd res with
      | Except.error a => decide (¬g.fails < 2 ∧ (g.stage ≠ TagStage.challenge ∨ (g.absent && a) = false) ∧ g.write = none ∧
        exchanging g.stage = true ∧ g.verdict = Verdict.silent)
      | _ => false))) = true)) ∧
    (∃ (s : State) (res : TagResult), s.chip.spi = [] ∧ (
      let g := s.chip.tag
      (g.txn.any fun cmd => decide (g.ts1Probe = false) && (match tagAnswer cmd res with
      | Except.ok bs => decide (g.write = none ∧ g.stage = TagStage.challenge ∧ u8At bs 0 ≠ 0 ∧ g.verdict = Verdict.silent)
      | _ => false)) = true)) ∧
    (∃ (s : State) (t : Time), s.chip.spi = [] ∧ (
      let g := s.chip.tag
      let now := max s.chip.now t
      exchanging g.stage = true ∧ g.exAt + sec 1 ≤ now ∧ g.verdict = Verdict.silent)) ∧
    (∃ (s : State) (res : TagResult), s.chip.spi = [] ∧ (
      let g := s.chip.tag
      ((g.txn.any fun cmd => decide (g.ts1Probe = false) && (match tagAnswer cmd res with
      | Except.ok bs => decide (g.write = none ∧ g.stage = TagStage.header ∧ headerFormOk bs = true ∧ issuerKeys s.chip 0
        (slice bs 24 4) = [] ∧ g.verdict ≠ Verdict.silent)
      | _ => false))) = true)) ∧
    (∃ (s : State) (res : TagResult), s.chip.spi = [] ∧ (
      let g := s.chip.tag
      (g.txn.any fun cmd => decide (g.ts1Probe = false) && (match tagAnswer cmd res with
      | Except.ok bs => decide (g.write = none ∧ g.stage = TagStage.header ∧ headerFormOk bs = false ∧ g.verdict ≠
        Verdict.silent)
      | _ => false)) = true)) ∧
    (∃ (s : State) (res : TagResult), s.chip.spi = [] ∧ (
      let g := s.chip.tag
      ((g.txn.any fun cmd => decide (g.ts1Probe = false) && (match tagAnswer cmd res with
      | Except.ok bs => decide (g.write = none ∧ g.stage = TagStage.header ∧ headerFormOk bs = true ∧ issuerKeys s.chip 0
        (slice bs 24 4) ≠ [])
      | _ => false))) = true)) ∧
    (∃ (s : State) (res : TagResult), s.chip.spi = [] ∧ (
      let g := s.chip.tag
      (g.txn.any fun cmd => decide (g.ts1Probe = false) && (match tagAnswer cmd res with
      | Except.ok bs => decide (g.write = none ∧ g.stage = TagStage.response ∧ u8At bs 0 = 0)
      | _ => false)) = true)) ∧
    (∃ (s : State) (res : TagResult), s.chip.spi = [] ∧ (
      let g := s.chip.tag
      (g.txn.any fun cmd => decide (g.ts1Probe = false) && (match tagAnswer cmd res with
      | Except.ok bs => decide (g.write = none ∧ g.stage = TagStage.response ∧ u8At bs 0 = 1)
      | _ => false)) = true)) ∧
    (∃ (s : State) (res : TagResult), s.chip.spi = [] ∧ (
      let g := s.chip.tag
      (g.txn.any fun cmd => decide (g.ts1Probe = false) && (match tagAnswer cmd res with
      | Except.ok bs => decide (g.write = none ∧ g.stage = TagStage.response ∧ 2 ≤ u8At bs 0 ∧ g.verdict ≠ Verdict.silent)
      | _ => false)) = true)) ∧
    (∃ (s : State), s.chip.spi = [] ∧ (
      let g := s.chip.tag
      (g.txn = none ∨ g.ts1Probe = true))) ∧
    (∃ (s : State) (t : Time), s.chip.spi = [] ∧ (
      let g := s.chip.tag
      let now := max s.chip.now t
      (g.busyAt.any fun t0 => decide (g.stage = TagStage.response ∧ g.txn = none ∧ now < g.exAt + sec 1 ∧ (now < t0 + ms 5 ∨
      tagActive s.chip = false))) = true)) ∧
    (∃ (s : State) (t : Time), s.chip.spi = [] ∧ (
      let g := s.chip.tag
      let now := max s.chip.now t
      (g.busyAt.any fun t0 => decide (g.stage = TagStage.response ∧ g.txn = none ∧ now < g.exAt + sec 1 ∧ t0 + ms 5 ≤ now ∧
      tagActive s.chip = true)) = true)) ∧
    (∃ (s : State) (t : Time), s.chip.spi = [] ∧ (
      let g := s.chip.tag
      let now := max s.chip.now t
      (g.busyAt.any fun _ => decide (g.stage = TagStage.response ∧ g.txn = none ∧ g.exAt + sec 1 ≤ now ∧ g.verdict ≠
      Verdict.silent)) = true)) ∧
    (∃ (s : State) (res : TagResult), s.chip.spi = [] ∧ (
      let g := s.chip.tag
      (g.txn.any fun cmd => decide (g.ts1Probe = false) && (match tagAnswer cmd res with
      | Except.ok bs => decide (g.write = none ∧ g.stage = TagStage.response ∧ 2 ≤ u8At bs 0 ∧ g.verdict = Verdict.silent)
      | _ => false)) = true)) ∧
    (∃ (s : State) (res : TagResult), s.chip.spi = [] ∧ (
      let g := s.chip.tag
      (g.txn.any fun cmd => decide (g.ts1Probe = false) && (match tagAnswer cmd res with
      | Except.ok _ => decide (g.write = none ∧ g.stage = TagStage.profile)
      | _ => false)) = true)) ∧
    (∃ (s : State) (res : TagResult), s.chip.spi = [] ∧ (
      let g := s.chip.tag
      ((g.txn.any fun cmd => decide (g.ts1Probe = false) && (match tagAnswer cmd res with
      | Except.ok bs => decide (g.write = none) && (match cmd with
      | TagCmd.read _ _ => decide (g.stage = TagStage.slotRead ∧ payloadOk (slice bs 0 200) = true ∧ certFormOk (slice bs 200
        120) = true)
      | _ => false)
      | _ => false))) = true)) ∧
    (∃ (s : State) (res : TagResult), s.chip.spi = [] ∧ (
      let g := s.chip.tag
      ((g.txn.any fun cmd => decide (g.ts1Probe = false) && (match tagAnswer cmd res with
      | Except.ok bs => decide (g.write = none) && (match cmd with
      | TagCmd.read _ _ => decide (g.stage = TagStage.slotRead ∧ (payloadOk (slice bs 0 200) = false ∨ certFormOk (slice bs
        200 120) = false))
      | _ => false)
      | _ => false))) = true)) ∧
    (∃ (s : State) (res : TagResult), s.chip.spi = [] ∧ (
      let g := s.chip.tag
      ((g.txn.any fun cmd => decide (g.ts1Probe = false) && (match tagAnswer cmd res with
      | Except.error a => decide (¬g.fails < 2 ∧ (g.stage ≠ TagStage.challenge ∨ (g.absent && a) = false) ∧ (g.write ≠ none ∨
        g.stage = TagStage.idle) ∧ g.write ≠ none)
      | _ => false))) = true)) ∧
    (∃ (s : State) (res : TagResult), s.chip.spi = [] ∧ (
      let g := s.chip.tag
      ((g.txn.any fun cmd => decide (g.ts1Probe = false) && (match tagAnswer cmd res with
      | Except.ok _ => decide (g.write = none ∧ g.stage = TagStage.idle) && (s.chip.host.pend.any fun p => decide (p.op = 36 ∧
        p.done = none))
      | _ => false))) = true)) ∧
    (∃ (s : State) (res : TagResult), s.chip.spi = [] ∧ (
      let g := s.chip.tag
      ((g.txn.any fun cmd => decide (g.ts1Probe = false) && (match tagAnswer cmd res with
      | Except.ok bs => decide (g.write = none ∧ g.stage = TagStage.header ∧ headerFormOk bs = true ∧ issuerKeys s.chip 0
        (slice bs 24 4) = [] ∧ g.verdict = Verdict.silent)
      | _ => false))) = true)) ∧
    (∃ (s : State) (res : TagResult), s.chip.spi = [] ∧ (
      let g := s.chip.tag
      (g.txn.any fun cmd => decide (g.ts1Probe = false) && (match tagAnswer cmd res with
      | Except.ok bs => decide (g.write = none ∧ g.stage = TagStage.header ∧ headerFormOk bs = false ∧ g.verdict =
        Verdict.silent)
      | _ => false)) = true)) ∧
    (∃ (s : State) (t : Time), s.chip.spi = [] ∧ (
      let g := s.chip.tag
      let now := max s.chip.now t
      (g.busyAt.any fun _ => decide (g.stage = TagStage.response ∧ g.txn = none ∧ g.exAt + sec 1 ≤ now ∧ g.verdict =
      Verdict.silent)) = true)) ∧
    (∃ (s : State) (res : TagResult), s.chip.spi = [] ∧ (
      let g := s.chip.tag
      ((g.txn.any fun cmd => decide (g.ts1Probe = false) && (match tagAnswer cmd res with
      | Except.error a => decide (¬g.fails < 2 ∧ (g.stage ≠ TagStage.challenge ∨ (g.absent && a) = false) ∧ (g.write ≠ none ∨
        g.stage = TagStage.idle)) && (match cmd with
      | TagCmd.read _ _ => decide (g.write = none)
      | _ => false)
      | _ => false))) = true)) :=
  ⟨⟨md .coupled (tg fun g => { g with txn := some .slotStatus, stage := .slots, verdict := .authenticated }), 2, by decide +kernel⟩,
   ⟨ins (fun g => { g with txn := some (.challenge []), stage := .challenge, fails := 1, absent := true, exAt := 2 }), .silent, by decide +kernel⟩,
   ⟨md .coupled (tg fun g => { g with txn := some .slotStatus, stage := .slots, verdict := .authenticated }), an .slotStatus (List.replicate 20 2), by decide +kernel⟩,
   ⟨md .coupled (tg fun g => { g with txn := some .slotStatus, stage := .slots, verdict := .authenticated }), by decide +kernel⟩,
   ⟨md .coupled (tg fun g => { g with txn := some .slotStatus, stage := .slots, verdict := .authenticated }), 2, by decide +kernel⟩,
   ⟨md .coupled (tg fun g => { g with txn := some (.challenge []), stage := .challenge, exAt := 2 }), 2, by decide +kernel⟩,
   ⟨md .coupled (tg fun g => { g with txn := some .slotStatus, stage := .slots, verdict := .authenticated }), sec 2, by decide +kernel⟩,
   ⟨ins (fun g => { g with txn := some .slotStatus, stage := .slots, verdict := .authenticated, fails := 2 }), .silent, by decide +kernel⟩,
   ⟨md .coupled (tg fun g => { g with txn := some (.challenge []), stage := .challenge, exAt := 2 }), an (.challenge []) [0], by decide +kernel⟩,
   ⟨md .coupled (tg fun g => { g with txn := some (.challenge []), stage := .challenge, exAt := 2 }), an (.challenge []) [1], by decide +kernel⟩,
   ⟨md .coupled (tg fun g => { g with txn := some (.challenge []), stage := .challenge, exAt := 2 }), sec 2, by decide +kernel⟩,
   ⟨ins (fun g => { g with txn := some (.challenge []), stage := .challenge, fails := 2, absent := true, exAt := 2 }), .silent, by decide +kernel⟩,
   ⟨ins (fun g => { g with txn := some (.challenge []), stage := .challenge, fails := 2, absent := true, exAt := 2 }), .answer [1], by decide +kernel⟩,
   ⟨ins (fun g => { g with txn := some (.challenge []), stage := .challenge, fails := 2, absent := true, exAt := 2, verdict := .silent }), .answer [1], by decide +kernel⟩,
   ⟨ins (fun g => { g with txn := some (.challenge []), stage := .challenge, fails := 2, absent := true, exAt := 2, verdict := .silent }), an (.challenge []) [1], by decide +kernel⟩,
   ⟨ins (fun g => { g with txn := some (.challenge []), stage := .challenge, fails := 2, absent := true, exAt := 2, verdict := .silent }), sec 2, by decide +kernel⟩,
   ⟨md .coupled (tg fun g => { g with txn := some (.read 0 160), stage := .header, exAt := 2 }), an rdc hdG, by decide +kernel⟩,
   ⟨md .coupled (tg fun g => { g with txn := some (.read 0 160), stage := .header, exAt := 2 }), an rdc (List.replicate 160 0), by decide +kernel⟩,
   ⟨md .coupled (fun c => tr77 (tg (fun g => { g with txn := some (.read 0 160), stage := .header, exAt := 2 }) c)), an rdc hdG, by decide +kernel⟩,
   ⟨ins (fun g => { g with txn := some .getResponse, stage := .response, exAt := 2 }), an .getResponse (0 :: List.replicate 64 9), by decide +kernel⟩,
   ⟨ins (fun g => { g with txn := some .getResponse, stage := .response, exAt := 2 }), an .getResponse [1], by decide +kernel⟩,
   ⟨ins (fun g => { g with txn := some .getResponse, stage := .response, exAt := 2 }), an .getResponse [3], by decide +kernel⟩,
   ⟨ins (fun g => { g with txn := none, busyAt := some 2, stage := .response, exAt := 2 }), by decide +kernel⟩,
   ⟨md .limp (fun c => pr (tg (fun g => { g with txn := none, busyAt := some 2, stage := .response, exAt := 2 }) c)), 2, by decide +kernel⟩,
   ⟨ins (fun g => { g with txn := none, busyAt := some 2, stage := .response, exAt := 2 }), ms 7, by decide +kernel⟩,
   ⟨ins (fun g => { g with txn := none, busyAt := some 2, stage := .response, exAt := 2 }), sec 2, by decide +kernel⟩,
   ⟨ins (fun g => { g with txn := some .getResponse, stage := .response, exAt := 2, verdict := .silent }), an .getResponse [3], by decide +kernel⟩,
   ⟨ins (fun g => { g with txn := some (.read 0xA0 196), stage := .profile, exAt := 2 }), an rdc (List.replicate 196 7), by decide +kernel⟩,
   ⟨ins (fun g => { g with txn := some (.read 0x380 384), stage := .slotRead, verdictAt := 2, toTry := [0] }), an rdc recG, by decide +kernel⟩,
   ⟨ins (fun g => { g with txn := some (.read 0x380 384), stage := .slotRead, verdictAt := 2, toTry := [0] }), an rdc (List.replicate 384 5), by decide +kernel⟩,
   ⟨ins (fun g => { g with txn := some .slotStatus, stage := .slots, write := some { step := 0, causes := [7], slot := 1, payload := [1,2,3], sig := none, start := 0, waitAt := none }, fails := 2 }), .silent, by decide +kernel⟩,
   ⟨md .depot (fun c => { (tg (fun g => { g with txn := some (.read 0 16), tool := some { handle := 1, addr := 0, len := 16 } }) c) with host.pend := some { op := 0x24, handle := 1, at_ := 0, orphan := false, done := none, outcome := none } }), an rdc (List.replicate 16 4), by decide +kernel⟩,
   ⟨md .coupled (fun c => tr77 (tg (fun g => { g with txn := some (.read 0 160), verdict := .silent, stage := .header, exAt := 2 }) c)), an rdc hdU, by decide +kernel⟩,
   ⟨md .coupled (fun c => tr77 (tg (fun g => { g with txn := some (.read 0 160), verdict := .silent, stage := .header, exAt := 2 }) c)), an rdc (List.replicate 160 0), by decide +kernel⟩,
   ⟨ins (fun g => { g with txn := none, busyAt := some 2, stage := .response, exAt := 2, verdict := .silent }), sec 2, by decide +kernel⟩,
   ⟨md .depot (tg fun g => { g with fails := 2, txn := some (.read 0 16), tool := some { handle := 1, addr := 0, len := 16 } }), .silent, by decide +kernel⟩⟩

/-- The public key of the private scalar 77, X then Y, least significant byte first. -/
def key77 : List Byte :=
  Crypto.beBytes 64 (0x7bbe93083471d817c02980b321e0eff420c7d572eb189d1a2577a2db02b02158 * 2 ^ 256 +
    0x63239fe54095be1bc3d1de25f1049c866658ff3ff6629bdf3485537ad612ec23)

/-- A header whose issuer is `key77` and whose pack key is `key`, with its signature (Table 12.4). -/
def headerOf (key : List Byte) (r s : Nat) : List Byte :=
  slice (List.replicate 24 5 ++ (Crypto.sha256 key77).take 4 ++ key) 0 96 ++ Crypto.beBytes 64 (r * 2 ^ 256 + s)

/-- A header that verifies; its pack key is `key77`. -/
def goodHeader : List Byte :=
  headerOf (Crypto.compress key77) 0x8aae6aacc6b90b9754458e6abeef8fc0b9fe603ce59a624753de26796c22bdf3
    0xf59b65c151ed4954acc5a239d8538351fa2bc2ba4e874b2fa455892b2b2a49d4

/-- A header that verifies and whose pack key is no compressed point. -/
def keylessHeader : List Byte :=
  headerOf (List.replicate 33 9) 0x8aae6aacc6b90b9754458e6abeef8fc0b9fe603ce59a624753de26796c22bdf3
    0x7b7feefcba80948791b1d5efa6f5e741d369900fc04efd878dff4e25b61cb006

/-- The answer of the pack to an empty nonce from a gauge whose UID is all zero. -/
def goodAnswer : List Byte :=
  Crypto.beBytes 64 (0x581ba4c5259c8d22e3390033c616c3d3bd305b8a6367751b4b7d31e6157e0148 * 2 ^ 256 +
    0xf94d6ed1655f12a305d69d1357da3b218b4a400274cc4cc83573cbf0042d43dd)

/-- A gauge that trusts `key77` as an issuer. -/
def trusted (c : Chip) : Chip := { c with img.cfg := { c.img.cfg with trust := [{ key := key77, usage := 3 }] } }

/-- A record of the header of zeros whose writer's key is `key77`, with its signature (Table 12.5). -/
def goodRecord : List Byte :=
  slice (List.replicate 222 0 ++ Crypto.compress key77) 0 320 ++
    Crypto.beBytes 64 (0x739f146d90e5d133d97dedbc4ce7b0c04ba872428193c72f7605ec47048f6faf * 2 ^ 256 +
      0x25e7f132d47dcdd6b83b26ed5992d4b7e2189dbe044783816764f988876e3958)

/-- A record whose signature is the engine's job; C.CERT is `cert`. -/
def judged (r cert : List Byte) (k : Nat) : State := md .coupled fun c =>
  { tg (fun g => { g with job := some (.record k), stage := .slotVerify, slotData := r }) c with
    img.cfg := { c.img.cfg with cert := cert } }

/-- What the clauses of `SignaturesDecideTheVerdict` on header and response suppose can be met, but for the answer of the pack. -/
theorem witness_SignaturesDecideTheVerdict :
    (∃ (s : State), s.chip.spi = [] ∧ cryptRuns s.chip = true ∧ s.chip.tag.job = none ∧ s.chip.tag.tool = none) ∧
    (∃ (s : State), s.chip.spi = [] ∧
      let h := s.chip.tag.header
      cryptRuns s.chip = true ∧ s.chip.tag.job = some .header ∧
      anyVerifies (issuerKeys s.chip 0 (slice h 24 4)) (slice h 0 96) (slice h 96 64) = true ∧
      (Crypto.decompress (slice h 28 33)).isSome = true) ∧
    (∃ (s : State), s.chip.spi = [] ∧
      let h := s.chip.tag.header
      cryptRuns s.chip = true ∧ s.chip.tag.job = some .header ∧
      anyVerifies (issuerKeys s.chip 0 (slice h 24 4)) (slice h 0 96) (slice h 96 64) = true ∧
      (Crypto.decompress (slice h 28 33)).isNone = true ∧ s.chip.tag.verdict ≠ .silent) ∧
    (∃ (s : State), s.chip.spi = [] ∧
      let h := s.chip.tag.header
      cryptRuns s.chip = true ∧ s.chip.tag.job = some .header ∧
      anyVerifies (issuerKeys s.chip 0 (slice h 24 4)) (slice h 0 96) (slice h 96 64) = false ∧
      s.chip.tag.verdict ≠ .silent) ∧
    (∃ (s : State), s.chip.spi = [] ∧
      let h := s.chip.tag.header
      cryptRuns s.chip = true ∧ s.chip.tag.job = some .header ∧
      anyVerifies (issuerKeys s.chip 0 (slice h 24 4)) (slice h 0 96) (slice h 96 64) = false ∧
      s.chip.tag.verdict = .silent) ∧
    (∃ (s : State), s.chip.spi = [] ∧
      let g := s.chip.tag
      let h := g.header
      cryptRuns s.chip = true ∧ g.job = some .response ∧
      verifiesUnder (slice h 28 33) (responseLabel ++ g.nonce ++ Config.uid ++ slice h 8 16) (g.sig.getD []) = false) :=
  ⟨⟨md .coupled, by decide +kernel⟩,
   ⟨md .coupled fun c => trusted (tg (fun g => { g with header := goodHeader, job := some .header, stage := .response }) c),
     by decide +kernel⟩,
   ⟨md .coupled fun c => trusted (tg (fun g => { g with header := keylessHeader, job := some .header, stage := .response }) c),
     by decide +kernel⟩,
   ⟨md .coupled (tg fun g => { g with header := goodHeader, job := some .header, stage := .response }), by decide +kernel⟩,
   ⟨md .coupled (tg fun g => { g with header := goodHeader, job := some .header, stage := .response, verdict := .silent }),
     by decide +kernel⟩,
   ⟨md .coupled (tg fun g => { g with job := some .response, stage := .verify }), by decide +kernel⟩⟩

/-- What the clauses of `SignaturesDecideTheVerdict` on records suppose can be met. -/
theorem witness_RecordSignatures :
    (∃ (s : State) (k : Nat), s.chip.spi = [] ∧
      let d := s.chip.tag.slotData
      let wrote := verifiesUnder (slice d 222 33) (recordLabel ++ slice s.chip.tag.header 8 16 ++ slice d 0 320) (slice d 320 64)
      let mine : Prop := (cfg s.chip).cert ≠ [] ∧ slice d 200 120 = ownCert s.chip
      cryptRuns s.chip = true ∧ s.chip.tag.job = some (.record k) ∧ wrote = true ∧ mine) ∧
    (∃ (s : State) (k : Nat), s.chip.spi = [] ∧
      let d := s.chip.tag.slotData
      let wrote := verifiesUnder (slice d 222 33) (recordLabel ++ slice s.chip.tag.header 8 16 ++ slice d 0 320) (slice d 320 64)
      let mine : Prop := (cfg s.chip).cert ≠ [] ∧ slice d 200 120 = ownCert s.chip
      cryptRuns s.chip = true ∧ s.chip.tag.job = some (.record k) ∧ wrote = true ∧ ¬mine) ∧
    (∃ (s : State) (k : Nat), s.chip.spi = [] ∧
      let d := s.chip.tag.slotData
      let wrote := verifiesUnder (slice d 222 33) (recordLabel ++ slice s.chip.tag.header 8 16 ++ slice d 0 320) (slice d 320 64)
      cryptRuns s.chip = true ∧ s.chip.tag.job = some (.record k) ∧ wrote = false) ∧
    (∃ (s : State) (k : Nat), s.chip.spi = [] ∧ cryptRuns s.chip = true ∧ s.chip.tag.job = some (.writerCert k)) ∧
    (∃ (s : State), s.chip.spi = [] ∧ cryptRuns s.chip = false ∧ s.chip.tag.tool = none) :=
  ⟨⟨judged goodRecord (slice goodRecord 200 120) 1, 1, by decide +kernel⟩,
   ⟨judged goodRecord [] 1, 1, by decide +kernel⟩,
   ⟨judged (goodRecord.set 0 1) [] 3, 3, by decide +kernel⟩,
   ⟨md .coupled (tg fun g => { g with job := some (.writerCert 3), stage := .slotVerify }), 3, by decide +kernel⟩,
   ⟨md .coupled fun c => { c with clk.stopped := 4 }, by decide +kernel⟩⟩

/-- What the clauses of `SignaturesDecideTheVerdict` on the answer of the pack suppose can be met: the signature is over the UID of
the gauge, which the model leaves free (log entry 3), so the witness is that of one UID. -/
theorem witness_AnswerVerifies (uid0 : Config.uid = List.replicate 16 0) (known : Bool) :
    ∃ (s : State), s.chip.spi = [] ∧ cryptRuns s.chip = true ∧ s.chip.tag.job = some VerifyJob.response ∧
      (verifiesUnder (slice s.chip.tag.header 28 33) (responseLabel ++ s.chip.tag.nonce ++ Config.uid ++ slice s.chip.tag.header 8
        16) (s.chip.tag.sig.getD [])) = true ∧
      profileMatches s.chip = known := by
  refine ⟨md .coupled fun c => { tg (fun g => { g with
    header := goodHeader.take 64 ++ (if known then Crypto.sha256 [3, 0, 0, 0] else []), job := some .response, stage := .verify
    sig := some goodAnswer }) c with img.cfg := { c.img.cfg with profile := some { points := [], restScale := 3 } } }, ?_⟩
  rw [uid0]
  cases known <;> decide +kernel

/-- A tag write at step 3. -/
def tw : TagWrite := { step := 3, causes := [7], slot := 1, payload := [1,2,3], sig := none, start := 0, waitAt := none }

/-- What the clauses of `RecordsAreWrittenAndPinFaultsSilence` suppose can be met. -/
theorem witness_RecordsAreWrittenAndPinFaultsSilence :
    (∃ (s : State), s.chip.spi = [] ∧ writeReady s.chip = false) ∧
    (∃ (s : State), s.chip.spi = [] ∧ (
      let g := s.chip.tag
      (g.write = none ∨ (∃ w, g.write = some w ∧ (w.step = 0 ∨ w.sig ≠ none)) ∨ cryptRuns s.chip = false))) ∧
    (∃ (s : State) (t : Time), s.chip.spi = [] ∧ (
      let g := s.chip.tag
      let now := max s.chip.now t
      (g.write = none ∨ ∃ w, g.write = some w ∧ ∀ (t0 : Time), w.waitAt = some t0 → now < t0 + ms 2))) ∧
    (∃ (s : State) (l : PinLevel) (ns : Nat), s.chip.spi = [] ∧ (
      let bad (l : PinLevel) (ns : Nat) : Bool := match l with
      | .volts mv => (decide (4000 < mv) || decide (mv < -600)) && decide (ms 1 ≤ ns)
      | .low released => decide (ms 2 ≤ released) && decide (ms 2 ≤ ns)
      (tagActive s.chip = false ∨ bad l ns = false))) ∧
    (∃ (s : State) (t : Time), s.chip.spi = [] ∧ (
      let g := s.chip.tag
      let now := max s.chip.now t
      (∀ (t0 : Time), g.pinOff = some t0 → now < t0 + sec 1))) ∧
    (∃ (s : State) (l : PinLevel) (ns : Nat), s.chip.spi = [] ∧ (
      let bad (l : PinLevel) (ns : Nat) : Bool := match l with
      | .volts mv => (decide (4000 < mv) || decide (mv < -600)) && decide (ms 1 ≤ ns)
      | .low released => decide (ms 2 ≤ released) && decide (ms 2 ≤ ns)
      tagActive s.chip = true ∧ bad l ns = true ∧ s.chip.prs.verdict = none)) ∧
    (∃ (s : State), s.chip.spi = [] ∧ (
      let g := s.chip.tag
      writeReady s.chip = true ∧ g.slotsRead = true)) ∧
    (∃ (s : State), s.chip.spi = [] ∧ (
      let g := s.chip.tag
      writeReady s.chip = true ∧ g.slotsRead = false)) ∧
    (∃ (s : State), s.chip.spi = [] ∧ (
      let g := s.chip.tag
      (g.write.any fun w => decide (w.step ≠ 0 ∧ w.sig = none ∧ cryptRuns s.chip = true)) = true)) ∧
    (∃ (s : State) (t : Time), s.chip.spi = [] ∧ (
      let g := s.chip.tag
      let now := max s.chip.now t
      (g.write.any fun w => (w.waitAt.any fun t0 => decide (t0 + ms 2 ≤ now))) = true)) ∧
    (∃ (s : State) (res : TagResult), s.chip.spi = [] ∧ (
      let g := s.chip.tag
      ((g.write.any fun w => (g.txn.any fun cmd => decide (g.ts1Probe = false) && (match tagAnswer cmd res with
      | Except.ok _ => decide (w.step = 0)
      | _ => false)))) = true)) ∧
    (∃ (s : State) (res : TagResult), s.chip.spi = [] ∧ (
      let g := s.chip.tag
      ((g.write.any fun w => (g.txn.any fun cmd => decide (g.ts1Probe = false) && (match tagAnswer cmd res with
      | Except.ok bs => decide (w.step = 1 ∧ bs = packUid s.chip)
      | _ => false)))) = true)) ∧
    (∃ (s : State) (res : TagResult), s.chip.spi = [] ∧ (
      let g := s.chip.tag
      ((g.write.any fun w => (g.txn.any fun cmd => decide (g.ts1Probe = false) && (match tagAnswer cmd res with
      | Except.ok bs => decide (w.step = 1 ∧ bs ≠ packUid s.chip)
      | _ => false)))) = true)) ∧
    (∃ (s : State) (res : TagResult), s.chip.spi = [] ∧ (
      let g := s.chip.tag
      ((g.write.any fun w => (g.txn.any fun cmd => decide (g.ts1Probe = false) && (match tagAnswer cmd res with
      | Except.ok bs => decide (w.step = 2 ∧ w.stale = false ∧ u8At bs 0 = 0 ∧ w.sig = none)
      | _ => false)))) = true)) ∧
    (∃ (s : State) (res : TagResult), s.chip.spi = [] ∧ (
      let g := s.chip.tag
      ((g.write.any fun w => (g.txn.any fun cmd => decide (g.ts1Probe = false) && (match tagAnswer cmd res with
      | Except.ok bs => decide (2 ≤ w.step ∧ w.step ≤ 4 ∧ (w.stale = false ∨ w.step = 4) ∧ u8At bs 0 ≠ 0 ∧ false = false ∧ 1 ≤
        g.writeFails)
      | _ => false)))) = true)) ∧
    (∃ (s : State) (res : TagResult), s.chip.spi = [] ∧ (
      let g := s.chip.tag
      ((g.write.any fun w => (g.txn.any fun cmd => decide (g.ts1Probe = false) && (match tagAnswer cmd res with
      | Except.ok bs => decide (w.step = 2 ∧ w.stale = false ∧ u8At bs 0 = 0) && w.sig.isSome
      | _ => false)))) = true)) ∧
    (∃ (s : State) (res : TagResult), s.chip.spi = [] ∧ (
      let g := s.chip.tag
      ((g.write.any fun w => (g.txn.any fun cmd => decide (g.ts1Probe = false) && (match tagAnswer cmd res with
      | Except.ok bs => decide (w.step = 3 ∧ w.stale = false ∧ u8At bs 0 = 0)
      | _ => false)))) = true)) ∧
    (∃ (s : State) (res : TagResult), s.chip.spi = [] ∧ (
      let g := s.chip.tag
      ((g.write.any fun w => (g.txn.any fun cmd => decide (g.ts1Probe = false) && (match tagAnswer cmd res with
      | Except.ok bs => decide (w.step = 4 ∧ u8At bs 0 = 0)
      | _ => false)))) = true)) ∧
    (∃ (s : State) (res : TagResult), s.chip.spi = [] ∧ (
      let g := s.chip.tag
      ((g.write.any fun w => (g.txn.any fun cmd => decide (g.ts1Probe = false) && (match tagAnswer cmd res with
      | Except.ok bs => decide (5 ≤ w.step ∧ (bs == Crypto.sha256 (w.payload ++ w.sig.getD [])) = true)
      | _ => false)))) = true)) ∧
    (∃ (s : State) (res : TagResult), s.chip.spi = [] ∧ (
      let g := s.chip.tag
      ((g.write.any fun w => (g.txn.any fun cmd => decide (g.ts1Probe = false) && (match tagAnswer cmd res with
      | Except.ok bs => decide (5 ≤ w.step ∧ (bs == Crypto.sha256 (w.payload ++ w.sig.getD [])) = false ∧ 1 ≤ g.writeFails)
      | _ => false)))) = true)) ∧
    (∃ (s : State) (l : PinLevel) (ns : Nat), s.chip.spi = [] ∧ (
      let bad (l : PinLevel) (ns : Nat) : Bool := match l with
      | .volts mv => (decide (4000 < mv) || decide (mv < -600)) && decide (ms 1 ≤ ns)
      | .low released => decide (ms 2 ≤ released) && decide (ms 2 ≤ ns)
      tagActive s.chip = true ∧ bad l ns = true ∧ (s.chip.prs.verdict.any fun v => decide (v.ts2Left = 0 ∧ v.ts2.getLast? ≠
      some Status.valid ∧ s.chip.prs.tagSaid = none)) = true)) ∧
    (∃ (s : State) (res : TagResult), s.chip.spi = [] ∧ (
      let g := s.chip.tag
      ((g.write.any fun w => (g.txn.any fun cmd => decide (g.ts1Probe = false) && (match tagAnswer cmd res with
      | Except.ok _ => decide (w.step = 2 ∧ w.stale = true)
      | _ => false)))) = true)) ∧
    (∃ (s : State) (res : TagResult), s.chip.spi = [] ∧ (
      let g := s.chip.tag
      ((g.write.any fun w => (g.txn.any fun cmd => decide (g.ts1Probe = false) && (match tagAnswer cmd res with
      | Except.ok _ => decide (w.step = 3 ∧ w.stale = true)
      | _ => false)))) = true)) ∧
    (∃ (s : State) (t : Time), s.chip.spi = [] ∧ (
      let g := s.chip.tag
      let now := max s.chip.now t
      (g.pinOff.any fun t0 => decide (t0 + sec 1 ≤ now)) = true)) :=
  ⟨⟨md .unpowered, by decide +kernel⟩,
   ⟨md .unpowered, by decide +kernel⟩,
   ⟨md .unpowered, 2, by decide +kernel⟩,
   ⟨md .unpowered, .volts 4001, 2, by decide +kernel⟩,
   ⟨md .unpowered, 2, by decide +kernel⟩,
   ⟨md .coupled, .volts 4001, ms 1, by decide +kernel⟩,
   ⟨md .coupled (fun c => { tg (fun g => { g with due := 6, verdict := .authenticated, slotsRead := true }) c with gauge.formed := true, img.cfg := { c.img.cfg with cert := [1,2] } }), by decide +kernel⟩,
   ⟨md .coupled (fun c => { tg (fun g => { g with due := 6, verdict := .authenticated }) c with gauge.formed := true, img.cfg := { c.img.cfg with cert := [1,2] } }), by decide +kernel⟩,
   ⟨md .coupled (tg fun g => { g with write := some tw }), by decide +kernel⟩,
   ⟨md .coupled (tg fun g => { g with write := some { tw with step := 4, waitAt := some 2 } }), ms 2 + 2, by decide +kernel⟩,
   ⟨md .coupled (tg fun g => { g with txn := some .slotStatus, write := some { tw with step := 0 } }), an .slotStatus (List.replicate 20 2), by decide +kernel⟩,
   ⟨md .coupled (tg fun g => { g with txn := some (.read 8 16), write := some { tw with step := 1 }, header := List.replicate 160 0 }), an rdc (List.replicate 16 0), by decide +kernel⟩,
   ⟨md .coupled (tg fun g => { g with txn := some (.read 8 16), write := some { tw with step := 1 }, header := List.replicate 160 0 }), an rdc (List.replicate 16 9), by decide +kernel⟩,
   ⟨md .coupled (tg fun g => { g with txn := some (.writeSlot 1 0 [1]), write := some { tw with step := 2 }, writeFails := 1 }), an (.writeSlot 0 0 []) [0], by decide +kernel⟩,
   ⟨md .coupled (tg fun g => { g with txn := some (.writeSlot 1 0 [1]), write := some { tw with step := 2 }, writeFails := 1 }), an (.writeSlot 0 0 []) [1], by decide +kernel⟩,
   ⟨md .coupled (tg fun g => { g with txn := some (.writeSlot 1 0 [1]), write := some { tw with step := 2, sig := some [1] } }), an (.writeSlot 0 0 []) [0], by decide +kernel⟩,
   ⟨md .coupled (tg fun g => { g with txn := some (.writeSlot 1 320 [1]), write := some { tw with step := 3, sig := some [1] } }), an (.writeSlot 0 0 []) [0], by decide +kernel⟩,
   ⟨md .coupled (tg fun g => { g with txn := some (.commitSlot 1), write := some { tw with step := 4, sig := some [1] } }), an (.commitSlot 0) [0], by decide +kernel⟩,
   ⟨md .coupled (tg fun g => { g with txn := some (.slotDigest 1), write := some { tw with step := 5, sig := some [] } }), an (.slotDigest 0) (Crypto.sha256 ([1,2,3])), by decide +kernel⟩,
   ⟨md .coupled (tg fun g => { g with writeFails := 1, txn := some (.slotDigest 1), write := some { tw with step := 5, sig := some [] } }), an (.slotDigest 0) (List.replicate 32 4), by decide +kernel⟩,
   ⟨{ (md .coupled) with chip.prs := { State.reset.chip.prs with present := true, verdict := some { ts2 := [.opn, .opn], ts2Left := 0 } } }, .volts 4001, ms 1, by decide +kernel⟩,
   ⟨md .coupled (tg fun g => { g with txn := some (.writeSlot 1 0 [1]), write := some { tw with step := 2, stale := true } }), an (.writeSlot 0 0 []) [0], by decide +kernel⟩,
   ⟨md .coupled (tg fun g => { g with txn := some (.writeSlot 1 0 [1]), write := some { tw with step := 3, stale := true, sig := some [1] } }), an (.writeSlot 0 0 []) [0], by decide +kernel⟩,
   ⟨md .coupled (tg fun g => { g with pinOff := some 2 }), sec 1 + 2, by decide +kernel⟩⟩

end Sys2Proof.Tests.Tags

namespace Sys2Proof.Tests.Slots

open Sys2Proof.Machine

/-- The contract of guest 7 on spur 0. -/
def gc : GuestCfg := { index := 7, spur := 0, side := false, beacon := true, cls := 0, period := 10, slotLen := 100, deadline := 40000, phase := 0, energy := 300, oasis := 1000, vmin := 8000, iMax := 100 }

/-- Guest 7. -/
def gu : Guest := { cfg := gc, pos := 0, reject := none, own := true }

/-- Guest 9, without beacons. -/
def gu2 : Guest := { cfg := { gc with index := 9, beacon := false }, pos := 1, reject := none, own := true }

/-- The room of guest 7. -/
def rm : Room := { pos := 0, rcd := { contract := guestBody gc, oasis := 1000 }, dirty := false, due := false }

/-- A slot from 40 to 140. -/
def sl0 : Slot := { pos := 0, start := 40, stop := 140, latest := 50, epoch := some 1 }

/-- An innkeeper with two guests and spur 0 as `x`. -/
def inn0 (x : SpurInn) (f : Inn → Inn := id) (c : Chip) : Chip := { c with
  seq.spursOn := true, tmp.dS := 256
  meas.vBus := { c.meas.vBus with precHeld := 15000 }
  inn := f { c.inn with on := true, time := 40, guests := [gu, gu2], rooms := [rm], spurs := c.inn.spurs.set 0 x } }

/-- What the clauses of `SlotsAreDecidedByTable135` suppose can be met. -/
theorem witness_SlotsAreDecidedByTable135 :
    (∃ (s : State) (n : Fin 8), s.chip.spi = [] ∧ (provisionalSlot s.chip n = none ∨ s.chip.inn.on = false ∨ canFitted s.chip
      = false)) ∧
    (∃ (s : State) (n : Fin 8), s.chip.spi = [] ∧ runningSlot s.chip n = none ∧ startingSlot s.chip n = none) ∧
    (∃ (s : State) (t : Time) (n : Fin 8) (sl : Slot) (g : Guest), s.chip.spi = [] ∧ (
      let c := tick t s.chip
      s.chip.inn.on = true ∧ canFitted s.chip = true ∧ provisionalSlot s.chip n = some (sl, g) ∧ decide13 s.nvm c n g =
      Reason.granted)) ∧
    (∃ (s : State) (n : Fin 8) (sl : Slot) (g : Guest) (m : Fin 8), s.chip.spi = [] ∧ runningSlot s.chip n = none ∧
      startingSlot s.chip n = some sl ∧ guestAt s.chip sl.pos = some g ∧ m ∈ tieGroup s.chip n) ∧
    (∃ (s : State) (n : Fin 8) (sl : Slot) (g : Guest) (m : Fin 8), s.chip.spi = [] ∧ runningSlot s.chip n = none ∧
      startingSlot s.chip n = some sl ∧ guestAt s.chip sl.pos = some g ∧ m ≠ n ∧ ¬m ∈ tieGroup s.chip n) ∧
    (∃ (s : State) (t : Time) (n : Fin 8) (sl : Slot) (g : Guest), s.chip.spi = [] ∧ (
      let c := tick t s.chip
      runningSlot s.chip n = none ∧ startingSlot s.chip n = some sl ∧ guestAt s.chip sl.pos = some g ∧ (
      let decision : Reason := match sl.prov with
      | some .granted | none => decide13 s.nvm c n g
      | some r => r
      decision = Reason.granted))) ∧
    (∃ (s : State) (t : Time) (n : Fin 8) (sl : Slot) (g : Guest), s.chip.spi = [] ∧ (
      let c := tick t s.chip
      s.chip.inn.on = true ∧ canFitted s.chip = true ∧ provisionalSlot s.chip n = some (sl, g) ∧ decide13 s.nvm c n g ≠
      Reason.granted)) ∧
    (∃ (s : State) (t : Time) (n : Fin 8) (sl : Slot) (g : Guest), s.chip.spi = [] ∧ (
      let c := tick t s.chip
      runningSlot s.chip n = none ∧ startingSlot s.chip n = some sl ∧ guestAt s.chip sl.pos = some g ∧ (
      let decision : Reason := match sl.prov with
      | some .granted | none => decide13 s.nvm c n g
      | some r => r
      decision ≠ Reason.granted))) ∧
    (∃ (s : State) (n : Fin 8) (sl : Slot), s.chip.spi = [] ∧ runningSlot s.chip n = none ∧ startingSlot s.chip n = some sl ∧
      guestAt s.chip sl.pos = none) ∧
    (∃ (s : State) (n : Fin 8), s.chip.spi = [] ∧ runningSlot s.chip n ≠ none) :=
  ⟨⟨md .unpowered, 0, by decide +kernel⟩,
   ⟨md .unpowered, 0, by decide +kernel⟩,
   ⟨md .coupled (inn0 { plan := [sl0] }), 2, 0, sl0, gu, by decide +kernel⟩,
   ⟨md .coupled (inn0 { plan := [sl0] }), 0, sl0, gu, 0, by decide +kernel⟩,
   ⟨md .coupled (inn0 { plan := [sl0] }), 0, sl0, gu, 3, by decide +kernel⟩,
   ⟨md .coupled (inn0 { plan := [sl0] }), 2, 0, sl0, gu, by decide +kernel⟩,
   ⟨md .coupled (inn0 { plan := [sl0] } (fun i => { i with rooms := [] })), 2, 0, sl0, gu, by decide +kernel⟩,
   ⟨md .coupled (inn0 { plan := [sl0] } (fun i => { i with rooms := [] })), 2, 0, sl0, gu, by decide +kernel⟩,
   ⟨md .coupled (inn0 { plan := [{ sl0 with pos := 5 }] }), 0, { sl0 with pos := 5 }, by decide +kernel⟩,
   ⟨md .coupled (inn0 { plan := [{ sl0 with st := .running }] }), 0, by decide +kernel⟩⟩

/-- What the clauses of `SlotTicksAndEndsFollowThePlan` suppose can be met. -/
theorem witness_SlotTicksAndEndsFollowThePlan :
    (∃ (s : State), s.chip.spi = [] ∧ innRuns s.chip = false ∧ linkRuns s.chip = false) ∧
    (∃ (s : State) (n : Fin 8), s.chip.spi = [] ∧ (∀ (sl : Slot), runningSlot s.chip n = some sl → s.chip.inn.time < sl.stop)) ∧
    (∃ (s : State) (i : Nat), s.chip.spi = [] ∧ guestByIndex s.chip i = none) ∧
    (∃ (s : State) (n : Fin 8), s.chip.spi = [] ∧ (
      let near : Prop := ∃ sl ∈ (spurInn s.chip n).plan, sl.st = .planned ∧ sl.start ≤ s.chip.inn.time + 4 * (cfg
        s.chip).inn.provLead + 40 ∧ ∃ g, guestAt s.chip sl.pos = some g ∧ g.cfg.beacon = true
      let starts : Prop := s.chip.inn.on = true ∧ near ∧ canMay s.chip = true ∧ s.chip.can.on = false
      ¬starts)) ∧
    (∃ (s : State), s.chip.spi = [] ∧ innRuns s.chip = true ∧ s.chip.inn.on = false) ∧
    (∃ (s : State) (i : Nat), s.chip.spi = [] ∧ ((guestByIndex s.chip i).any fun g => (
      let n := leadSpur s.chip (guestSpur g.cfg)
      let late := (spurInn s.chip n).plan.find? fun x => x.pos == g.pos && x.st == .planned && decide (x.latest <
        s.chip.inn.time)
      decide (late = none))) = true) ∧
    (∃ (s : State) (i : Nat), s.chip.spi = [] ∧ ((guestByIndex s.chip i).any fun g => (
      let n := leadSpur s.chip (guestSpur g.cfg)
      let late := (spurInn s.chip n).plan.find? fun x => x.pos == g.pos && x.st == .planned && decide (x.latest <
        s.chip.inn.time)
      late.isSome)) = true) ∧
    (∃ (s : State) (n : Fin 8), s.chip.spi = [] ∧ (
      let near : Prop := ∃ sl ∈ (spurInn s.chip n).plan, sl.st = .planned ∧ sl.start ≤ s.chip.inn.time + 4 * (cfg
        s.chip).inn.provLead + 40 ∧ ∃ g, guestAt s.chip sl.pos = some g ∧ g.cfg.beacon = true
      let starts : Prop := s.chip.inn.on = true ∧ near ∧ canMay s.chip = true ∧ s.chip.can.on = false
      starts)) ∧
    (∃ (s : State) (n m : Fin 8), s.chip.spi = [] ∧ ((runningSlot s.chip n).any fun sl => decide (sl.stop ≤ s.chip.inn.time ∧
      m ∈ tieGroup s.chip n ∧ sl.refund = false)) = true) ∧
    (∃ (s : State) (n m : Fin 8), s.chip.spi = [] ∧ ((runningSlot s.chip n).any fun sl => decide (sl.stop ≤ s.chip.inn.time ∧
      m ≠ n ∧ ¬m ∈ tieGroup s.chip n)) = true) ∧
    (∃ (s : State) (t : Time) (n : Fin 8), s.chip.spi = [] ∧ ((runningSlot s.chip n).any fun sl => decide (sl.stop ≤
      s.chip.inn.time) && (
      let d := endSlot n sl (tick t s.chip)
      decide (startingSlot d n = none))) = true) ∧
    (∃ (s : State) (t : Time) (n : Fin 8) (nx : Slot) (g : Guest), s.chip.spi = [] ∧ (((runningSlot s.chip n).any fun sl =>
      decide (sl.stop ≤ s.chip.inn.time) && (
      let d := endSlot n sl (tick t s.chip)
      decide (startingSlot d n = some nx ∧ guestAt s.chip nx.pos = some g ∧ (nx.prov = none ∨ nx.prov = some
      Reason.granted))))) = true) ∧
    (∃ (s : State), s.chip.spi = [] ∧ innRuns s.chip = true ∧ linkRuns s.chip = true) ∧
    (∃ (s : State), s.chip.spi = [] ∧ innRuns s.chip = false ∧ linkRuns s.chip = true) :=
  ⟨⟨md .unpowered, by decide +kernel⟩,
   ⟨md .unpowered, 0, by decide +kernel⟩,
   ⟨md .unpowered, 2, by decide +kernel⟩,
   ⟨md .unpowered, 0, by decide +kernel⟩,
   ⟨md .parked, by decide +kernel⟩,
   ⟨md .coupled (inn0 {}), 7, by decide +kernel⟩,
   ⟨md .coupled (inn0 { plan := [sl0] } (fun i => { i with time := 51 })), 7, by decide +kernel⟩,
   ⟨md .coupled (fun c => inn0 { plan := [{ sl0 with start := 50 }] } (fun i => i) { c with clk.xtalOk := true }), 0, by decide +kernel⟩,
   ⟨md .coupled (inn0 { plan := [{ sl0 with st := .running }] } (fun i => { i with time := 140 })), 0, 0, by decide +kernel⟩,
   ⟨md .coupled (inn0 { plan := [{ sl0 with st := .running }] } (fun i => { i with time := 140 })), 0, 3, by decide +kernel⟩,
   ⟨md .coupled (inn0 { plan := [{ sl0 with st := .running }] } (fun i => { i with time := 140 })), 2, 0, by decide +kernel⟩,
   ⟨md .coupled (inn0 { plan := [{ sl0 with st := .running }, { sl0 with start := 140, stop := 240, latest := 150 }] } (fun i => { i with time := 140 })), 2, 0, { sl0 with start := 140, stop := 240, latest := 150 }, gu, by decide +kernel⟩,
   ⟨md .parked (fun c => inn0 {} id { c with seq.strap := .dgnd }), by decide +kernel⟩,
   ⟨md .configure (fun c => inn0 {} id { c with seq.strap := .dgnd, seq.step := 7 }), by decide +kernel⟩⟩

/-- What the clauses of `SlotsAreChargedAndRoomsFilled` suppose can be met. -/
theorem witness_SlotsAreChargedByTheirContract :
    (∃ (sl : Slot), sl.refund = false ∧ sl.revoked = none) ∧
    (∃ (sl : Slot), sl.refund = true) ∧
    (∃ (g : GuestCfg) (sl : Slot) (e : Nat), sl.refund = false ∧ sl.revoked = some e ∧ 0 < g.slotLen ∧ e ≤ g.slotLen) ∧
    (∃ (s : State) (t : Time) (n : Fin 8), s.chip.spi = [] ∧ (
      let reads : Prop := running s.chip = true ∧ auxNow (tick t s.chip) = some (n.val, 0) ∧ firstEdge s.chip n = some .stop
      ¬reads)) ∧
    (∃ (s : State) (t : Time) (n : Fin 8) (sl : Slot) (rest : List Slot) (g : Guest), s.chip.spi = [] ∧ (
      let reads : Prop := running s.chip = true ∧ auxNow (tick t s.chip) = some (n.val, 0) ∧ firstEdge s.chip n = some .stop
      reads ∧ (spurInn s.chip n).ended = sl :: rest ∧ guestAt s.chip sl.pos = some g)) ∧
    (∃ (s : State) (t : Time) (n : Fin 8), s.chip.spi = [] ∧ (
      let reads : Prop := running s.chip = true ∧ auxNow (tick t s.chip) = some (n.val, 0) ∧ firstEdge s.chip n = some .stop
      reads ∧ (spurInn s.chip n).ended = [])) :=
  ⟨⟨sl0, by decide +kernel⟩,
   ⟨{ sl0 with refund := true }, by decide +kernel⟩,
   ⟨{ gc with slotLen := 7 }, { sl0 with revoked := some 7 }, 7, by decide +kernel⟩,
   ⟨md .unpowered, 0, 0, by decide +kernel⟩,
   ⟨md .coupled (fun c => inn0 { ended := [sl0] } id { c with aux.cur := some 0, aux.skip := 0, aux.edges := [{ spur := 0, kind := .stop }] }), 0, 0, sl0, [], gu, by decide +kernel⟩,
   ⟨md .coupled (fun c => inn0 {} id { c with aux.cur := some 0, aux.skip := 0, aux.edges := [{ spur := 0, kind := .stop }] }), 0, 0, by decide +kernel⟩⟩

/-- What the clauses of `SlotsAreChargedAndRoomsFilled` suppose can be met. -/
theorem witness_FillsLedgerAndHoldsEnd :
    (∃ (s : State), s.chip.spi = [] ∧ s.chip.inn.fills = []) ∧
    (∃ (s : State) (t : Time), s.chip.spi = [] ∧ (
      let now := max s.chip.now t
      let due : Prop := s.chip.inn.on = true ∧ s.chip.inn.ledgerAt + minutes 15 ≤ now
      ¬due)) ∧
    (∃ (s : State) (n : Fin 8), s.chip.spi = [] ∧ (spurInn s.chip n).hold = none) ∧
    (∃ (s : State) (t : Time), s.chip.spi = [] ∧ (
      let now := max s.chip.now t
      let bad := (List.finRange 8).any fun n => decide ((((spurInn s.chip n).ends + 1 : Nat) : Rat) < ledgerGap s.chip n)
      let due : Prop := s.chip.inn.on = true ∧ s.chip.inn.ledgerAt + minutes 15 ≤ now
      due ∧ bad = false)) ∧
    (∃ (s : State) (p : Nat) (at_ : Time) (rest : List (Nat × Time)), s.chip.spi = [] ∧ (
      let free := s.chip.inn.rooms.filter fun r => !pinned s.chip r.pos && !((guestAt s.chip r.pos).elim false (·.resident))
      s.chip.inn.fills = (p, at_) :: rest ∧ ((guestAt s.chip p).any fun _ => decide ((s.chip.inn.rooms.length < 64 ∨ free ≠
      []))) = true)) ∧
    (∃ (s : State) (p : Nat) (at_ : Time) (rest : List (Nat × Time)), s.chip.spi = [] ∧ (
      let free := s.chip.inn.rooms.filter fun r => !pinned s.chip r.pos && !((guestAt s.chip r.pos).elim false (·.resident))
      s.chip.inn.fills = (p, at_) :: rest ∧ ((guestAt s.chip p).any fun _ => decide (64 ≤ s.chip.inn.rooms.length ∧ free =
      [])) = true)) ∧
    (∃ (s : State) (p : Nat) (at_ : Time) (rest : List (Nat × Time)), s.chip.spi = [] ∧ s.chip.inn.fills = (p, at_) :: rest ∧
      guestAt s.chip p = none) ∧
    (∃ (s : State) (t : Time), s.chip.spi = [] ∧ (
      let now := max s.chip.now t
      let bad := (List.finRange 8).any fun n => decide ((((spurInn s.chip n).ends + 1 : Nat) : Rat) < ledgerGap s.chip n)
      let due : Prop := s.chip.inn.on = true ∧ s.chip.inn.ledgerAt + minutes 15 ≤ now
      due ∧ bad = true)) ∧
    (∃ (s : State) (n m : Fin 8), s.chip.spi = [] ∧ ((spurInn s.chip n).hold.any fun h => decide (4000 * h ≤ s.chip.inn.time ∧
      m ∈ tieGroup s.chip n ∧ (spur s.chip m).st = SpurSt.cut)) = true) ∧
    (∃ (s : State) (n m : Fin 8), s.chip.spi = [] ∧ ((spurInn s.chip n).hold.any fun h => decide (4000 * h ≤ s.chip.inn.time ∧
      ¬m ∈ tieGroup s.chip n)) = true) ∧
    (∃ (s : State) (n : Fin 8), s.chip.spi = [] ∧ ((spurInn s.chip n).hold.any fun h => decide (s.chip.inn.time < 4000 * h)) =
      true) :=
  ⟨⟨md .unpowered, by decide +kernel⟩,
   ⟨md .unpowered, 0, by decide +kernel⟩,
   ⟨md .unpowered, 0, by decide +kernel⟩,
   ⟨md .coupled (inn0 {}), minutes 15, by decide +kernel⟩,
   ⟨md .coupled (inn0 {} (fun i => { i with fills := [(1, 2)] })), 1, 2, [], by decide +kernel⟩,
   ⟨md .coupled (inn0 { plan := [sl0] } (fun i => { i with fills := [(1, 2)], rooms := List.replicate 64 rm })), 1, 2, [], by decide +kernel⟩,
   ⟨md .coupled (inn0 {} (fun i => { i with fills := [(2, 2), (1, 5)] })), 2, 2, [(1, 5)], by decide +kernel⟩,
   ⟨md .coupled (inn0 { metered := 100 } ), minutes 15, by decide +kernel⟩,
   ⟨md .coupled (fun c => setSpur (inn0 { hold := some 0 } id c) 0 { spur c 0 with st := .cut, retries := 3 }), 0, 0, by decide +kernel⟩,
   ⟨md .coupled (fun c => setSpur (inn0 { hold := some 0 } id c) 0 { spur c 0 with st := .cut, retries := 3 }), 0, 3, by decide +kernel⟩,
   ⟨md .coupled (fun c => setSpur (inn0 { hold := some 1 } id c) 0 { spur c 0 with st := .cut, retries := 3 }), 0, by decide +kernel⟩⟩

end Sys2Proof.Tests.Slots

namespace Sys2Proof.Tests.Links

open Sys2Proof.Machine

/-- The SMBus slave changed by `f`. -/
def sm (f : Smb → Smb) (c : Chip) : Chip := { c with host.answers := true, smb := f c.smb }

/-- The CAN domain awake at address 4, changed by `f`. -/
def cn (f : Can → Can) (c : Chip) : Chip := { c with img.cfg.device.ruellAddr := 4, host.answers := true, clk.xtalOk := true, can := f { c.can with on := true, stb := false } }

/-- A response that is ready at `t`. -/
def rs (t : Nat) : Resp := { ready := t, bytes := [1,2,3], prio := 0 }

/-- A SEND of `n` data bytes that carries the PEC of R668. -/
def good (n : Nat) (d : List Byte) : SmbSend := let c := (md .coupled (sm id)).chip; { count := n, data := d, pec := some (pec (u8B (2 * smbAddr c) ++ u8B 0xC0 ++ u8B n ++ d)) }

/-- What the clauses of `SmbusAnswersAndRecovers` suppose can be met. -/
theorem witness_SmbusAnswersAndRecovers :
    (∃ (s : State) (t : Time), s.chip.spi = [] ∧ (
      let m := s.chip.smb
      let now := max s.chip.now t
      let released : Prop := running s.chip = true ∧ s.chip.host.answers = true ∧ m.stretch ≠ none ∧ ∃ r, m.resp = some r ∧
        r.ready ≤ now
      ¬released)) ∧
    (∃ (s : State) (ns : Time), s.chip.spi = [] ∧ ns < ms 25) ∧
    (∃ (s : State) (ns : Nat), s.chip.spi = [] ∧ (
      let stuck (ns : Nat) : Prop := running s.chip = true ∧ fitted s.chip 6 = true ∧ sec 1 ≤ ns
      ¬stuck ns)) ∧
    (∃ (s : State), s.chip.spi = [] ∧ s.chip.alert.causes = 0) ∧
    (∃ (s : State), s.chip.spi = [] ∧ smbAnswers s.chip = false) ∧
    (∃ (s : State), s.chip.spi = [] ∧ (
      let m := s.chip.smb
      smbAnswers s.chip = true ∧ m.resp = none)) ∧
    (∃ (s : State) (x : SmbSend), s.chip.spi = [] ∧ smbAnswers s.chip = true ∧ (
      let right := pec (u8B (2 * smbAddr s.chip) ++ u8B 0xC0 ++ u8B x.count ++ x.data)
      x.pec = some right ∧ x.count = 0)) ∧
    (∃ (s : State) (x : SmbSend), s.chip.spi = [] ∧ smbAnswers s.chip = true ∧ (
      let right := pec (u8B (2 * smbAddr s.chip) ++ u8B 0xC0 ++ u8B x.count ++ x.data)
      x.pec = some right ∧ x.count ≠ 0)) ∧
    (∃ (s : State) (x : SmbSend), s.chip.spi = [] ∧ smbAnswers s.chip = true ∧ (
      let right := pec (u8B (2 * smbAddr s.chip) ++ u8B 0xC0 ++ u8B x.count ++ x.data)
      x.pec ≠ some right)) ∧
    (∃ (s : State) (ns : Time), s.chip.spi = [] ∧ smbAnswers s.chip = true ∧ ms 35 ≤ ns) ∧
    (∃ (s : State) (ns : Time), s.chip.spi = [] ∧ smbAnswers s.chip = true ∧ ms 25 ≤ ns ∧ ns < ms 35) ∧
    (∃ (s : State) (ns : Nat), s.chip.spi = [] ∧ (
      let stuck (ns : Nat) : Prop := running s.chip = true ∧ fitted s.chip 6 = true ∧ sec 1 ≤ ns
      stuck ns)) ∧
    (∃ (s : State) (t : Time) (r : Resp), s.chip.spi = [] ∧ (
      let m := s.chip.smb
      let now := max s.chip.now t
      smbAnswers s.chip = true ∧ m.resp = some r ∧ now < r.ready)) ∧
    (∃ (s : State) (t : Time) (r : Resp), s.chip.spi = [] ∧ (
      let m := s.chip.smb
      let now := max s.chip.now t
      smbAnswers s.chip = true ∧ m.resp = some r ∧ r.ready ≤ now)) ∧
    (∃ (s : State) (t : Time) (r : Resp), s.chip.spi = [] ∧ (
      let m := s.chip.smb
      let now := max s.chip.now t
      let released : Prop := running s.chip = true ∧ s.chip.host.answers = true ∧ m.stretch ≠ none ∧ ∃ r, m.resp = some r ∧
        r.ready ≤ now
      released ∧ m.resp = some r)) ∧
    (∃ (s : State) (i : Nat), s.chip.spi = [] ∧ smbAnswers s.chip = true ∧ s.chip.alert.causes ≠ 0 ∧ i < 5) :=
  ⟨⟨md .unpowered, 0, by decide +kernel⟩,
   ⟨md .unpowered, 0, by decide +kernel⟩,
   ⟨md .unpowered, 0, by decide +kernel⟩,
   ⟨md .unpowered, by decide +kernel⟩,
   ⟨md .unpowered, by decide +kernel⟩,
   ⟨md .coupled, by decide +kernel⟩,
   ⟨md .coupled, good 0 [], by decide +kernel⟩,
   ⟨md .coupled, good 1 [7], by decide +kernel⟩,
   ⟨md .coupled, { good 0 [] with pec := none }, by decide +kernel⟩,
   ⟨md .coupled, ms 35, by decide +kernel⟩,
   ⟨md .coupled, ms 25, by decide +kernel⟩,
   ⟨md .coupled, sec 1, by decide +kernel⟩,
   ⟨md .coupled (sm fun m => { m with resp := some (rs 5) }), 0, rs 5, by decide +kernel⟩,
   ⟨md .coupled (sm fun m => { m with resp := some (rs 5) }), 5, rs 5, by decide +kernel⟩,
   ⟨md .coupled (sm fun m => { m with resp := some (rs 5), stretch := some 1, stuck := true }), 5, rs 5, by decide +kernel⟩,
   ⟨md .coupled (fun c => { sm id c with alert.causes := 0b10111#5, alert.at_ := [1, 5, 2, 0, 9] }), 0, by decide +kernel⟩⟩

/-- A frame of kind 0x01. -/
def fr : RuellFrame := { prio := 0, kind := 1, device := 9, seq := 0, data := [20, 16, 0, 1, 0, 1, 2, 3], fd := false }

/-- The gauge's own address. -/
def own0 : Nat := 4

/-- The first frame of a request for address 4. -/
def fr1 : RuellFrame := { fr with data := [20#8] ++ u16B own0 ++ [1, 0, 1, 2, 3] }

/-- A request of which three bytes have come. -/
def rm1 : Reasm := { addr := 9, total := 20, got := [1,2,3], next := 1, lastAt := 3 }

/-- What the clauses of `RequestFramesAndCanFaults` suppose can be met. -/
theorem witness_RequestFramesAreReassembled :
    (∃ (s : State) (f : RuellFrame), s.chip.spi = [] ∧ (
      let own := ownAddr s.chip
      let mine : Prop := canTakes s.chip = true ∧ f.kind = 1 ∧ f.device ≠ own
      ¬mine)) ∧
    (∃ (s : State) (t : Time) (f : RuellFrame), s.chip.spi = [] ∧ (
      let m := s.chip.can
      let now := max s.chip.now t
      let above : Prop := running s.chip = true ∧ ∃ r ∈ m.reasm, r.addr = f.device ∧ r.lastAt + ms 50 < now
      ¬above)) ∧
    (∃ (s : State), s.chip.spi = [] ∧ canTakes s.chip = false) ∧
    (∃ (s : State) (f : RuellFrame), s.chip.spi = [] ∧ (
      let own := ownAddr s.chip
      (canTakes s.chip = false ∨ f.device ≠ own))) ∧
    (∃ (s : State) (f : RuellFrame), s.chip.spi = [] ∧ (
      let own := ownAddr s.chip
      let total := u8At f.data 0
      let mine : Prop := canTakes s.chip = true ∧ f.kind = 1 ∧ f.device ≠ own
      mine ∧ f.seq = 0 ∧ total = 0)) ∧
    (∃ (s : State) (f : RuellFrame), s.chip.spi = [] ∧ (
      let own := ownAddr s.chip
      let total := u8At f.data 0
      let body := f.data.drop 1
      let mine : Prop := canTakes s.chip = true ∧ f.kind = 1 ∧ f.device ≠ own
      mine ∧ f.seq = 0 ∧ total ≠ 0 ∧ u16At body 0 = own ∧ total ≤ body.length)) ∧
    (∃ (s : State) (f : RuellFrame), s.chip.spi = [] ∧ (
      let m := s.chip.can
      let own := ownAddr s.chip
      let mine : Prop := canTakes s.chip = true ∧ f.kind = 1 ∧ f.device ≠ own
      let held : Bool := m.reasm.any (·.addr == f.device)
      mine ∧ f.seq ≠ 0 ∧ held = false)) ∧
    (∃ (s : State) (f : RuellFrame), s.chip.spi = [] ∧ (
      let own := ownAddr s.chip
      let total := u8At f.data 0
      let body := f.data.drop 1
      let mine : Prop := canTakes s.chip = true ∧ f.kind = 1 ∧ f.device ≠ own
      mine ∧ f.seq = 0 ∧ total ≠ 0 ∧ u16At body 0 ≠ own)) ∧
    (∃ (s : State) (f : RuellFrame), s.chip.spi = [] ∧ (
      let m := s.chip.can
      let own := ownAddr s.chip
      let total := u8At f.data 0
      let body := f.data.drop 1
      let mine : Prop := canTakes s.chip = true ∧ f.kind = 1 ∧ f.device ≠ own
      let others := m.reasm.filter (·.addr != f.device)
      mine ∧ f.seq = 0 ∧ total ≠ 0 ∧ u16At body 0 = own ∧ body.length < total ∧ others.length < 4)) ∧
    (∃ (s : State) (f : RuellFrame), s.chip.spi = [] ∧ (
      let own := ownAddr s.chip
      canTakes s.chip = true ∧ f.device = own)) ∧
    (∃ (s : State) (t : Time) (f : RuellFrame) (r : Reasm), s.chip.spi = [] ∧ (
      let m := s.chip.can
      let now := max s.chip.now t
      let own := ownAddr s.chip
      let mine : Prop := canTakes s.chip = true ∧ f.kind = 1 ∧ f.device ≠ own
      mine ∧ f.seq ≠ 0 ∧ (List.find? (fun x => x.addr == f.device) m.reasm = some r) ∧ f.seq = r.next ∧ now ≤ r.lastAt + ms 50
      ∧ r.total ≤ (r.got ++ f.data).length)) ∧
    (∃ (s : State) (t : Time) (f : RuellFrame) (r : Reasm), s.chip.spi = [] ∧ (
      let m := s.chip.can
      let now := max s.chip.now t
      let own := ownAddr s.chip
      let mine : Prop := canTakes s.chip = true ∧ f.kind = 1 ∧ f.device ≠ own
      mine ∧ f.seq ≠ 0 ∧ (List.find? (fun x => x.addr == f.device) m.reasm = some r) ∧ f.seq = r.next ∧ now ≤ r.lastAt + ms 50
      ∧ (r.got ++ f.data).length < r.total)) ∧
    (∃ (s : State) (t : Time) (f : RuellFrame) (r : Reasm), s.chip.spi = [] ∧ (
      let m := s.chip.can
      let now := max s.chip.now t
      let own := ownAddr s.chip
      let mine : Prop := canTakes s.chip = true ∧ f.kind = 1 ∧ f.device ≠ own
      mine ∧ f.seq ≠ 0 ∧ (List.find? (fun x => x.addr == f.device) m.reasm = some r) ∧ (f.seq ≠ r.next ∨ r.lastAt + ms 50 <
      now))) ∧
    (∃ (s : State) (t : Time) (f : RuellFrame), s.chip.spi = [] ∧ (
      let m := s.chip.can
      let now := max s.chip.now t
      let above : Prop := running s.chip = true ∧ ∃ r ∈ m.reasm, r.addr = f.device ∧ r.lastAt + ms 50 < now
      above)) :=
  ⟨⟨md .unpowered (cn id), { fr with data := [0, 1] }, by decide +kernel⟩,
   ⟨md .unpowered (cn id), 0, { fr with data := [0, 1] }, by decide +kernel⟩,
   ⟨md .unpowered (cn id), by decide +kernel⟩,
   ⟨md .unpowered (cn id), { fr with data := [0, 1] }, by decide +kernel⟩,
   ⟨md .coupled (cn id), { fr with data := [0, 1] }, by decide +kernel⟩,
   ⟨md .coupled (cn id), { fr1 with data := [4#8] ++ u16B own0 ++ [1, 0] }, by decide +kernel⟩,
   ⟨md .coupled (cn id), { fr1 with seq := 1, data := List.replicate 18 1 }, by decide +kernel⟩,
   ⟨md .coupled (cn id), fr, by decide +kernel⟩,
   ⟨md .coupled (cn fun m => { m with reasm := [{ rm1 with addr := 8 }, { rm1 with addr := 7 }, rm1, { rm1 with addr := 5 }] }), fr1, by decide +kernel⟩,
   ⟨md .coupled (cn id), { fr1 with device := own0 }, by decide +kernel⟩,
   ⟨md .coupled (cn fun m => { m with reasm := [rm1] }), ms 50 + 3, { fr1 with seq := 1, data := List.replicate 18 1 }, rm1, by decide +kernel⟩,
   ⟨md .coupled (cn fun m => { m with reasm := [rm1] }), ms 50 + 3, { fr1 with seq := 1 }, rm1, by decide +kernel⟩,
   ⟨md .coupled (cn fun m => { m with reasm := [rm1] }), 0, { fr1 with seq := 2 }, rm1, by decide +kernel⟩,
   ⟨md .coupled (cn fun m => { m with reasm := [rm1] }), ms 50 + 4, { fr with data := [0, 1] }, by decide +kernel⟩⟩

/-- What the clauses of `RequestFramesAndCanFaults` suppose can be met. -/
theorem witness_CanFaultsAreContained :
    (∃ (s : State), s.chip.spi = [] ∧ (
      let m := s.chip.can
      let fails : Prop := running s.chip = true ∧ m.on = true ∧ m.off = false
      ¬fails)) ∧
    (∃ (s : State) (t : Time), s.chip.spi = [] ∧ (
      let m := s.chip.can
      let now := max s.chip.now t
      (m.off = false ∨ now < m.recoverAt))) ∧
    (∃ (s : State) (ns : Nat), s.chip.spi = [] ∧ (
      let m := s.chip.can
      let sticks (ns : Nat) : Prop := running s.chip = true ∧ m.on = true ∧ m.stb = false ∧ ms 10 ≤ ns
      ¬sticks ns)) ∧
    (∃ (s : State) (t : Time), s.chip.spi = [] ∧ (
      let m := s.chip.can
      let now := max s.chip.now t
      (∀ (t0 : Time), m.rxStuck = some t0 → now < t0 + sec 10))) ∧
    (∃ (s : State), s.chip.spi = [] ∧ (
      let m := s.chip.can
      m.queue = [])) ∧
    (∃ (s : State), s.chip.spi = [] ∧ (
      let m := s.chip.can
      let fails : Prop := running s.chip = true ∧ m.on = true ∧ m.off = false
      fails)) ∧
    (∃ (s : State) (ns : Nat), s.chip.spi = [] ∧ (
      let m := s.chip.can
      let sticks (ns : Nat) : Prop := running s.chip = true ∧ m.on = true ∧ m.stb = false ∧ ms 10 ≤ ns
      sticks ns)) ∧
    (∃ (s : State) (t : Time), s.chip.spi = [] ∧ (
      let m := s.chip.can
      let now := max s.chip.now t
      m.off = true ∧ m.recoverAt ≤ now)) ∧
    (∃ (s : State) (t : Time), s.chip.spi = [] ∧ (
      let m := s.chip.can
      let now := max s.chip.now t
      (m.rxStuck.any fun t0 => decide (t0 + sec 10 ≤ now ∧ (s.chip.seq.mode = Mode.parked ∨ canFitted s.chip = false ∨
      s.chip.clk.xtalOk = false))) = true)) ∧
    (∃ (s : State) (t : Time), s.chip.spi = [] ∧ (
      let m := s.chip.can
      let now := max s.chip.now t
      (m.rxStuck.any fun t0 => decide (t0 + sec 10 ≤ now ∧ s.chip.seq.mode ≠ Mode.parked ∧ canFitted s.chip = true ∧
      s.chip.clk.xtalOk = true)) = true)) ∧
    (∃ (s : State) (t : Time) (f : RuellFrame) (t0 : Time) (fs : List (RuellFrame × Time)), s.chip.spi = [] ∧ (
      let m := s.chip.can
      let now := max s.chip.now t
      m.queue = (f, t0) :: fs ∧ now < t0 + ms 10)) ∧
    (∃ (s : State) (t : Time) (f : RuellFrame) (t0 : Time) (fs : List (RuellFrame × Time)), s.chip.spi = [] ∧ (
      let m := s.chip.can
      let now := max s.chip.now t
      m.queue = (f, t0) :: fs ∧ t0 + ms 10 ≤ now)) :=
  ⟨⟨md .unpowered, by decide +kernel⟩,
   ⟨md .unpowered, 0, by decide +kernel⟩,
   ⟨md .unpowered, 0, by decide +kernel⟩,
   ⟨md .unpowered, 0, by decide +kernel⟩,
   ⟨md .unpowered, by decide +kernel⟩,
   ⟨md .coupled (cn id), by decide +kernel⟩,
   ⟨md .coupled (cn id), ms 10, by decide +kernel⟩,
   ⟨md .coupled (cn fun m => { m with offTimes := [0, 1], off := true, recoverAt := 2 }), 2, by decide +kernel⟩,
   ⟨md .parked (cn fun m => { m with on := false, rxStuck := some 2 }), sec 10 + 2, by decide +kernel⟩,
   ⟨md .coupled (cn fun m => { m with on := false, rxStuck := some 2 }), sec 10 + 2, by decide +kernel⟩,
   ⟨md .coupled (cn fun m => { m with queue := [(fr, 2)] }), 0, fr, 2, [], by decide +kernel⟩,
   ⟨md .coupled (cn fun m => { m with queue := [(fr, 2)] }), ms 10 + 2, fr, 2, [], by decide +kernel⟩⟩

/-- What the clauses of `CanDomainWakesAndStops` suppose can be met. -/
theorem witness_CanDomainWakesAndStops :
    (∃ (s : State) (ns : Nat), s.chip.spi = [] ∧ (
      let pulled (ns : Nat) : Prop := running s.chip = true ∧ ms 1 ≤ ns
      ¬pulled ns)) ∧
    (∃ (s : State) (ns : Nat), s.chip.spi = [] ∧ (
      let m := s.chip.can
      let stuck (ns : Nat) : Prop := running s.chip = true ∧ m.wakeStuck = none ∧ sec 10 ≤ ns
      ¬stuck ns)) ∧
    (∃ (s : State) (ns : Nat), s.chip.spi = [] ∧ (
      let m := s.chip.can
      let pattern (ns : Nat) : Prop := running s.chip = true ∧ m.stb = true ∧ us 5 ≤ ns
      ¬pattern ns)) ∧
    (∃ (s : State) (t : Time), s.chip.spi = [] ∧ (
      let m := s.chip.can
      let now := max s.chip.now t
      let stops : Prop := s.chip.seq.mode = .parked ∧ m.on = true ∧ canSession s.chip = false ∧ s.chip.alert.pulse = none ∧
        m.wakeStuck = none ∧ m.wakeLow = false ∧ beaconNear s.chip = false ∧ m.frameAt + sec 5 ≤ now ∧ m.awakeUntil ≤ now
      ¬stops)) ∧
    (∃ (s : State) (t : Time), s.chip.spi = [] ∧ (
      let m := s.chip.can
      let now := max s.chip.now t
      (∀ (t0 : Time), m.wakeAt = some t0 → now < t0 + us 200))) ∧
    (∃ (s : State) (t : Time), s.chip.spi = [] ∧ (
      let now := max s.chip.now t
      (∀ (t0 : Time), s.chip.alert.pulse = some t0 → now < t0 + ms 10))) ∧
    (∃ (s : State) (t : Time) (ns : Nat), s.chip.spi = [] ∧ (
      let m := s.chip.can
      let now := max s.chip.now t
      let early (ns : Nat) : Prop := ∃ t0, m.wakeHighAt = some t0 ∧ now - ns < t0 + sec 1
      let pulled (ns : Nat) : Prop := running s.chip = true ∧ ms 1 ≤ ns
      pulled ns ∧ m.wakeStuck = none ∧ ¬early ns)) ∧
    (∃ (s : State) (ns : Nat), s.chip.spi = [] ∧ (
      let m := s.chip.can
      let stuck (ns : Nat) : Prop := running s.chip = true ∧ m.wakeStuck = none ∧ sec 10 ≤ ns
      stuck ns)) ∧
    (∃ (s : State) (ns : Nat), s.chip.spi = [] ∧ (
      let m := s.chip.can
      let pattern (ns : Nat) : Prop := running s.chip = true ∧ m.stb = true ∧ us 5 ≤ ns
      pattern ns)) ∧
    (∃ (s : State) (t : Time), s.chip.spi = [] ∧ (
      let m := s.chip.can
      let now := max s.chip.now t
      let stops : Prop := s.chip.seq.mode = .parked ∧ m.on = true ∧ canSession s.chip = false ∧ s.chip.alert.pulse = none ∧
        m.wakeStuck = none ∧ m.wakeLow = false ∧ beaconNear s.chip = false ∧ m.frameAt + sec 5 ≤ now ∧ m.awakeUntil ≤ now
      stops)) ∧
    (∃ (s : State) (t : Time) (ns : Nat), s.chip.spi = [] ∧ (
      let m := s.chip.can
      let now := max s.chip.now t
      let early (ns : Nat) : Prop := ∃ t0, m.wakeHighAt = some t0 ∧ now - ns < t0 + sec 1
      let pulled (ns : Nat) : Prop := running s.chip = true ∧ ms 1 ≤ ns
      pulled ns ∧ (m.wakeStuck ≠ none ∨ early ns))) ∧
    (∃ (s : State) (t : Time), s.chip.spi = [] ∧ (
      let now := max s.chip.now t
      (s.chip.alert.pulse.any fun t0 => decide (t0 + ms 10 ≤ now)) = true)) ∧
    (∃ (s : State) (t : Time), s.chip.spi = [] ∧ (
      let m := s.chip.can
      let now := max s.chip.now t
      (m.wakeAt.any fun t0 => decide (t0 + us 200 ≤ now)) = true)) :=
  ⟨⟨md .unpowered, 0, by decide +kernel⟩,
   ⟨md .unpowered, 0, by decide +kernel⟩,
   ⟨md .unpowered, 0, by decide +kernel⟩,
   ⟨md .unpowered, 0, by decide +kernel⟩,
   ⟨md .unpowered, 0, by decide +kernel⟩,
   ⟨md .unpowered, 0, by decide +kernel⟩,
   ⟨md .coupled, 0, ms 1, by decide +kernel⟩,
   ⟨md .coupled, sec 10, by decide +kernel⟩,
   ⟨md .coupled, us 5, by decide +kernel⟩,
   ⟨md .parked (cn id), sec 5, by decide +kernel⟩,
   ⟨md .parked (cn fun m => { m with wakeStuck := some 2 }), 0, ms 1, by decide +kernel⟩,
   ⟨md .parked (fun c => { cn id c with alert.pulse := some 2 }), ms 10 + 2, by decide +kernel⟩,
   ⟨md .parked (cn fun m => { m with wakeAt := some 2 }), us 200 + 2, by decide +kernel⟩⟩

end Sys2Proof.Tests.Links

namespace Sys2Proof.Tests.Requests

open Sys2Proof.Machine

/-- A session key. -/
def K1 : List Byte := List.replicate 16 1

/-- A session that was last used at 3 ns. -/
def sess (r : Role) (i : Nat := 0) (half : Bool := false) (link : LinkId := .smbus) : Option Sess :=
  some { role := r, index := i, half := half, link := link, addr := 0, counter := 5, lastAt := 3, fails := 0, ks := K1, limp := false }

/-- An owner, a depot, guest 7 and a half-open owner. -/
def sessions : List (Option Sess) := [sess .owner, sess .depot, sess .guest 7, sess .owner 0 true, none, none, none, none]

/-- A region map with two copies of 4 KiB. -/
def m0 : RegionMap := { sizeCode := 0, copyA := 4096, copyB := 8192, copyLen := 4096, journal := 0, journalLen := 4096, cellar := 0, cellarLen := 0, bytes44 := [] }

/-- A header of 64 bytes for an image of 256. -/
def hdrI : List Byte := slice (magic ++ [1, 0] ++ u16B 64 ++ u32B 256 ++ u32B 5 ++ u16B 0x1024 ++ [0x41, 0] ++ u32B 0 ++ u32B 64) 0 64

/-- The contract of guest 7 on spur 0. -/
def g7 : GuestCfg := { index := 7, spur := 0, side := false, beacon := true, cls := 0, period := 10, slotLen := 100, deadline := 40000, phase := 0, energy := 300, oasis := 1000, vmin := 8000, iMax := 100 }

/-- A gauge with sessions, keys, a region map and guest 7. -/
def serv (f : Chip → Chip := id) (c : Chip) : Chip := f { c with
  host.answers := true, host.sess := sessions, spi := []
  img.map := some m0, img.cfg := { c.img.cfg with keys := [{ role := .depot, index := 0, key := K1 }, { role := .owner, index := 0, key := K1 }] }
  inn := { c.inn with guests := [{ cfg := g7, pos := 0, reject := none, own := true }], rooms := [{ pos := 0, rcd := freshRec g7, dirty := false, due := false }] } }

/-- A request of session `sid` over SMBus; `mac` is its MAC under `K1`, most significant byte first, or a wrong one. -/
def rq (sid op ctr : Nat) (p : List Byte) (mac : Nat := 0) : Delivery :=
  .smbus ([0, 0, BitVec.ofNat 8 op, BitVec.ofNat 8 sid] ++ u32B ctr ++ p ++ if sid = 0 then [] else Crypto.beBytes 8 mac)

/-- Feed A is ON. -/
def feedOn (c : Chip) : Chip := { c with feedA := { c.feedA with st := .on } }

/-- What the clauses of `ReadsAnswerAndChangeNothing` suppose can be met. -/
theorem witness_ReadsAnswerAndChangeNothing :
    (∃ (s : State) (t : Time) (d : Delivery), (((accepted d (tick t s.chip)).any fun (r, w, _, _) => (
      let p := r.params
      let staff : Bool := w.isRole [.owner, .depot]
      decide (r.op = 1 ∧ (List.find? (fun x => x.fst) [(p.length == 4 && !staff && readsClosed (u16At p 0) (u8At p 2), 6),
      (p.length != 4, 4), (u8At p 2 == 0 || decide (48 < u8At p 2) || u8At p 3 != 0 || decide (4096 < u16At p 0 + u8At p 2),
      5)] = none))))) = true) ∧
    (∃ (s : State) (t : Time) (d : Delivery), (((accepted d (tick t s.chip)).any fun (r, w, _, _) => (
      let p := r.params
      let staff : Bool := w.isRole [.owner, .depot]
      decide (r.op = 1) && (List.find? (fun x => x.fst) [(p.length == 4 && !staff && readsClosed (u16At p 0) (u8At p 2), 6),
      (p.length != 4, 4), (u8At p 2 == 0 || decide (48 < u8At p 2) || u8At p 3 != 0 || decide (4096 < u16At p 0 + u8At p 2),
      5)]).isSome))) = true) ∧
    (∃ (s : State) (t : Time) (d : Delivery), (((accepted d (tick t s.chip)).any fun (r, w, _, c) => (
      let p := r.params
      let staff : Bool := w.isRole [.owner, .depot]
      let ownIndex : Bool := match w with
      | .sess _ x => x.role == .guest && x.index == u16At p 0
      | .pub => false
      decide (r.op = 2) && (List.find? (fun x => x.fst) [(!staff && !ownIndex, 6), (!innMode c, 7), (p.length != 2, 4),
      ((guestRecord s.nvm c (u16At p 0)).isNone, 5)]).isSome))) = true) ∧
    (∃ (s : State) (t : Time) (d : Delivery), (((accepted d (tick t s.chip)).any fun (r, w, _, _) => (
      let p := r.params
      let staff : Bool := w.isRole [.owner, .depot]
      decide (r.op = 3) && (List.find? (fun x => x.fst) [(!staff, 6), (p.length != 5, 4), (u8At p 4 == 0 || decide (3 < u8At p
      4), 5)]).isSome))) = true) ∧
    (∃ (s : State) (t : Time) (d : Delivery), (((accepted d (tick t s.chip)).any fun (r, w, _, c) => (
      let p := r.params
      decide (r.op = 4) && (List.find? (fun x => x.fst) [(w == Who.pub, 6), (p != [], 4), ((ownPend c w).isNone,
      18)]).isSome))) = true) ∧
    (∃ (s : State) (t : Time) (d : Delivery), (((accepted d (tick t s.chip)).any fun (r, w, _, c) => (
      let p := r.params
      let staff : Bool := w.isRole [.owner, .depot]
      let ownIndex : Bool := match w with
      | .sess _ x => x.role == .guest && x.index == u16At p 0
      | .pub => false
      decide (r.op = 2 ∧ (List.find? (fun x => x.fst) [(!staff && !ownIndex, 6), (!innMode c, 7), (p.length != 2, 4),
      ((guestRecord s.nvm c (u16At p 0)).isNone, 5)] = none)) && (guestRecord s.nvm c (u16At p 0)).isSome))) = true) ∧
    (∃ (s : State) (t : Time) (d : Delivery), (((accepted d (tick t s.chip)).any fun (r, w, _, _) => (
      let p := r.params
      let staff : Bool := w.isRole [.owner, .depot]
      decide (r.op = 3 ∧ (List.find? (fun x => x.fst) [(!staff, 6), (p.length != 5, 4), (u8At p 4 == 0 || decide (3 < u8At p
      4), 5)] = none))))) = true) ∧
    (∃ (s : State) (t : Time) (d : Delivery), (((accepted d (tick t s.chip)).any fun (r, w, _, c) => (
      let p := r.params
      decide (r.op = 4 ∧ (List.find? (fun x => x.fst) [(w == Who.pub, 6), (p != [], 4), ((ownPend c w).isNone, 18)] = none))
      && ((ownPend c w).any fun q => decide (q.outcome = none))))) = true) ∧
    (∃ (s : State) (t : Time) (d : Delivery), (((accepted d (tick t s.chip)).any fun (r, w, _, c) => (
      let p := r.params
      decide (r.op = 4 ∧ (List.find? (fun x => x.fst) [(w == Who.pub, 6), (p != [], 4), ((ownPend c w).isNone, 18)] = none))
      && ((ownPend c w).any fun q => q.outcome.isSome)))) = true) :=
  ⟨⟨md .coupled (serv feedOn), 2, rq 0 1 6 (u16B 0 ++ [4, 0]), by decide +kernel⟩,
   ⟨md .coupled (serv feedOn), 2, rq 0 1 6 (u16B 0x600 ++ [4, 0]), by decide +kernel⟩,
   ⟨md .coupled (serv feedOn), 2, rq 0 2 6 (u16B 7), by decide +kernel⟩,
   ⟨md .coupled (serv feedOn), 2, rq 0 3 6 (u32B 0 ++ [1]), by decide +kernel⟩,
   ⟨md .coupled (serv feedOn), 2, rq 0 4 6 [], by decide +kernel⟩,
   ⟨md .coupled (serv feedOn), 2, rq 1 2 6 (u16B 7) 0x697a04d95c3871d1, by decide +kernel⟩,
   ⟨md .coupled (serv feedOn), 2, rq 1 3 6 (u32B 0 ++ [1]) 0x14e4823508034dbf, by decide +kernel⟩,
   ⟨md .depot (serv fun c => { c with host.pend := some { op := 0x23, handle := 1, at_ := 0, orphan := false, done := none, outcome := none } }), 2, rq 1 4 6 [] 0xf1b2a45d249749a, by decide +kernel⟩,
   ⟨md .depot (serv fun c => { c with host.pend := some { op := 0x23, handle := 1, at_ := 0, orphan := false, done := some (0, [1]), outcome := some (0, [1]) } }), 2, rq 1 4 6 [] 0xf1b2a45d249749a, by decide +kernel⟩⟩

/-- What the clauses of `SettingCommandsTakeEffect` suppose can be met. -/
theorem witness_SettingCommandsTakeEffect :
    (∃ (s : State) (t : Time) (d : Delivery), (((accepted d (tick t s.chip)).any fun (r, w, _, c) => (
      let p := r.params
      let staff : Bool := w.isRole [.owner, .depot]
      decide (r.op = 16) && (List.find? (fun x => x.fst) [(!staff, 6), (!innMode c, 7), (p.length != 8, 4), (u8At p 7 != 0,
      5), (!actsAsSource c, 16)]).isSome))) = true) ∧
    (∃ (s : State) (t : Time) (d : Delivery), (((accepted d (tick t s.chip)).any fun (r, w, _, c) => (
      let p := r.params
      let staff : Bool := w.isRole [.owner, .depot]
      decide (r.op = 17) && (List.find? (fun x => x.fst) [(!staff, 6), (!(innMode c || c.seq.mode == Mode.limp), 7), (p != [],
      4)]).isSome))) = true) ∧
    (∃ (s : State) (t : Time) (d : Delivery), (((accepted d (tick t s.chip)).any fun (r, w, _, _) => (
      let p := r.params
      let staff : Bool := w.isRole [.owner, .depot]
      decide (r.op = 18) && (List.find? (fun x => x.fst) [(!staff, 6), (!(decide (4 ≤ p.length) && p.length == 4 + 4 * u8At p
      2), 4), (decide (u16At p 0 < 1792) || u8At p 2 == 0 || decide (32 < u8At p 2) || decide (1920 < u16At p 0 + u8At p 2) ||
      u8At p 3 != 0, 5)]).isSome))) = true) ∧
    (∃ (s : State) (t : Time) (d : Delivery), (((accepted d (tick t s.chip)).any fun (r, w, _, c) => (
      let p := r.params
      let staff : Bool := w.isRole [.owner, .depot]
      let ownIndex : Bool := match w with
      | .sess _ x => x.role == .guest && x.index == u16At p 0
      | .pub => false
      let theirs : Bool := otherSide c (u16At p 0)
      let unknown : Bool := (ownGuest c (u16At p 0)).isNone && !theirs
      decide (r.op = 19) && (List.find? (fun x => x.fst) [(!staff && !(ownIndex && u8At p 2 == 0), 6), (!innMode c, 7),
      (p.length != 4, 4), (decide (1 < u8At p 2) || u8At p 3 != 0 || unknown, 5), (theirs, 16)]).isSome))) = true) ∧
    (∃ (s : State) (t : Time) (d : Delivery), (((accepted d (tick t s.chip)).any fun (r, w, _, c) => (
      let p := r.params
      let staff : Bool := w.isRole [.owner, .depot]
      let theirs : Bool := otherSide c (u16At p 0)
      let unknown : Bool := (ownGuest c (u16At p 0)).isNone && !theirs
      decide (r.op = 20) && (List.find? (fun x => x.fst) [(!staff, 6), (!innMode c, 7), (p.length != 2, 4), (unknown, 5),
      (theirs, 16)]).isSome))) = true) ∧
    (∃ (s : State) (t : Time) (d : Delivery), (((accepted d (tick t s.chip)).any fun (r, w, _, c) => (
      let p := r.params
      let depot : Bool := w.isRole [.depot]
      decide (r.op = 32) && (List.find? (fun x => x.fst) [(!depot, 6), (c.seq.mode != Mode.coupled, 7), (p != [],
      4)]).isSome))) = true) ∧
    (∃ (s : State) (t : Time) (d : Delivery), (((accepted d (tick t s.chip)).any fun (r, w, _, c) => (
      let p := r.params
      let depot : Bool := w.isRole [.depot]
      decide (r.op = 33) && (List.find? (fun x => x.fst) [(!depot, 6), (!(c.seq.mode == Mode.depot && anyFeed c), 7), (p !=
      [], 4)]).isSome))) = true) ∧
    (∃ (s : State) (t : Time) (d : Delivery), (((accepted d (tick t s.chip)).any fun (r, w, _, _) => (
      let p := r.params
      let depot : Bool := w.isRole [.depot]
      decide (r.op = 34) && (List.find? (fun x => x.fst) [(!depot, 6), (p != [], 4)]).isSome))) = true) ∧
    (∃ (s : State) (t : Time) (d : Delivery), (((accepted d (tick t s.chip)).any fun (r, w, _, c) => (
      let p := r.params
      let staff : Bool := w.isRole [.owner, .depot]
      decide (r.op = 17 ∧ (List.find? (fun x => x.fst) [(!staff, 6), (!(innMode c || c.seq.mode == Mode.limp), 7), (p != [],
      4)] = none))))) = true) ∧
    (∃ (s : State) (t : Time) (d : Delivery), (((accepted d (tick t s.chip)).any fun (r, w, _, c) => (
      let p := r.params
      let staff : Bool := w.isRole [.owner, .depot]
      decide (r.op = 18 ∧ (List.find? (fun x => x.fst) [(!staff, 6), (!(decide (4 ≤ p.length) && p.length == 4 + 4 * u8At p
      2), 4), (decide (u16At p 0 < 1792) || u8At p 2 == 0 || decide (32 < u8At p 2) || decide (1920 < u16At p 0 + u8At p 2) ||
      u8At p 3 != 0, 5)] = none) ∧ seqSpent c = false)))) = true) ∧
    (∃ (s : State) (t : Time) (d : Delivery), (((accepted d (tick t s.chip)).any fun (r, w, _, c) => (
      let p := r.params
      let staff : Bool := w.isRole [.owner, .depot]
      let ownIndex : Bool := match w with
      | .sess _ x => x.role == .guest && x.index == u16At p 0
      | .pub => false
      let theirs : Bool := otherSide c (u16At p 0)
      let unknown : Bool := (ownGuest c (u16At p 0)).isNone && !theirs
      decide (r.op = 19 ∧ (List.find? (fun x => x.fst) [(!staff && !(ownIndex && u8At p 2 == 0), 6), (!innMode c, 7),
      (p.length != 4, 4), (decide (1 < u8At p 2) || u8At p 3 != 0 || unknown, 5), (theirs, 16)] = none)) && (ownGuest c (u16At
      p 0)).isSome))) = true) ∧
    (∃ (s : State) (t : Time) (d : Delivery), (((accepted d (tick t s.chip)).any fun (r, w, _, c) => (
      let p := r.params
      let staff : Bool := w.isRole [.owner, .depot]
      let theirs : Bool := otherSide c (u16At p 0)
      let unknown : Bool := (ownGuest c (u16At p 0)).isNone && !theirs
      decide (r.op = 20 ∧ (List.find? (fun x => x.fst) [(!staff, 6), (!innMode c, 7), (p.length != 2, 4), (unknown, 5),
      (theirs, 16)] = none)) && (ownGuest c (u16At p 0)).isSome))) = true) ∧
    (∃ (s : State) (t : Time) (d : Delivery), (((accepted d (tick t s.chip)).any fun (r, w, _, c) => (
      let p := r.params
      let depot : Bool := w.isRole [.depot]
      decide (r.op = 32 ∧ (List.find? (fun x => x.fst) [(!depot, 6), (c.seq.mode != Mode.coupled, 7), (p != [], 4)] =
      none))))) = true) ∧
    (∃ (s : State) (t : Time) (d : Delivery), (((accepted d (tick t s.chip)).any fun (r, w, _, _) => (
      let p := r.params
      let depot : Bool := w.isRole [.depot]
      decide (r.op = 34 ∧ (List.find? (fun x => x.fst) [(!depot, 6), (p != [], 4)] = none))))) = true) ∧
    (∃ (s : State) (t : Time) (d : Delivery), (((accepted d (tick t s.chip)).any fun (r, w, _, c) => (
      let p := r.params
      let depot : Bool := w.isRole [.depot]
      decide (r.op = 33 ∧ (List.find? (fun x => x.fst) [(!depot, 6), (!(c.seq.mode == Mode.depot && anyFeed c), 7), (p != [],
      4)] = none))))) = true) ∧
    (∃ (s : State) (t : Time) (d : Delivery), (((accepted d (tick t s.chip)).any fun (r, w, _, c) => (
      let p := r.params
      let staff : Bool := w.isRole [.owner, .depot]
      decide (r.op = 16 ∧ (List.find? (fun x => x.fst) [(!staff, 6), (!innMode c, 7), (p.length != 8, 4), (u8At p 7 != 0, 5),
      (!actsAsSource c, 16)] = none))))) = true) :=
  ⟨⟨md .coupled (serv feedOn), 2, rq 0 0x10 6 (leBytes 7 99 ++ [0]), by decide +kernel⟩,
   ⟨md .coupled (serv feedOn), 2, rq 0 0x11 6 [], by decide +kernel⟩,
   ⟨md .coupled (serv feedOn), 2, rq 0 0x12 6 (u16B 0x700 ++ [1, 0] ++ u32B 0xFFFFFFFF), by decide +kernel⟩,
   ⟨md .coupled (serv feedOn), 2, rq 0 0x13 6 (u16B 7 ++ [0, 0]), by decide +kernel⟩,
   ⟨md .coupled (serv feedOn), 2, rq 0 0x14 6 (u16B 7), by decide +kernel⟩,
   ⟨md .coupled (serv feedOn), 2, rq 0 0x20 6 [], by decide +kernel⟩,
   ⟨md .coupled (serv feedOn), 2, rq 0 0x21 6 [], by decide +kernel⟩,
   ⟨md .coupled (serv feedOn), 2, rq 0 0x22 6 [], by decide +kernel⟩,
   ⟨md .coupled (serv feedOn), 2, rq 1 0x11 6 [] 0xfab98e6eade74292, by decide +kernel⟩,
   ⟨md .coupled (serv feedOn), 2, rq 1 0x12 6 (u16B 0x700 ++ [1, 0] ++ u32B 0xFFFFFFFF) 0x8c37907773361cac, by decide +kernel⟩,
   ⟨md .coupled (serv feedOn), 2, rq 1 0x13 6 (u16B 7 ++ [0, 0]) 0xc45e670b108ac129, by decide +kernel⟩,
   ⟨md .coupled (serv feedOn), 2, rq 1 0x14 6 (u16B 7) 0xf4d88420b7359d76, by decide +kernel⟩,
   ⟨md .coupled (serv feedOn), 2, rq 2 0x20 6 [] 0x8ceb0bdc3346e327, by decide +kernel⟩,
   ⟨md .coupled (serv feedOn), 2, rq 2 0x22 6 [] 0x5cae27fae2ab2bdf, by decide +kernel⟩,
   ⟨md .depot (serv feedOn), 2, rq 2 0x21 6 [] 0x6ff1f38c6713342b, by decide +kernel⟩,
   ⟨md .parked (serv fun c => { c with pair.timeSource := true }), 2, rq 1 0x10 6 (leBytes 7 99 ++ [0]) 0xafed7a0a1153836, by decide +kernel⟩⟩

/-- The public key of the private scalar 77, X then Y, least significant byte first. -/
def key77 : List Byte :=
  Crypto.beBytes 64 (0x7bbe93083471d817c02980b321e0eff420c7d572eb189d1a2577a2db02b02158 * 2 ^ 256 +
    0x63239fe54095be1bc3d1de25f1049c866658ff3ff6629bdf3485537ad612ec23)

/-- An image copy without sections (Table 3.1), signed under `key77`. -/
def goodImage : List Byte :=
  slice ([0x53, 0x4B, 0x50, 0x49, 1, 0] ++ u16B 64 ++ u32B 192 ++ u32B 1 ++ u16B 0x1024 ++ [0x41, 0]) 0 64 ++ key77 ++
    Crypto.beBytes 64 (0x7021f7c06619a87d3facaee6780d921d2dbb390810e65a3a5c8d161f53190a49 * 2 ^ 256 +
      0x62bc50aeab621a2421ab190e226d26962ef280dbdaf17a704f0f88ea8794b876)

/-- A CMD_CAL_POINT under way. -/
def q0 : Pend := { op := 0x23, handle := 1, at_ := 0, orphan := false, done := none, outcome := none }

/-- What the clauses of `DepotServiceRunsInDepot` suppose can be met. -/
theorem witness_DepotServiceRunsInDepot :
    (∃ (s : State) (t : Time) (d : Delivery), (((accepted d (tick t s.chip)).any fun (r, w, _, c) => (
      let p := r.params
      let failed (checks : List (Bool × Nat)) : Option (Bool × Nat) := ((!w.isRole [.depot], 0x06) :: (c.seq.mode != .depot,
        0x07) :: checks).find? (·.1)
      decide (r.op = 35) && (failed [(p.length != 4, 4), (decide (5 < u8At p 0) || decide (1 < u8At p 1) || u8At p 0 == 5 &&
      decide (23 < u8At p 2) || u8At p 3 != 0, 5)]).isSome))) = true) ∧
    (∃ (s : State) (t : Time) (d : Delivery), (((accepted d (tick t s.chip)).any fun (r, w, _, c) => (
      let p := r.params
      let failed (checks : List (Bool × Nat)) : Option (Bool × Nat) := ((!w.isRole [.depot], 0x06) :: (c.seq.mode != .depot,
        0x07) :: checks).find? (·.1)
      decide (r.op = 36) && (failed [(p.length != 4, 4), (u16At p 2 == 0 || decide (192 < u16At p 2) || decide (2048 < u16At p
      0 + u16At p 2), 5)]).isSome))) = true) ∧
    (∃ (s : State) (t : Time) (d : Delivery), (((accepted d (tick t s.chip)).any fun (r, w, _, c) => (
      let p := r.params
      let failed (checks : List (Bool × Nat)) : Option (Bool × Nat) := ((!w.isRole [.depot], 0x06) :: (c.seq.mode != .depot,
        0x07) :: checks).find? (·.1)
      decide (r.op = 37) && (failed [(p != [], 4)]).isSome))) = true) ∧
    (∃ (s : State) (t : Time) (d : Delivery), (((accepted d (tick t s.chip)).any fun (r, w, _, c) => (
      let p := r.params
      let failed (checks : List (Bool × Nat)) : Option (Bool × Nat) := ((!w.isRole [.depot], 0x06) :: (c.seq.mode != .depot,
        0x07) :: checks).find? (·.1)
      decide (r.op = 40) && (failed [(p.length != 64, 4), (headerRefused c p, 5), (decide (u32At p 12 ≤ c.img.cfg.sequence),
      12)]).isSome))) = true) ∧
    (∃ (s : State) (t : Time) (d : Delivery), (((accepted d (tick t s.chip)).any fun (r, w, _, c) => (
      let p := r.params
      let failed (checks : List (Bool × Nat)) : Option (Bool × Nat) := ((!w.isRole [.depot], 0x06) :: (c.seq.mode != .depot,
        0x07) :: checks).find? (·.1)
      let off := u32At p 0
      decide (r.op = 41) && (failed [(!(decide (5 ≤ p.length) && decide (p.length ≤ 228)), 4), (c.img.reprov.elim false fun x
      => headerDiffers x off (List.drop 4 p), 5), (c.img.reprov.elim true fun x => off != x.nextOff || decide (u32At x.header
      8 < off + (p.length - 4)), 13)]).isSome))) = true) ∧
    (∃ (s : State) (t : Time) (d : Delivery), (((accepted d (tick t s.chip)).any fun (r, w, _, c) => (
      let p := r.params
      let failed (checks : List (Bool × Nat)) : Option (Bool × Nat) := ((!w.isRole [.depot], 0x06) :: (c.seq.mode != .depot,
        0x07) :: checks).find? (·.1)
      decide (r.op = 42) && (failed [(p != [], 4), (c.img.reprov.elim true fun x => decide (x.nextOff < u32At x.header 8),
      13)]).isSome))) = true) ∧
    (∃ (s : State) (t : Time) (d : Delivery), (((accepted d (tick t s.chip)).any fun (r, w, _, c) => (
      let p := r.params
      let failed (checks : List (Bool × Nat)) : Option (Bool × Nat) := ((!w.isRole [.depot], 0x06) :: (c.seq.mode != .depot,
        0x07) :: checks).find? (·.1)
      decide (r.op = 35 ∧ failed [(p.length != 4, 4), (decide (5 < u8At p 0) || decide (1 < u8At p 1) || u8At p 0 == 5 &&
      decide (23 < u8At p 2) || u8At p 3 != 0, 5)] = none ∧ calRefused c p = true)))) = true) ∧
    (∃ (s : State) (t : Time) (d : Delivery), (((accepted d (tick t s.chip)).any fun (r, w, _, c) => (
      let p := r.params
      let failed (checks : List (Bool × Nat)) : Option (Bool × Nat) := ((!w.isRole [.depot], 0x06) :: (c.seq.mode != .depot,
        0x07) :: checks).find? (·.1)
      decide (r.op = 35 ∧ failed [(p.length != 4, 4), (decide (5 < u8At p 0) || decide (1 < u8At p 1) || u8At p 0 == 5 &&
      decide (23 < u8At p 2) || u8At p 3 != 0, 5)] = none ∧ calRefused c p = false ∧ u8At p 0 ≠ 2)))) = true) ∧
    (∃ (s : State) (t : Time) (d : Delivery), (((accepted d (tick t s.chip)).any fun (r, w, _, c) => (
      let p := r.params
      let failed (checks : List (Bool × Nat)) : Option (Bool × Nat) := ((!w.isRole [.depot], 0x06) :: (c.seq.mode != .depot,
        0x07) :: checks).find? (·.1)
      decide (r.op = 36 ∧ failed [(p.length != 4, 4), (u16At p 2 == 0 || decide (192 < u16At p 2) || decide (2048 < u16At p 0
      + u16At p 2), 5)] = none)))) = true) ∧
    (∃ (s : State) (t : Time) (d : Delivery), (((accepted d (tick t s.chip)).any fun (r, w, _, c) => (
      let p := r.params
      let failed (checks : List (Bool × Nat)) : Option (Bool × Nat) := ((!w.isRole [.depot], 0x06) :: (c.seq.mode != .depot,
        0x07) :: checks).find? (·.1)
      decide (r.op = 37 ∧ failed [(p != [], 4)] = none)))) = true) ∧
    (∃ (s : State) (t : Time) (d : Delivery), (((accepted d (tick t s.chip)).any fun (r, w, _, c) => (
      let p := r.params
      let failed (checks : List (Bool × Nat)) : Option (Bool × Nat) := ((!w.isRole [.depot], 0x06) :: (c.seq.mode != .depot,
        0x07) :: checks).find? (·.1)
      decide (r.op = 40 ∧ failed [(p.length != 64, 4), (headerRefused c p, 5), (decide (u32At p 12 ≤ c.img.cfg.sequence), 12)]
      = none)))) = true) ∧
    (∃ (s : State) (t : Time) (d : Delivery), (((accepted d (tick t s.chip)).any fun (r, w, _, c) => (
      let p := r.params
      let failed (checks : List (Bool × Nat)) : Option (Bool × Nat) := ((!w.isRole [.depot], 0x06) :: (c.seq.mode != .depot,
        0x07) :: checks).find? (·.1)
      let off := u32At p 0
      decide (r.op = 41 ∧ (failed [(!(decide (5 ≤ p.length) && decide (p.length ≤ 228)), 4), (c.img.reprov.elim false fun x =>
      headerDiffers x off (List.drop 4 p), 5), (c.img.reprov.elim true fun x => off != x.nextOff || decide (u32At x.header 8 <
      off + (p.length - 4)), 13)] = none)) && c.img.reprov.isSome))) = true) ∧
    (∃ (s : State) (t : Time) (d : Delivery), (((accepted d (tick t s.chip)).any fun (r, w, _, c) => (
      let p := r.params
      let failed (checks : List (Bool × Nat)) : Option (Bool × Nat) := ((!w.isRole [.depot], 0x06) :: (c.seq.mode != .depot,
        0x07) :: checks).find? (·.1)
      decide (r.op = 42 ∧ (failed [(p != [], 4), (c.img.reprov.elim true fun x => decide (x.nextOff < u32At x.header 8), 13)]
      = none))))) = true) ∧
    (∃ (s : State), s.chip.spi = [] ∧ s.chip.host.pend = none) ∧
    (∃ (s : State), s.chip.spi = [] ∧ (s.chip.host.pend.any fun q => decide (q.done = none ∧ (q.op ≠ 42 ∨ s.chip.img.map =
      none ∨ nvmRuns s.chip = false ∨ s.chip.seq.restartAt ≠ none))) = true) ∧
    (∃ (s : State), s.chip.spi = [] ∧ (s.chip.host.pend.any fun q => decide (q.done ≠ none ∧ q.outcome ≠ none)) = true) ∧
    (∃ (s : State), s.chip.spi = [] ∧ (s.chip.host.pend.any fun q => (q.done.any fun _ => decide (q.outcome = none ∧ q.orphan
      = false))) = true) ∧
    (∃ (s : State), s.chip.spi = [] ∧ (s.chip.host.pend.any fun q => decide (q.done ≠ none ∧ q.outcome = none ∧ q.orphan =
      true)) = true) ∧
    (∃ (s : State), s.chip.spi = [] ∧ ((s.chip.host.pend.any fun q => decide (q.op = 42 ∧ q.done = none ∧ q.outcome = none ∧
      nvmRuns s.chip = true ∧ s.chip.seq.restartAt = none) && (s.chip.img.map.any fun m => (
      let judged := checkCopy (checkEnv m s.chip) (copyBytes m (targetCopy s.chip) s.nvm)
      (match judged with
      | Except.error _ => true
      | _ => false))))) = true) ∧
    (∃ (s : State), s.chip.spi = [] ∧ ((s.chip.host.pend.any fun q => decide (q.op = 42 ∧ q.done = none ∧ q.outcome = none ∧
      nvmRuns s.chip = true ∧ s.chip.seq.restartAt = none) && (s.chip.img.map.any fun m => (
      let judged := checkCopy (checkEnv m s.chip) (copyBytes m (targetCopy s.chip) s.nvm)
      (match judged with
      | Except.ok _ => true
      | _ => false))))) = true) :=
  ⟨⟨md .coupled (serv feedOn), 2, rq 0 0x23 6 [0, 0, 0, 0], by decide +kernel⟩,
   ⟨md .coupled (serv feedOn), 2, rq 0 0x24 6 (u16B 8 ++ u16B 16), by decide +kernel⟩,
   ⟨md .coupled (serv feedOn), 2, rq 0 0x25 6 [], by decide +kernel⟩,
   ⟨md .coupled (serv feedOn), 2, rq 0 0x28 6 (hdrI), by decide +kernel⟩,
   ⟨md .coupled (serv feedOn), 2, rq 0 0x29 6 (u32B 4 ++ (hdrI.drop 4)), by decide +kernel⟩,
   ⟨md .coupled (serv feedOn), 2, rq 0 0x2A 6 [], by decide +kernel⟩,
   ⟨md .depot (serv feedOn), 2, rq 2 0x23 6 [0, 0, 0, 0] 0x348598fd80b03352, by decide +kernel⟩,
   ⟨md .depot (serv feedOn), 2, rq 2 0x23 6 [1, 0, 0, 0] 0x2a2cd22d8753b9b, by decide +kernel⟩,
   ⟨md .depot (serv feedOn), 2, rq 2 0x24 6 (u16B 8 ++ u16B 16) 0xc8b9e5a773593be6, by decide +kernel⟩,
   ⟨md .depot (serv feedOn), 2, rq 2 0x25 6 [] 0x1b5c298517f0a3c, by decide +kernel⟩,
   ⟨md .depot (serv feedOn), 2, rq 2 0x28 6 (hdrI) 0x32313b701adc6e1d, by decide +kernel⟩,
   ⟨md .depot (serv (fun c => feedOn { c with img.reprov := some { header := hdrI, nextOff := 64 } })), 2, rq 2 0x29 6 (u32B 64 ++ [0, 0, 0, 0]) 0x23868756a8708aaa, by decide +kernel⟩,
   ⟨md .depot (serv (fun c => feedOn { c with img.reprov := some { header := hdrI, nextOff := 256 } })), 2, rq 2 0x2A 6 [] 0x25eb8627303c61c7, by decide +kernel⟩,
   ⟨md .coupled (serv feedOn), by decide +kernel⟩,
   ⟨md .depot (serv fun c => { c with host.pend := some { op := 0x23, handle := 1, at_ := 0, orphan := false, done := none, outcome := none } }), by decide +kernel⟩,
   ⟨md .depot (serv fun c => { c with host.pend := some { op := 0x23, handle := 1, at_ := 0, orphan := false, done := some (0, [1]), outcome := some (0, [1]) } }), by decide +kernel⟩,
   ⟨md .depot (serv fun c => { c with host.pend := some { q0 with done := some (0, [1]) } }), by decide +kernel⟩,
   ⟨md .depot (serv fun c => { c with host.pend := some { q0 with done := some (0, [1]), orphan := true } }), by decide +kernel⟩,
   ⟨md .depot (serv fun c => { c with img.reprov := some { header := hdrI, nextOff := 256 }, host.pend := some { q0 with op := 0x2A } }), by decide +kernel⟩,
   ⟨{ md .depot (serv fun c => { c with img.map := some { m0 with copyLen := 192 }, img.reprov := some { header := goodImage.take 64, nextOff := 192 }, host.pend := some { q0 with op := 0x2A } }) with nvm := (goodImage.zipIdx 4096).map fun x => (x.2, x.1) }, by decide +kernel⟩⟩

/-- What the clauses of `RequestsFailAtTheFirstCheck` suppose can be met. -/
theorem witness_RequestsFailAtTheFirstCheck :
    (∃ (s : State) (t : Time) (d : Delivery) (op : Nat), (receive d (tick t s.chip)).fst = none ∧ ((commandOf t d op).isSome)
      = true) ∧
    (∃ (s : State) (t : Time) (d : Delivery) (op : Nat), ((received d (tick t s.chip)).any fun (r, _) => ((commandOf t d
      op).any fun _ => decide (r.op ≠ op))) = true) ∧
    (∃ (s : State) (t : Time) (d : Delivery), ((received d (tick t s.chip)).any fun (r, _) => decide (knownOps.contains r.op =
      true)) = true) ∧
    (∃ (s : State) (t : Time) (d : Delivery), (((received d (tick t s.chip)).any fun (r, c) => ((commandOf t d r.op).any fun _
      => decide (busy r c = false ∧ (r.msg.length < 8 ∨ r.sid ≠ 0 ∧ r.msg.length < 16))))) = true) ∧
    (∃ (s : State) (t : Time) (d : Delivery), ((received d (tick t s.chip)).any fun (r, c) => decide (knownOps.contains r.op =
      false ∧ busy r c = false ∧ (r.msg.length < 8 ∨ r.sid ≠ 0 ∧ r.msg.length < 16))) = true) ∧
    (∃ (s : State) (t : Time) (d : Delivery), (((received d (tick t s.chip)).any fun (r, c) => ((commandOf t d r.op).any fun _
      => decide (busy r c = false ∧ 8 ≤ r.msg.length ∧ r.sid = 0 ∧ (r.op = 2 ∨ r.op = 3 ∨ r.op = 4 ∨ r.op = 9 ∨ r.op = 10 ∨ 16
      ≤ r.op ∧ knownOps.contains r.op = true))))) = true) ∧
    (∃ (s : State) (t : Time) (d : Delivery), (((received d (tick t s.chip)).any fun (r, _) => ((commandOf t d r.op).any fun _
      => decide (32 ≤ r.op ∧ r.op ≤ 42) && ((accepted d (tick t s.chip)).any fun (r', w, _, _) => decide (r' = r ∧ w.isRole
      [Role.depot] = false))))) = true) ∧
    (∃ (s : State) (t : Time) (d : Delivery), ((received d (tick t s.chip)).any fun (r, c) => decide (knownOps.contains r.op =
      false ∧ busy r c = false ∧ 8 ≤ r.msg.length ∧ r.sid = 0)) = true) ∧
    (∃ (s : State) (t : Time) (d : Delivery), ((received d (tick t s.chip)).any fun (r, c) => decide (knownOps.contains r.op =
      false ∧ busy r c = false ∧ 16 ≤ r.msg.length ∧ r.sid ≠ 0) && ((sessOf r c).any fun x => decide (x.half = false ∧ r.mac =
      sessionMac x.ks 81 r.link r.addr r.body ∧ x.counter < r.ctr))) = true) ∧
    (∃ (s : State) (t : Time) (d : Delivery), (((received d (tick t s.chip)).any fun (r, c) => ((commandOf t d r.op).any fun _
      => decide (busy r c = false ∧ 16 ≤ r.msg.length ∧ r.sid ≠ 0) && ((sessOf r c).any fun x => decide ((x.half = false ∨
      r.op = 9) ∧ r.mac ≠ sessionMac x.ks 81 r.link r.addr r.body))))) = true) ∧
    (∃ (s : State) (t : Time) (d : Delivery), (((received d (tick t s.chip)).any fun (r, c) => decide (knownOps.contains r.op
      = false ∧ busy r c = false ∧ 16 ≤ r.msg.length ∧ r.sid ≠ 0) && ((sessOf r c).any fun x => decide ((x.half = false ∨ r.op
      = 9) ∧ r.mac ≠ sessionMac x.ks 81 r.link r.addr r.body)))) = true) ∧
    (∃ (s : State) (t : Time) (d : Delivery), (((received d (tick t s.chip)).any fun (r, c) => ((commandOf t d r.op).any fun _
      => decide (busy r c = false ∧ 16 ≤ r.msg.length ∧ r.sid ≠ 0) && ((sessOf r c).any fun x => decide ((x.half = false ∨
      r.op = 9) ∧ r.mac = sessionMac x.ks 81 r.link r.addr r.body ∧ r.ctr ≤ x.counter))))) = true) ∧
    (∃ (s : State) (t : Time) (d : Delivery), (((received d (tick t s.chip)).any fun (r, c) => decide (knownOps.contains r.op
      = false ∧ busy r c = false ∧ 16 ≤ r.msg.length ∧ r.sid ≠ 0) && ((sessOf r c).any fun x => decide ((x.half = false ∨ r.op
      = 9) ∧ r.mac = sessionMac x.ks 81 r.link r.addr r.body ∧ r.ctr ≤ x.counter)))) = true) ∧
    (∃ (s : State) (t : Time) (d : Delivery), (((received d (tick t s.chip)).any fun (r, _) => ((commandOf t d r.op).any fun _
      => decide (32 ≤ r.op ∧ r.op ≤ 42) && ((accepted d (tick t s.chip)).any fun (r', w, _, e) => decide (r' = r ∧ w.isRole
      [Role.depot] = true ∧ 35 ≤ r.op ∧ e.seq.mode ≠ Mode.depot))))) = true) ∧
    (∃ (s : State) (t : Time) (d : Delivery), (((received d (tick t s.chip)).any fun (r, c) => ((commandOf t d r.op).any fun _
      => decide (busy r c = false ∧ 16 ≤ r.msg.length ∧ r.sid ≠ 0) && ((sessOf r c).any fun x => decide (x.half = true ∧ r.op
      ≠ 9))))) = true) ∧
    (∃ (s : State) (t : Time) (d : Delivery), ((received d (tick t s.chip)).any fun (r, c) => decide (knownOps.contains r.op =
      false ∧ busy r c = false ∧ 16 ≤ r.msg.length ∧ r.sid ≠ 0) && ((sessOf r c).any fun x => decide (x.half = true ∧ r.op ≠
      9))) = true) ∧
    (∃ (s : State) (t : Time) (d : Delivery), ((received d (tick t s.chip)).any fun (r, c) => ((commandOf t d r.op).any fun _
      => decide (busy r c = false ∧ 16 ≤ r.msg.length ∧ r.sid ≠ 0 ∧ sessOf r c = none))) = true) ∧
    (∃ (s : State) (t : Time) (d : Delivery), ((received d (tick t s.chip)).any fun (r, c) => decide (knownOps.contains r.op =
      false ∧ busy r c = false ∧ 16 ≤ r.msg.length ∧ r.sid ≠ 0 ∧ sessOf r c = none)) = true) ∧
    (∃ (s : State) (t : Time) (d : Delivery), ((received d (tick t s.chip)).any fun (r, c) => ((commandOf t d r.op).any fun _
      => decide (c.seq.mode = Mode.configure))) = true) ∧
    (∃ (s : State) (t : Time) (d : Delivery), ((received d (tick t s.chip)).any fun (r, c) => ((commandOf t d r.op).any fun _
      => decide (busy r c = true))) = true) ∧
    (∃ (s : State) (t : Time) (d : Delivery), ((received d (tick t s.chip)).any fun (r, c) => decide (knownOps.contains r.op =
      false ∧ c.seq.mode = Mode.configure)) = true) ∧
    (∃ (s : State) (t : Time) (d : Delivery), ((received d (tick t s.chip)).any fun (r, c) => decide (knownOps.contains r.op =
      false ∧ busy r c = true)) = true) :=
  ⟨⟨md .unpowered, 2, .smbus [1, 2, 3], 2, by decide +kernel⟩,
   ⟨md .coupled (serv feedOn), 2, .smbus [1, 2, 3], 2, by decide +kernel⟩,
   ⟨md .coupled (serv feedOn), 2, .smbus [1, 2, 3], by decide +kernel⟩,
   ⟨md .coupled (serv feedOn), 2, .smbus [1, 2, 3], by decide +kernel⟩,
   ⟨md .coupled (serv feedOn), 2, .smbus [0, 0, 0x77, 1, 0, 0, 0, 0, 0], by decide +kernel⟩,
   ⟨md .coupled (serv feedOn), 2, rq 0 9 6 [], by decide +kernel⟩,
   ⟨md .coupled (serv feedOn), 2, rq 0 0x23 6 [0, 0, 0, 0], by decide +kernel⟩,
   ⟨md .coupled (serv feedOn), 2, rq 0 0x77 6 [], by decide +kernel⟩,
   ⟨md .coupled (serv feedOn), 2, rq 1 0x77 6 [] 0xc77721cce278cb11, by decide +kernel⟩,
   ⟨md .coupled (serv feedOn), 2, rq 1 9 6 [], by decide +kernel⟩,
   ⟨md .coupled (serv feedOn), 2, rq 1 0x77 6 [], by decide +kernel⟩,
   ⟨md .coupled (serv feedOn), 2, rq 1 9 5 [] 0x4442550217a48aa0, by decide +kernel⟩,
   ⟨md .coupled (serv feedOn), 2, rq 1 0x77 5 [] 0x41b2301c0fb6d475, by decide +kernel⟩,
   ⟨md .coupled (serv feedOn), 2, rq 2 0x23 6 [0, 0, 0, 0] 0x348598fd80b03352, by decide +kernel⟩,
   ⟨md .coupled (serv feedOn), 2, rq 4 0x0A 6 [] 0xbd369b8bb6f8023, by decide +kernel⟩,
   ⟨md .coupled (serv feedOn), 2, rq 4 0x77 6 [] 0xca6df5073edf05ee, by decide +kernel⟩,
   ⟨md .coupled (serv feedOn), 2, rq 5 9 6 [] 0xc6068baa5b7b6c47, by decide +kernel⟩,
   ⟨md .coupled (serv feedOn), 2, rq 5 0x77 6 [] 0x794793766b05fad4, by decide +kernel⟩,
   ⟨md .configure (serv id), 2, .smbus [1, 2, 3], by decide +kernel⟩,
   ⟨md .configure (serv id), 2, .smbus [1, 2, 3], by decide +kernel⟩,
   ⟨md .configure (serv id), 2, .smbus [0, 0, 0x77, 1, 0, 0, 0, 0, 0], by decide +kernel⟩,
   ⟨md .configure (serv id), 2, .smbus [0, 0, 0x77, 1, 0, 0, 0, 0, 0], by decide +kernel⟩⟩

/-- What the clauses of `SessionsOpenConfirmAndEnd` suppose can be met. -/
theorem witness_SessionsOpenConfirmAndEnd :
    (∃ (s : State) (t : Time) (d : Delivery), (((accepted d (tick t s.chip)).any fun (r, w, _, c) => (
      let p := r.params
      let role := roleOf (u8At p 0)
      decide (r.op = 8 ∧ (List.find? (fun x => x.fst) [(w != Who.pub, 6), (p.length == 12 && role.elim false fun x => (roleKey
      c x (u16At p 2)).isNone, 17), (p.length != 12, 4), (role.isNone || u8At p 1 != 0, 5), (role == some Role.depot &&
      depotExists c || (takeHandle c).isNone, 16)] = none)) && (role.any fun x => ((roleKey c x (u16At p 2)).any fun _ =>
      (takeHandle c).isSome))))) = true) ∧
    (∃ (s : State) (t : Time) (d : Delivery), (((accepted d (tick t s.chip)).any fun (r, w, _, c) => (
      let p := r.params
      let role := roleOf (u8At p 0)
      decide (r.op = 8) && (List.find? (fun x => x.fst) [(w != Who.pub, 6), (p.length == 12 && role.elim false fun x =>
      (roleKey c x (u16At p 2)).isNone, 17), (p.length != 12, 4), (role.isNone || u8At p 1 != 0, 5), (role == some Role.depot
      && depotExists c || (takeHandle c).isNone, 16)]).isSome))) = true) ∧
    (∃ (s : State) (t : Time) (d : Delivery), (((accepted d (tick t s.chip)).any fun (r, w, _, _) => (
      let p := r.params
      let half : Bool := match w with
      | .sess _ x => x.half
      | .pub => false
      decide (r.op = 9) && (List.find? (fun x => x.fst) [(!half, 6), (p != [], 4)]).isSome))) = true) ∧
    (∃ (s : State) (t : Time) (d : Delivery), (((accepted d (tick t s.chip)).any fun (r, w, _, _) => (
      let p := r.params
      decide (r.op = 10) && (List.find? (fun x => x.fst) [(w == Who.pub, 6), (p != [], 4)]).isSome))) = true) ∧
    (∃ (s : State) (t : Time) (d : Delivery), (((accepted d (tick t s.chip)).any fun (r, w, _, _) => (
      let p := r.params
      decide (r.op = 10 ∧ (List.find? (fun x => x.fst) [(w == Who.pub, 6), (p != [], 4)] = none))))) = true) ∧
    (∃ (s : State) (t : Time) (d : Delivery), (((accepted d (tick t s.chip)).any fun (r, w, _, _) => (
      let p := r.params
      let half : Bool := match w with
      | .sess _ x => x.half
      | .pub => false
      decide (r.op = 9 ∧ (List.find? (fun x => x.fst) [(!half, 6), (p != [], 4)] = none))))) = true) ∧
    (∃ (s : State) (t : Time) (h : Nat), s.chip.spi = [] ∧ (
      let now := max s.chip.now t
      ((s.chip.host.sess.getD (h - 1) none).any fun x => decide ((x.half = true ∨ now < x.lastAt + sec 60))) = true)) ∧
    (∃ (s : State) (t : Time) (h : Nat), s.chip.spi = [] ∧ (
      let now := max s.chip.now t
      ((s.chip.host.sess.getD (h - 1) none).any fun x => decide ((x.half = false ∨ now < x.lastAt + sec 1))) = true)) ∧
    (∃ (s : State) (h : Nat), s.chip.spi = [] ∧ s.chip.host.sess.getD (h - 1) none = none) ∧
    (∃ (s : State), s.chip.spi = [] ∧ s.chip.host.lockUntil = none) ∧
    (∃ (s : State), s.chip.spi = [] ∧ running s.chip = true ∧ s.chip.host.answers = true) ∧
    (∃ (s : State) (t : Time) (h : Nat), s.chip.spi = [] ∧ (
      let now := max s.chip.now t
      ((s.chip.host.sess.getD (h - 1) none).any fun x => decide (x.half = true ∧ x.lastAt + sec 1 ≤ now ∧ (x.role ≠ Role.depot
      ∨ x.half = true ∨ s.chip.seq.mode ≠ Mode.depot ∨ anyFeed s.chip = false))) = true)) ∧
    (∃ (s : State) (t : Time) (h : Nat), s.chip.spi = [] ∧ (
      let now := max s.chip.now t
      ((s.chip.host.sess.getD (h - 1) none).any fun x => decide (x.half = false ∧ x.lastAt + sec 60 ≤ now ∧ (x.role ≠
      Role.depot ∨ x.half = true ∨ s.chip.seq.mode ≠ Mode.depot ∨ anyFeed s.chip = false))) = true)) ∧
    (∃ (s : State) (t : Time) (h : Nat), s.chip.spi = [] ∧ (
      let now := max s.chip.now t
      ((s.chip.host.sess.getD (h - 1) none).any fun x => decide (x.half = false ∧ x.lastAt + sec 60 ≤ now ∧ x.role =
      Role.depot ∧ x.half = false ∧ s.chip.seq.mode = Mode.depot ∧ anyFeed s.chip = true)) = true)) ∧
    (∃ (s : State), s.chip.spi = [] ∧ (running s.chip = false ∨ s.chip.host.answers = false)) ∧
    (∃ (s : State) (t : Time), s.chip.spi = [] ∧ (
      let now := max s.chip.now t
      (s.chip.host.lockUntil.any fun t0 => decide (now < t0)) = true)) ∧
    (∃ (s : State) (t : Time), s.chip.spi = [] ∧ (
      let now := max s.chip.now t
      (s.chip.host.lockUntil.any fun t0 => decide (t0 ≤ now)) = true)) :=
  ⟨⟨md .coupled (serv feedOn), 1, rq 0 8 6 ([1, 0] ++ u16B 0 ++ K1.take 8), by decide +kernel⟩,
   ⟨md .coupled (serv feedOn), 1, rq 0 8 6 ([2, 0] ++ u16B 0 ++ K1.take 8), by decide +kernel⟩,
   ⟨md .coupled (serv feedOn), 1, rq 0 9 6 [], by decide +kernel⟩,
   ⟨md .coupled (serv feedOn), 1, rq 0 0x0A 6 [], by decide +kernel⟩,
   ⟨md .coupled (serv feedOn), 1, rq 1 0x0A 6 [] 0x5aae65f13346c245, by decide +kernel⟩,
   ⟨md .coupled (serv feedOn), 1, rq 4 9 6 [] 0x75e74483e1083560, by decide +kernel⟩,
   ⟨md .coupled (serv feedOn), 1, 4, by decide +kernel⟩,
   ⟨md .coupled (serv feedOn), 1, 1, by decide +kernel⟩,
   ⟨md .coupled (serv feedOn), 5, by decide +kernel⟩,
   ⟨md .coupled (serv feedOn), by decide +kernel⟩,
   ⟨md .coupled (serv feedOn), by decide +kernel⟩,
   ⟨md .coupled (serv feedOn), sec 1 + 3, 4, by decide +kernel⟩,
   ⟨md .coupled (serv feedOn), sec 60 + 3, 1, by decide +kernel⟩,
   ⟨md .depot (serv feedOn), sec 60 + 3, 2, by decide +kernel⟩,
   ⟨md .unpowered, by decide +kernel⟩,
   ⟨md .depot (serv fun c => { feedOn c with host.lockUntil := some 5, can.resp := [⟨5, [1, 2], 3⟩] }), 4, by decide +kernel⟩,
   ⟨md .depot (serv fun c => { feedOn c with host.lockUntil := some 5, can.resp := [⟨5, [1, 2], 3⟩] }), 5, by decide +kernel⟩⟩

end Sys2Proof.Tests.Requests

namespace Sys2Proof.Tests.Caravans

open Sys2Proof.Machine

/-- Caravan time on an awake CAN domain at address 4, changed by `f`. -/
def cv (f : Caravan → Caravan) (c : Chip) : Chip := { c with img.cfg.device.ruellAddr := 4, can := { c.can with on := true, stb := false }, clk.xtalOk := true, caravan := f c.caravan }

/-- This gauge is the source of caravan time. -/
def src (c : Chip) : Chip := { c with pair.timeSource := true, img.cfg.device.ruellAddr := 9 }

/-- What the clauses of `CaravanTimeFollowsTheLowestSource` suppose can be met. -/
theorem witness_CaravanTimeFollowsTheLowestSource :
    (∃ (s : State) (t : Time), s.chip.spi = [] ∧ (
      let v := s.chip.caravan
      let here := tick t s.chip
      let may : Prop := running s.chip = true ∧ timeDuty s.chip = true ∧ canAwake s.chip = true
      let barred : Prop := v.stopped = true ∧ lowerHeard here = true
      (¬may ∨ barred))) ∧
    (∃ (s : State) (src : Nat), s.chip.spi = [] ∧ (canTakes s.chip = false ∨ src = ownAddr s.chip)) ∧
    (∃ (s : State) (t : Time), s.chip.spi = [] ∧ (
      let v := s.chip.caravan
      let now := max s.chip.now t
      let lost : Prop := running s.chip = true ∧ v.synced = true ∧ ∃ t0, v.followAt = some t0 ∧ t0 + sec 10 ≤ now
      ¬lost)) ∧
    (∃ (s : State) (src : Nat), s.chip.spi = [] ∧ canTakes s.chip = true ∧ src ≠ ownAddr s.chip ∧ (actsAsSource s.chip = false
      ∨ ownAddr s.chip < src)) ∧
    (∃ (s : State) (t : Time) (src seq : Nat), s.chip.spi = [] ∧ (
      let v := s.chip.caravan
      let here := tick t s.chip
      canTakes s.chip = true ∧ src ≠ ownAddr s.chip ∧ ((∀ (x : Nat × Nat × Time × Rat), x ∈ v.stamps → x.fst = src → x.snd.fst
      ≠ seq) ∨ actsAsSource s.chip = true ∨ followed here ≠ some src))) ∧
    (∃ (s : State) (t : Time), s.chip.spi = [] ∧ (
      let v := s.chip.caravan
      let now := max s.chip.now t
      let here := tick t s.chip
      let may : Prop := running s.chip = true ∧ timeDuty s.chip = true ∧ canAwake s.chip = true
      let barred : Prop := v.stopped = true ∧ lowerHeard here = true
      let due : Prop := ∀ t0, v.sendAt = some t0 → t0 + sec 1 ≤ now
      may ∧ ¬barred ∧ due)) ∧
    (∃ (s : State) (src : Nat), s.chip.spi = [] ∧ canTakes s.chip = true ∧ src ≠ ownAddr s.chip ∧ actsAsSource s.chip = true ∧
      src < ownAddr s.chip) ∧
    (∃ (s : State) (t : Time), s.chip.spi = [] ∧ (
      let v := s.chip.caravan
      let now := max s.chip.now t
      let here := tick t s.chip
      let may : Prop := running s.chip = true ∧ timeDuty s.chip = true ∧ canAwake s.chip = true
      let barred : Prop := v.stopped = true ∧ lowerHeard here = true
      let due : Prop := ∀ t0, v.sendAt = some t0 → t0 + sec 1 ≤ now
      may ∧ ¬barred ∧ ¬due)) ∧
    (∃ (s : State) (t : Time) (src seq : Nat) (at_ : Time) (own : Rat) (us_ : Nat), s.chip.spi = [] ∧ (
      let v := s.chip.caravan
      let here := tick t s.chip
      (List.find? (fun x => x.fst == src && x.snd.fst == seq) v.stamps = some (src, seq, at_, own)) ∧ canTakes s.chip = true ∧
      src ≠ ownAddr s.chip ∧ actsAsSource s.chip = false ∧ followed here = some src ∧ (
      let off := (us_ : Rat) - own
      absRat off ≤ 1000))) ∧
    (∃ (s : State) (t : Time) (src seq : Nat) (at_ : Time) (own : Rat) (us_ : Nat), s.chip.spi = [] ∧ (
      let v := s.chip.caravan
      let here := tick t s.chip
      (List.find? (fun x => x.fst == src && x.snd.fst == seq) v.stamps = some (src, seq, at_, own)) ∧ canTakes s.chip = true ∧
      src ≠ ownAddr s.chip ∧ actsAsSource s.chip = false ∧ followed here = some src ∧ (
      let off := (us_ : Rat) - own
      (v.synced = false ∨ absRat off ≤ 1000000)))) ∧
    (∃ (s : State) (t : Time) (src seq : Nat) (at_ : Time) (own : Rat) (us_ : Nat), s.chip.spi = [] ∧ (
      let v := s.chip.caravan
      let here := tick t s.chip
      (List.find? (fun x => x.fst == src && x.snd.fst == seq) v.stamps = some (src, seq, at_, own)) ∧ canTakes s.chip = true ∧
      src ≠ ownAddr s.chip ∧ actsAsSource s.chip = false ∧ followed here = some src ∧ (
      let off := (us_ : Rat) - own
      1000 < absRat off))) ∧
    (∃ (s : State) (t : Time) (src seq : Nat) (at_ : Time) (own : Rat) (us_ : Nat), s.chip.spi = [] ∧ (
      let v := s.chip.caravan
      let here := tick t s.chip
      (List.find? (fun x => x.fst == src && x.snd.fst == seq) v.stamps = some (src, seq, at_, own)) ∧ canTakes s.chip = true ∧
      src ≠ ownAddr s.chip ∧ actsAsSource s.chip = false ∧ followed here = some src ∧ (
      let off := (us_ : Rat) - own
      v.synced = true ∧ 1000000 < absRat off))) ∧
    (∃ (s : State) (t : Time), s.chip.spi = [] ∧ (
      let v := s.chip.caravan
      let now := max s.chip.now t
      let lost : Prop := running s.chip = true ∧ v.synced = true ∧ ∃ t0, v.followAt = some t0 ∧ t0 + sec 10 ≤ now
      lost)) :=
  ⟨⟨md .unpowered, 0, by decide +kernel⟩,
   ⟨md .unpowered, 0, by decide +kernel⟩,
   ⟨md .unpowered, 0, by decide +kernel⟩,
   ⟨md .coupled (cv id), 0, by decide +kernel⟩,
   ⟨md .coupled (cv id), 0, 0, 0, by decide +kernel⟩,
   ⟨md .coupled (fun c => src (cv id c)), 0, by decide +kernel⟩,
   ⟨md .coupled (fun c => src (cv id c)), 0, by decide +kernel⟩,
   ⟨md .coupled (fun c => src (cv (fun v => { v with sendAt := some 3, sendSeq := 31 }) c)), 0, by decide +kernel⟩,
   ⟨md .coupled (cv fun v => { v with synced := true, followAt := some 3, stamps := [(5, 3, 2, 9), (3, 3, 3, 500)], heard := [(3, 3)] }), 0, 3, 3, 3, 500, 0, by decide +kernel⟩,
   ⟨md .coupled (fun c => { cv (fun v => { v with stamps := [(5, 3, 2, 9), (3, 3, 3, 500)], heard := [(3, 3)] }) c with ret.cvSlew := 7, ret.cvRate := 5, ret.cvBase := 1000}), 0, 3, 3, 3, 500, 0, by decide +kernel⟩,
   ⟨md .coupled (cv fun v => { v with synced := true, followAt := some 3, stamps := [(5, 3, 2, 9), (3, 3, 3, 500)], heard := [(3, 3)] }), 0, 3, 3, 3, 500, 2000, by decide +kernel⟩,
   ⟨md .coupled (cv fun v => { v with synced := true, followAt := some 3, stamps := [(5, 3, 2, 9), (3, 3, 3, 500)], heard := [(3, 3)] }), 0, 3, 3, 3, 500, sec 1 + 3, by decide +kernel⟩,
   ⟨md .coupled (cv fun v => { v with synced := true, followAt := some 3, stamps := [(5, 3, 2, 9), (3, 3, 3, 500)], heard := [(3, 3)] }), sec 10 + 3, by decide +kernel⟩⟩

end Sys2Proof.Tests.Caravans

namespace Sys2Proof.Tests.Pairs

open Sys2Proof.Machine

/-- One gauge of a pair, with lock on its link. -/
def cfgP (c : Chip) : Chip := { c with seq.strap := .dgnd, pair.lock := true, pair.rxSeq := 4, pair.txSeq := 255 }

/-- One gauge of a pair, changed by `f`. -/
def pr (f : Machine.Pair → Machine.Pair) (c : Chip) : Chip := let c := cfgP c; { c with pair := f c.pair }

/-- The contract of guest 7 on spur 0. -/
def g7 : GuestCfg := { index := 7, spur := 0, side := false, beacon := true, cls := 0, period := 10, slotLen := 100, deadline := 40000, phase := 0, energy := 300, oasis := 1000, vmin := 8000, iMax := 100 }

/-- A gauge with guest 7 in its room. -/
def gst (c : Chip) : Chip := { c with inn := { c.inn with guests := [{ cfg := g7, pos := 0, reject := none, own := true }], rooms := [{ pos := 0, rcd := freshRec g7, dirty := false, due := false }] } }

/-- A Kersor frame with SEQ `q`. -/
def kf (q : Nat) (p : List Byte) : KersorFrame := { seq := q, ack := 255, payload := p }

/-- The payload 0, 1, 2, … of `n` bytes. -/
def pay (n : Nat) : List Byte := (List.range n).map (BitVec.ofNat 8)

/-- The same in step 7 of CONFIGURE. -/
def st7 (f : Machine.Pair → Machine.Pair) (c : Chip) : Chip := let c := gst (pr f c); { c with seq := { c.seq with step := 7, stepStart := 2 } }

/-- A record of a guest sent at `t` and not yet acknowledged. -/
def ux (t : Nat) (q : Nat) : KTx := { rcd := { type := 3, payload := pay 12, at_ := 1 }, seq := q, sentAt := t, frame := [] }

/-- What the clauses of `KersorFramesAndPartnerRecords` suppose can be met. -/
theorem witness_KersorFramesAreTakenInOrder :
    (∃ (s : State) (n : Nat) (w : Time), s.chip.spi = [] ∧ (linkRuns s.chip = false ∨ n < 3 ∨ us 10 < w)) ∧
    (∃ (s : State) (n : Nat), s.chip.spi = [] ∧ 4 ≤ n) ∧
    (∃ (s : State) (n : Nat), s.chip.spi = [] ∧ n < 4) ∧
    (∃ (s : State) (t : Time), s.chip.spi = [] ∧ (
      let again (x : KTx) : Bool := s.chip.pair.st != .singles || x.rcd.type == 2
      let fs := s.chip.pair.unacked.filter again
      (linkRuns s.chip = false ∨ (fs.all fun g => decide (max s.chip.now t - g.sentAt < us 500)) = true))) ∧
    (∃ (s : State) (n : Nat) (w : Time), s.chip.spi = [] ∧ linkRuns s.chip = true ∧ 3 ≤ n ∧ w ≤ us 10) ∧
    (∃ (s : State) (f : KersorFrame), s.chip.spi = [] ∧ kTakes s.chip = true ∧ f.payload.length = 4 ∧ f.seq ≠
      (s.chip.pair.rxSeq + 1) % 256) ∧
    (∃ (s : State) (t : Time) (g : KTx) (gs : List KTx), s.chip.spi = [] ∧ (
      let again (x : KTx) : Bool := s.chip.pair.st != .singles || x.rcd.type == 2
      let fs := s.chip.pair.unacked.filter again
      linkRuns s.chip = true ∧ s.chip.pair.split = false ∧ fs = g :: gs ∧ us 500 ≤ max s.chip.now t - g.sentAt)) ∧
    (∃ (s : State) (f : KersorFrame), s.chip.spi = [] ∧ kTakes s.chip = true ∧ f.payload.length = 56 ∧ s.chip.pair.st =
      PairSt.joined ∧ s.chip.pair.linkLost = false ∧ f.seq ≠ (s.chip.pair.rxSeq + 1) % 256) :=
  ⟨⟨md .coupled, 0, 0, by decide +kernel⟩,
   ⟨md .coupled, 4, by decide +kernel⟩,
   ⟨md .coupled, 3, by decide +kernel⟩,
   ⟨md .coupled, 0, by decide +kernel⟩,
   ⟨md .coupled cfgP, 3, us 10, by decide +kernel⟩,
   ⟨md .coupled cfgP, kf 4 (pay 4), by decide +kernel⟩,
   ⟨md .coupled (pr fun x => { x with unacked := [ux 2 255], errs := (5, 65535) }), us 500 + 2, ux 2 255, [], by decide +kernel⟩,
   ⟨md .coupled (pr fun x => { x with st := .joined, rxSeq := 5 }), kf 4 (pay 56), by decide +kernel⟩⟩

/-- A joined pair, changed by `f`. -/
def jp (f : Machine.Pair → Machine.Pair) : Chip → Chip := pr fun x => f { x with st := .joined }

/-- What the clauses of `KersorFramesAndPartnerRecords` suppose can be met. -/
theorem witness_PartnerRecordsAreKept :
    (∃ (s : State) (f : KersorFrame), s.chip.spi = [] ∧ kTakes s.chip = true ∧ s.chip.pair.st = PairSt.joined ∧ f.seq =
      (s.chip.pair.rxSeq + 1) % 256 ∧ (
      let p := f.payload
      let own (g : Guest) : Prop := inStep7 s.chip = true ∧ g.own = true ∧ slice p 0 24 = guestBody g.cfg
      p.length = 64 ∧ (¬∃ g, guestByIndex s.chip (u16At p 0) = some g ∧ own g))) ∧
    (∃ (s : State) (f : KersorFrame), s.chip.spi = [] ∧ kTakes s.chip = true ∧ s.chip.pair.st = PairSt.joined ∧ f.seq =
      (s.chip.pair.rxSeq + 1) % 256 ∧ (
      let p := f.payload
      p.length = 8 ∧ u8At p 4 = 0)) ∧
    (∃ (s : State) (f : KersorFrame), s.chip.spi = [] ∧ kTakes s.chip = true ∧ s.chip.pair.st = PairSt.joined ∧ f.seq =
      (s.chip.pair.rxSeq + 1) % 256 ∧ (
      let p := f.payload
      p.length = 36 ∧ BitVec.getLsbD (p.getD 8 0) 1 = true)) ∧
    (∃ (s : State) (f : KersorFrame), s.chip.spi = [] ∧ kTakes s.chip = true ∧ s.chip.pair.st = PairSt.joined ∧ f.seq =
      (s.chip.pair.rxSeq + 1) % 256 ∧ (
      let p := f.payload
      p.length = 4 ∧ s.chip.pair.linkLost = false)) ∧
    (∃ (s : State) (f : KersorFrame), s.chip.spi = [] ∧ kTakes s.chip = true ∧ s.chip.pair.st = PairSt.joined ∧ f.seq =
      (s.chip.pair.rxSeq + 1) % 256 ∧ (
      let p := f.payload
      p.length = 4 ∧ s.chip.pair.resync = false ∧ s.chip.pair.gotEnd = false ∧ s.chip.pair.sentEnd = false)) ∧
    (∃ (s : State) (f : KersorFrame), s.chip.spi = [] ∧ kTakes s.chip = true ∧ s.chip.pair.st = PairSt.joined ∧ f.seq =
      (s.chip.pair.rxSeq + 1) % 256 ∧ (
      let p := f.payload
      p.length = 8 ∧ u8At p 4 ≠ 0)) ∧
    (∃ (s : State) (t : Time) (f : KersorFrame), s.chip.spi = [] ∧ kTakes s.chip = true ∧ s.chip.pair.st = PairSt.joined ∧
      f.seq = (s.chip.pair.rxSeq + 1) % 256 ∧ (
      let p := f.payload
      let pr := (kAck f.ack (tick t s.chip)).pair
      let above : Prop := pr.them.epoch = none ∨ ∃ h, pr.them.epoch = some h ∧ serialAbove (u32At p 0) h = true
      p.length = 12 ∧ above)) ∧
    (∃ (s : State) (f : KersorFrame), s.chip.spi = [] ∧ kTakes s.chip = true ∧ s.chip.pair.st = PairSt.joined ∧ f.seq =
      (s.chip.pair.rxSeq + 1) % 256 ∧ (
      let p := f.payload
      p.length = 36 ∧ BitVec.getLsbD (p.getD 8 0) 1 = false)) ∧
    (∃ (s : State) (t : Time) (f : KersorFrame), s.chip.spi = [] ∧ kTakes s.chip = true ∧ s.chip.pair.st = PairSt.joined ∧
      f.seq = (s.chip.pair.rxSeq + 1) % 256 ∧ (
      let p := f.payload
      let pr := (kAck f.ack (tick t s.chip)).pair
      let above : Prop := pr.them.epoch = none ∨ ∃ h, pr.them.epoch = some h ∧ serialAbove (u32At p 0) h = true
      p.length = 12 ∧ ¬above)) ∧
    (∃ (s : State) (f : KersorFrame), s.chip.spi = [] ∧ kTakes s.chip = true ∧ s.chip.pair.st = PairSt.joined ∧ f.seq =
      (s.chip.pair.rxSeq + 1) % 256 ∧ (
      let p := f.payload
      let own (g : Guest) : Prop := inStep7 s.chip = true ∧ g.own = true ∧ slice p 0 24 = guestBody g.cfg
      ((guestByIndex s.chip (u16At p 0)).any fun g => decide (p.length = 64 ∧ own g ∧ roomOf s.chip g.pos = none)) = true)) ∧
    (∃ (s : State) (f : KersorFrame), s.chip.spi = [] ∧ kTakes s.chip = true ∧ s.chip.pair.st = PairSt.joined ∧ f.seq =
      (s.chip.pair.rxSeq + 1) % 256 ∧ (
      let p := f.payload
      p.length = 4 ∧ s.chip.pair.resync = true)) ∧
    (∃ (s : State) (f : KersorFrame), s.chip.spi = [] ∧ kTakes s.chip = true ∧ s.chip.pair.st = PairSt.joined ∧ f.seq =
      (s.chip.pair.rxSeq + 1) % 256 ∧ (
      let p := f.payload
      p.length = 4 ∧ s.chip.pair.resync = false ∧ s.chip.pair.gotEnd = true)) ∧
    (∃ (s : State) (f : KersorFrame), s.chip.spi = [] ∧ kTakes s.chip = true ∧ s.chip.pair.st = PairSt.joined ∧ f.seq =
      (s.chip.pair.rxSeq + 1) % 256 ∧ (
      let p := f.payload
      p.length = 4 ∧ s.chip.pair.resync = false ∧ s.chip.pair.gotEnd = false ∧ s.chip.pair.sentEnd = true)) ∧
    (∃ (s : State) (f : KersorFrame), s.chip.spi = [] ∧ kTakes s.chip = true ∧ s.chip.pair.st = PairSt.joined ∧ f.seq =
      (s.chip.pair.rxSeq + 1) % 256 ∧ (
      let p := f.payload
      let own (g : Guest) : Prop := inStep7 s.chip = true ∧ g.own = true ∧ slice p 0 24 = guestBody g.cfg
      ((guestByIndex s.chip (u16At p 0)).any fun g => ((roomOf s.chip g.pos).any fun _ => decide (p.length = 64 ∧ own g))) =
      true)) :=
  ⟨⟨md .coupled (jp id), kf 5 (guestBody g7 ++ pay 40), by decide +kernel⟩,
   ⟨md .coupled (jp id), kf 5 (pay 8 |>.set 4 0), by decide +kernel⟩,
   ⟨md .coupled (jp id), kf 5 (pay 36 |>.set 8 2), by decide +kernel⟩,
   ⟨md .coupled (jp id), kf 5 (pay 4), by decide +kernel⟩,
   ⟨md .coupled (jp id), kf 5 (pay 4), by decide +kernel⟩,
   ⟨md .coupled (jp id), kf 5 (pay 8), by decide +kernel⟩,
   ⟨md .coupled (jp id), 2, kf 5 (pay 12), by decide +kernel⟩,
   ⟨md .coupled (jp id), kf 5 (pay 36), by decide +kernel⟩,
   ⟨md .coupled (jp fun x => { x with them.epoch := some 50462980 }), 2, kf 5 (pay 12), by decide +kernel⟩,
   ⟨md .configure (fun c => { st7 (fun x => { x with st := .joined }) c with inn.rooms := [] }), kf 5 (guestBody g7 ++ pay 40), by decide +kernel⟩,
   ⟨md .coupled (jp fun x => { x with resync := true }), kf 5 (pay 4), by decide +kernel⟩,
   ⟨md .coupled (jp fun x => { x with gotEnd := true }), kf 5 (pay 4), by decide +kernel⟩,
   ⟨md .coupled (fun c => gst (jp (fun x => { x with sentEnd := true }) c)), kf 5 (pay 4), by decide +kernel⟩,
   ⟨md .configure (st7 fun x => { x with st := .joined }), kf 5 (guestBody g7 ++ pay 40), by decide +kernel⟩⟩

/-- A digest. -/
def dig : List Byte := pay 32

/-- The pair digest is `dig`. -/
def dg (c : Chip) : Chip := { c with img.pairDigest := dig }

/-- A JOIN frame of role `role` with digest `d`. -/
def jf (q role : Nat) (d : List Byte) (stt : Nat := 0) : KersorFrame := kf q (pay 16 ++ [BitVec.ofNat 8 role, BitVec.ofNat 8 stt] ++ pay 6 ++ d)

/-- What the clauses of `PairsJoinAndLoseTheirLink` suppose can be met. -/
theorem witness_PairsJoinAndLoseTheirLink :
    (∃ (s : State) (t : Time), s.chip.spi = [] ∧ (
      let x := s.chip.pair
      let now := max s.chip.now t
      let joining : Prop := inStep7 s.chip = true ∧ x.joinedIn7 = false ∧ x.done7 = false
      let sends : Prop := joining ∧ now < s.chip.seq.stepStart + ms 60 ∧ ∀ t0, x.joinAt = some t0 → t0 + ms 1 ≤ now
      ¬sends)) ∧
    (∃ (s : State) (t : Time), s.chip.spi = [] ∧ (
      let x := s.chip.pair
      let now := max s.chip.now t
      let joining : Prop := inStep7 s.chip = true ∧ x.joinedIn7 = false ∧ x.done7 = false
      (¬joining ∨ now < s.chip.seq.stepStart + ms 60))) ∧
    (∃ (s : State) (t : Time), s.chip.spi = [] ∧ (
      let x := s.chip.pair
      let now := max s.chip.now t
      let service : Prop := (x.st = .joined ∨ x.st = .singles ∨ (x.st = .lost ∧ workingMode s.chip.seq.mode = true)) ∧
        x.linkLost = false
      let due : Prop := linkRuns s.chip = true ∧ service ∧ ∃ t0, x.hbAt = some t0 ∧ t0 + us 2200 ≤ now
      ¬due)) ∧
    (∃ (s : State) (t : Time) (f : KersorFrame), s.chip.spi = [] ∧ (
      let p := f.payload
      let x := s.chip.pair
      let now := max s.chip.now t
      let flags : BitVec 8 := p.getD 1 0
      let service : Prop := (x.st = .joined ∨ x.st = .singles ∨ (x.st = .lost ∧ workingMode s.chip.seq.mode = true)) ∧
        x.linkLost = false
      kTakes s.chip = true ∧ p.length = 16 ∧ (
      let told : Prop := service ∧ flags.getLsbD 5 = true
      let back : Prop := x.linkLost = true ∧ workingMode s.chip.seq.mode = true ∧ 7 ≤ x.hbRun ∧ ∃ t0, x.hbAt = some t0 ∧ now ≤
        t0 + us 275
      ¬back ∧ ¬told))) ∧
    (∃ (s : State) (f : KersorFrame), s.chip.spi = [] ∧ (
      let p := f.payload
      let x := s.chip.pair
      kTakes s.chip = true ∧ p.length = 56 ∧ (x.st = PairSt.joined → x.linkLost = false → f.seq = (x.rxSeq + 1) % 256) ∧ (
      let same : Prop := slice p 24 32 = slice s.chip.img.pairDigest 0 32
      let stays : Prop := x.linkLost = false ∧ (x.st = .joined ∨ (x.st = .singles ∧ (x.conflict = true ∨ ¬same)))
      workingMode s.chip.seq.mode = true ∧ (stays → x.st = PairSt.joined)))) ∧
    (∃ (s : State) (f : KersorFrame), s.chip.spi = [] ∧ (
      let p := f.payload
      let x := s.chip.pair
      kTakes s.chip = true ∧ p.length = 56 ∧ (x.st = PairSt.joined → x.linkLost = false → f.seq = (x.rxSeq + 1) % 256) ∧ (
      let same : Prop := slice p 24 32 = slice s.chip.img.pairDigest 0 32
      let stays : Prop := x.linkLost = false ∧ (x.st = .joined ∨ (x.st = .singles ∧ (x.conflict = true ∨ ¬same)))
      let other : Prop := ¬stays ∧ u8At p 16 ≠ roleCode s.chip ∧ x.conflict = false
      other ∧ ¬same))) ∧
    (∃ (s : State) (f : KersorFrame), s.chip.spi = [] ∧ (
      let p := f.payload
      let x := s.chip.pair
      kTakes s.chip = true ∧ p.length = 56 ∧ (x.st = PairSt.joined → x.linkLost = false → f.seq = (x.rxSeq + 1) % 256) ∧ (
      let same : Prop := slice p 24 32 = slice s.chip.img.pairDigest 0 32
      let stays : Prop := x.linkLost = false ∧ (x.st = .joined ∨ (x.st = .singles ∧ (x.conflict = true ∨ ¬same)))
      ¬stays ∧ u8At p 16 = roleCode s.chip))) ∧
    (∃ (s : State) (t : Time) (f : KersorFrame), s.chip.spi = [] ∧ (
      let p := f.payload
      let x := s.chip.pair
      let now := max s.chip.now t
      kTakes s.chip = true ∧ p.length = 4 ∧ f.seq = (x.rxSeq + 1) % 256 ∧ (
      let outranks : Prop := x.linkLost = true ∧ x.split = false ∧ ∃ k, x.probe = some k ∧ now ≤ k.start + us 275
      ¬outranks))) ∧
    (∃ (s : State) (f : KersorFrame), s.chip.spi = [] ∧ (
      let p := f.payload
      let x := s.chip.pair
      let flags : BitVec 8 := p.getD 1 0
      let service : Prop := (x.st = .joined ∨ x.st = .singles ∨ (x.st = .lost ∧ workingMode s.chip.seq.mode = true)) ∧
        x.linkLost = false
      kTakes s.chip = true ∧ p.length = 16 ∧ (
      let told : Prop := service ∧ flags.getLsbD 5 = true
      told ∧ (x.leaving && flags.getLsbD 0) = false ∧ s.chip.seq.mode ≠ Mode.configure))) ∧
    (∃ (s : State) (f : KersorFrame), s.chip.spi = [] ∧ (
      let p := f.payload
      let x := s.chip.pair
      kTakes s.chip = true ∧ p.length = 56 ∧ (x.st = PairSt.joined → x.linkLost = false → f.seq = (x.rxSeq + 1) % 256) ∧ (
      let same : Prop := slice p 24 32 = slice s.chip.img.pairDigest 0 32
      let stays : Prop := x.linkLost = false ∧ (x.st = .joined ∨ (x.st = .singles ∧ (x.conflict = true ∨ ¬same)))
      stays))) ∧
    (∃ (s : State) (t : Time), s.chip.spi = [] ∧ (
      let x := s.chip.pair
      let now := max s.chip.now t
      let service : Prop := (x.st = .joined ∨ x.st = .singles ∨ (x.st = .lost ∧ workingMode s.chip.seq.mode = true)) ∧
        x.linkLost = false
      let due : Prop := linkRuns s.chip = true ∧ service ∧ ∃ t0, x.hbAt = some t0 ∧ t0 + us 2200 ≤ now
      due ∧ x.leaving = false ∧ s.chip.seq.mode ≠ Mode.configure)) ∧
    (∃ (s : State) (t : Time) (f : KersorFrame), s.chip.spi = [] ∧ (
      let p := f.payload
      let x := s.chip.pair
      let now := max s.chip.now t
      kTakes s.chip = true ∧ p.length = 16 ∧ (
      let back : Prop := x.linkLost = true ∧ workingMode s.chip.seq.mode = true ∧ 7 ≤ x.hbRun ∧ ∃ t0, x.hbAt = some t0 ∧ now ≤
        t0 + us 275
      back ∧ x.conflict = false))) ∧
    (∃ (s : State) (f : KersorFrame), s.chip.spi = [] ∧ (
      let p := f.payload
      let x := s.chip.pair
      kTakes s.chip = true ∧ p.length = 56 ∧ (x.st = PairSt.joined → x.linkLost = false → f.seq = (x.rxSeq + 1) % 256) ∧ (
      let same : Prop := slice p 24 32 = slice s.chip.img.pairDigest 0 32
      let stays : Prop := x.linkLost = false ∧ (x.st = .joined ∨ (x.st = .singles ∧ (x.conflict = true ∨ ¬same)))
      let other : Prop := ¬stays ∧ u8At p 16 ≠ roleCode s.chip ∧ x.conflict = false
      other ∧ same))) ∧
    (∃ (s : State) (f : KersorFrame), s.chip.spi = [] ∧ (
      let p := f.payload
      let x := s.chip.pair
      let flags : BitVec 8 := p.getD 1 0
      let service : Prop := (x.st = .joined ∨ x.st = .singles ∨ (x.st = .lost ∧ workingMode s.chip.seq.mode = true)) ∧
        x.linkLost = false
      kTakes s.chip = true ∧ p.length = 16 ∧ (
      let told : Prop := service ∧ flags.getLsbD 5 = true
      told ∧ (x.leaving && flags.getLsbD 0) = true))) ∧
    (∃ (s : State) (t : Time), s.chip.spi = [] ∧ (
      let x := s.chip.pair
      let now := max s.chip.now t
      let service : Prop := (x.st = .joined ∨ x.st = .singles ∨ (x.st = .lost ∧ workingMode s.chip.seq.mode = true)) ∧
        x.linkLost = false
      let due : Prop := linkRuns s.chip = true ∧ service ∧ ∃ t0, x.hbAt = some t0 ∧ t0 + us 2200 ≤ now
      due ∧ x.leaving = true)) ∧
    (∃ (s : State) (t : Time), s.chip.spi = [] ∧ (
      let x := s.chip.pair
      let now := max s.chip.now t
      let joining : Prop := inStep7 s.chip = true ∧ x.joinedIn7 = false ∧ x.done7 = false
      let sends : Prop := joining ∧ now < s.chip.seq.stepStart + ms 60 ∧ ∀ t0, x.joinAt = some t0 → t0 + ms 1 ≤ now
      sends ∧ linkRuns s.chip = true ∧ x.unacked.length < 64 ∧ x.waiting = [])) ∧
    (∃ (s : State) (t : Time), s.chip.spi = [] ∧ (
      let x := s.chip.pair
      let now := max s.chip.now t
      let joining : Prop := inStep7 s.chip = true ∧ x.joinedIn7 = false ∧ x.done7 = false
      joining ∧ s.chip.seq.stepStart + ms 60 ≤ now)) ∧
    (∃ (s : State) (f : KersorFrame), s.chip.spi = [] ∧ (
      let p := f.payload
      let x := s.chip.pair
      let flags : BitVec 8 := p.getD 1 0
      let service : Prop := (x.st = .joined ∨ x.st = .singles ∨ (x.st = .lost ∧ workingMode s.chip.seq.mode = true)) ∧
        x.linkLost = false
      kTakes s.chip = true ∧ p.length = 16 ∧ (
      let told : Prop := service ∧ flags.getLsbD 5 = true
      told ∧ (x.leaving && flags.getLsbD 0) = false ∧ s.chip.seq.mode = Mode.configure))) ∧
    (∃ (s : State) (t : Time), s.chip.spi = [] ∧ (
      let x := s.chip.pair
      let now := max s.chip.now t
      let service : Prop := (x.st = .joined ∨ x.st = .singles ∨ (x.st = .lost ∧ workingMode s.chip.seq.mode = true)) ∧
        x.linkLost = false
      let due : Prop := linkRuns s.chip = true ∧ service ∧ ∃ t0, x.hbAt = some t0 ∧ t0 + us 2200 ≤ now
      due ∧ x.leaving = false ∧ s.chip.seq.mode = Mode.configure)) ∧
    (∃ (s : State) (f : KersorFrame), s.chip.spi = [] ∧ (
      let p := f.payload
      let x := s.chip.pair
      kTakes s.chip = true ∧ p.length = 56 ∧ (x.st = PairSt.joined → x.linkLost = false → f.seq = (x.rxSeq + 1) % 256) ∧ (
      let same : Prop := slice p 24 32 = slice s.chip.img.pairDigest 0 32
      let stays : Prop := x.linkLost = false ∧ (x.st = .joined ∨ (x.st = .singles ∧ (x.conflict = true ∨ ¬same)))
      ¬stays ∧ u8At p 16 ≠ roleCode s.chip ∧ x.conflict = true))) ∧
    (∃ (s : State) (t : Time) (f : KersorFrame), s.chip.spi = [] ∧ (
      let p := f.payload
      let x := s.chip.pair
      let now := max s.chip.now t
      kTakes s.chip = true ∧ p.length = 4 ∧ f.seq = (x.rxSeq + 1) % 256 ∧ (
      let outranks : Prop := x.linkLost = true ∧ x.split = false ∧ ∃ k, x.probe = some k ∧ now ≤ k.start + us 275
      outranks))) :=
  ⟨⟨md .unpowered, 2, by decide +kernel⟩,
   ⟨md .unpowered, 2, by decide +kernel⟩,
   ⟨md .unpowered, 2, by decide +kernel⟩,
   ⟨md .coupled (pr id), 2, kf 9 (pay 16), by decide +kernel⟩,
   ⟨md .coupled (pr id), jf 9 1 dig, by decide +kernel⟩,
   ⟨md .coupled (pr id), jf 9 1 dig, by decide +kernel⟩,
   ⟨md .coupled (pr id), jf 9 0 dig, by decide +kernel⟩,
   ⟨md .coupled (pr id), 2, kf 5 (pay 4), by decide +kernel⟩,
   ⟨md .coupled (fun c => dg (gst (pr (fun x => { x with st := .joined, hbAt := some 2, copies := [(8, pay 64)], fresh := true }) c))), kf 9 (pay 16 |>.set 1 32), by decide +kernel⟩,
   ⟨md .coupled (fun c => dg (gst (pr (fun x => { x with st := .joined, hbAt := some 2, copies := [(8, pay 64)], fresh := true }) c))), jf 5 1 dig, by decide +kernel⟩,
   ⟨md .coupled (fun c => dg (gst (pr (fun x => { x with st := .joined, hbAt := some 2, copies := [(8, pay 64)], fresh := true }) c))), us 2200 + 2, by decide +kernel⟩,
   ⟨md .coupled (fun c => dg (gst (pr (fun x => { x with linkLost := true, hbRun := 7, hbAt := some 2, st := .lost, copies := [(8, pay 64)], fresh := true }) c))), 2, kf 9 (pay 16), by decide +kernel⟩,
   ⟨md .coupled (fun c => dg (gst (pr (fun x => { x with linkLost := true, hbRun := 7, hbAt := some 2, st := .lost, copies := [(8, pay 64)], fresh := true }) c))), jf 9 1 dig, by decide +kernel⟩,
   ⟨md .coupled (fun c => dg (gst (pr (fun x => { x with st := .joined, leaving := true, hbAt := some 2, them.flags := 4 }) c))), kf 9 (pay 16 |>.set 1 33), by decide +kernel⟩,
   ⟨md .coupled (fun c => dg (gst (pr (fun x => { x with st := .joined, leaving := true, hbAt := some 2, them.flags := 4 }) c))), us 2200 + 2, by decide +kernel⟩,
   ⟨md .configure (fun c => dg (st7 id c)), 2, by decide +kernel⟩,
   ⟨md .configure (fun c => dg (st7 id c)), ms 60 + 2, by decide +kernel⟩,
   ⟨md .configure (fun c => dg (st7 (fun x => { x with st := .joined, hbAt := some 2, joinedIn7 := true }) c)), kf 9 (pay 16 |>.set 1 32), by decide +kernel⟩,
   ⟨md .configure (fun c => dg (st7 (fun x => { x with st := .joined, hbAt := some 2, joinedIn7 := true }) c)), us 2200 + 2, by decide +kernel⟩,
   ⟨md .coupled (pr fun x => { x with conflict := true, linkLost := true, st := .singles }), jf 9 1 dig, by decide +kernel⟩,
   ⟨md .parked (fun c => dg (gst (pr (fun x => { x with st := .lost, linkLost := true, probe := some { start := 2, first := none, second := none }, drive := some 5 }) c))), 2, kf 5 (pay 4), by decide +kernel⟩⟩

/-- A SHARE probe with its two readings. -/
def pb (a b : Option Nat) : Probe := { start := 2, first := a, second := b }

/-- What the clauses of `ShareProbesDecideStandInOrSplit` suppose can be met. -/
theorem witness_ShareProbesDecideStandInOrSplit :
    (∃ (s : State), s.chip.spi = [] ∧ (
      let x := s.chip.pair
      x.probe = none)) ∧
    (∃ (s : State) (t : Time), s.chip.spi = [] ∧ (
      let x := s.chip.pair
      let now := max s.chip.now t
      let repeats : Prop := x.split = true ∧ x.probe = none ∧ linkRuns s.chip = true ∧ ∃ t0, x.nextProbe = some t0 ∧ t0 ≤ now
      ¬repeats)) ∧
    (∃ (s : State) (t : Time), s.chip.spi = [] ∧ (
      let x := s.chip.pair
      let now := max s.chip.now t
      let repeats : Prop := x.split = true ∧ x.probe = none ∧ linkRuns s.chip = true ∧ ∃ t0, x.nextProbe = some t0 ∧ t0 ≤ now
      repeats)) ∧
    (∃ (s : State) (t : Time) (p : Probe) (k : Nat), s.chip.spi = [] ∧ (
      let x := s.chip.pair
      let now := max s.chip.now t
      x.probe = some p ∧ (
      let due (k : Nat) : Prop := p.start + probeWindow s.chip + us (300 * k) ≤ now
      (¬due k ∨ 2 < k)))) ∧
    (∃ (s : State) (t : Time) (p : Probe), s.chip.spi = [] ∧ (
      let x := s.chip.pair
      let now := max s.chip.now t
      x.probe = some p ∧ now < p.start + ms 2)) ∧
    (∃ (s : State) (t : Time) (p : Probe), s.chip.spi = [] ∧ (
      let x := s.chip.pair
      let now := max s.chip.now t
      x.probe = some p ∧ (
      let due (k : Nat) : Prop := p.start + probeWindow s.chip + us (300 * k) ≤ now
      due 0))) ∧
    (∃ (s : State) (t : Time) (p : Probe), s.chip.spi = [] ∧ (
      let x := s.chip.pair
      let now := max s.chip.now t
      x.probe = some p ∧ (
      let due (k : Nat) : Prop := p.start + probeWindow s.chip + us (300 * k) ≤ now
      due 1))) ∧
    (∃ (s : State) (t : Time) (p : Probe), s.chip.spi = [] ∧ (
      let x := s.chip.pair
      let now := max s.chip.now t
      x.probe = some p ∧ (
      let due (k : Nat) : Prop := p.start + probeWindow s.chip + us (300 * k) ≤ now
      due 2))) ∧
    (∃ (s : State) (t : Time), s.chip.spi = [] ∧ (
      let x := s.chip.pair
      let now := max s.chip.now t
      (x.probe.any fun p => decide (p.start + ms 2 ≤ now ∧ x.linkLost = false)) = true)) ∧
    (∃ (s : State) (t : Time), s.chip.spi = [] ∧ (
      let x := s.chip.pair
      let now := max s.chip.now t
      (x.probe.any fun p => decide (p.start + ms 2 ≤ now ∧ x.linkLost = true)) = true)) :=
  ⟨⟨md .coupled (pr id), by decide +kernel⟩,
   ⟨md .coupled (pr id), 0, by decide +kernel⟩,
   ⟨md .coupled (pr fun x => { x with split := true, nextProbe := some 3 }), 3, by decide +kernel⟩,
   ⟨md .coupled (pr fun x => { x with probe := some (pb none none) }), 0, pb none none, 0, by decide +kernel⟩,
   ⟨md .coupled (pr fun x => { x with probe := some (pb none none) }), 0, pb none none, by decide +kernel⟩,
   ⟨md .coupled (pr fun x => { x with probe := some (pb none none) }), us 203, pb none none, by decide +kernel⟩,
   ⟨md .coupled (pr fun x => { x with probe := some (pb none none) }), us 503, pb none none, by decide +kernel⟩,
   ⟨md .coupled (pr fun x => { x with probe := some (pb none none) }), us 803, pb none none, by decide +kernel⟩,
   ⟨md .coupled (pr fun x => { x with probe := some (pb none none) }), us 2002, by decide +kernel⟩,
   ⟨md .coupled (pr fun x => { x with probe := some (pb none none), linkLost := true }), us 2002, by decide +kernel⟩⟩

end Sys2Proof.Tests.Pairs

namespace Sys2Proof.Tests.Stickies

open Sys2Proof.Machine

/-- A sticky record `x`, with the journal open. -/
def rb (x : BitVec 160) (c : Chip) : Chip := { c with ret.sticky := x, jrn.opened := true }

/-- What the clauses of `DetectionsSetTheirBit` suppose can be met. -/
theorem witness_DetectionsSetTheirBit :
    (∃ (b k : Nat), b < 159 ∧ k ≠ b) ∧
    (∃ (c : Chip) (b : Nat), b < 159 ∧ c.ret.sticky.getLsbD b = false ∧ c.ret.sticky = 0) ∧
    (∃ (c : Chip) (b : Nat), b < 159 ∧ c.ret.sticky.getLsbD b = false ∧ c.ret.sticky ≠ 0) ∧
    (∃ (c : Chip) (b : Nat), b < 159 ∧ c.ret.sticky.getLsbD b = true) :=
  ⟨⟨158, 0, by decide +kernel⟩,
   ⟨(md .coupled).chip, 158, by decide +kernel⟩,
   ⟨(md .coupled (rb 8)).chip, 158, by decide +kernel⟩,
   ⟨(md .depot (rb (~~~ 0))).chip, 158, by decide +kernel⟩⟩

/-- What the clauses of `ClearedBitsReturnWhileTheirStateHolds` suppose can be met. -/
theorem witness_ClearedBitsReturnWhileTheirStateHolds :
    (∃ (b : Nat), b < 159) ∧
    (∃ (role : Role) (mask : BitVec 160) (c : Chip),
      let e := clearSticky role mask c
      e.ret.sticky ≠ c.ret.sticky) ∧
    (∃ (m : Mode), (m = Mode.depot ∨ m = Mode.limp)) ∧
    (∃ (s : State), s.chip.spi = [] ∧ (running s.chip = false ∨ s.chip.jrn.cleared = 0)) ∧
    (∃ (s : State), s.chip.spi = [] ∧ running s.chip = true ∧ s.chip.jrn.cleared ≠ 0) :=
  ⟨⟨158, by decide +kernel⟩,
   ⟨.owner, ~~~ 0, (md .depot (rb (~~~ 0))).chip, by decide +kernel⟩,
   ⟨.depot, by decide +kernel⟩,
   ⟨md .coupled, by decide +kernel⟩,
   ⟨md .coupled (fun c => { rb 8 c with jrn.cleared := 0x21 }), by decide +kernel⟩⟩

/-- The contract of guest 7 on spur 0. -/
def g7 : GuestCfg := { index := 7, spur := 0, side := false, beacon := true, cls := 0, period := 10, slotLen := 100, deadline := 40000, phase := 0, energy := 300, oasis := 1000, vmin := 8000, iMax := 100 }

/-- What the clauses of `GuestRecordsReadBack` suppose can be met. -/
theorem witness_GuestRecordsReadBack :
    ∃ (g : GuestCfg) (r : GuestRec), r.contract = guestBody g ∧ r.tab < 2 ^ 48 ∧ r.metered < 2 ^ 48 ∧ r.oasis < 2 ^ 32 ∧
      r.grants < 2 ^ 32 ∧ r.withheld < 2 ^ 16 ∧ r.refunded < 2 ^ 16 ∧ r.next < 2 ^ 32 ∧ r.reason < 2 ^ 8 ∧ r.writeSeq < 2 ^ 32 :=
  ⟨g7, { freshRec g7 with tab := 2 ^ 48 - 1, metered := 5, oasis := 2^32-1, grants := 77, withheld := 3, refunded := 65535, next := 9, reason := 255, writeSeq := 4, revoked := true }, by decide +kernel⟩

/-- What the clauses of `NvmReadsWhatWasWritten` suppose can be met. -/
theorem witness_NvmReadsWhatWasWritten :
    ∃ (m : Nvm) (a : Nat) (bs : List Byte) (k : Nat), m.wf = true ∧ (k < a ∨ a + bs.length ≤ k) :=
  ⟨[], 0, [], 0, by decide +kernel⟩

end Sys2Proof.Tests.Stickies

namespace Sys2Proof.Tests

open Sys2Proof.Machine

/-- What `EveryStepKeepsSound` supposes can be met. -/
theorem witness_EveryStepKeepsSound : ∃ s u : State, Sound s ∧ step s = .next u :=
  ⟨State.reset, { State.reset with chip := settle State.reset.chip }, ⟨by decide +kernel, by decide +kernel, by decide +kernel⟩, rfl⟩

/-- What the second clause of `OnlyTheWakeWatcherEndsShip` supposes can be met. -/
theorem witness_EndOfShip :
    ∃ (i : Instr) (s u : State), s.chip.seq.mode = .ship ∧ exec i s = .next u ∧ u.chip.seq.mode ≠ .ship :=
  ⟨.shipWake (sec 1) .a 8001 (ms 50) .opn, md .ship fun c => { c with ret.wakeArmed := true }, _, rfl, rfl, by decide +kernel⟩

/-- What `FixedOtpSlotsNeverChange` supposes can be met, with a slot that is fixed. -/
theorem witness_FixedOtpSlotsNeverChange :
    ∃ s u : State, (s.chip.otp.busy.isSome = true → s.chip.otp.pending.isSome = true) ∧
      (s.chip.otp.pending.isSome = true → fixedHash s.chip.otp.slot1 s.chip.otp.slot2 = none) ∧
      (s.chip.otp.busy = some 1 → s.chip.otp.slot1 = .blank) ∧
      (∀ k, s.chip.otp.busy = some k → k ≠ 1 → s.chip.otp.slot2 = .blank) ∧ step s = .next u ∧
      (fixedHash s.chip.otp.slot1 s.chip.otp.slot2).isSome = true :=
  ⟨md .coupled fun c => { c with otp.slot1 := .fixed [1] }, _, by decide +kernel, by decide +kernel, by decide +kernel,
    (fun k h => by cases h), rfl, by decide +kernel⟩

/-- What the clauses of `PinsTellFaultsAndCharging` suppose can be met: a step that ends with CHG_EN high, and one with it low. -/
theorem witness_PinsTellFaultsAndCharging :
    (∃ s u : State, step s = .next u ∧ u.chip.seq.mode = .coupled ∧ u.chip.pins.chgEn = true) ∧
    (∃ s u : State, step s = .next u ∧ u.chip.seq.mode = .configure ∧ u.chip.pins.chgEn = false) :=
  ⟨⟨md .coupled fun c => { c with pack.st := .charge }, _, rfl, by decide +kernel, by decide +kernel⟩,
   ⟨md .configure, _, rfl, by decide +kernel, by decide +kernel⟩⟩

end Sys2Proof.Tests

end
end

/-! The OTP (R93 … R97) through every step. The first part says of each function of the model that does not touch the OTP that
it leaves it as it is, down from the commands to the functions that they share. The second says what the others do to it: the
load of an image, the programming, its spoiling, and the resets. -/

namespace Sys2Proof.Machine

/-! ### Branches and folds -/

@[simp] theorem otp_ite (p : Prop) [Decidable p] (c d : Chip) : (if p then c else d).otp = if p then c.otp else d.otp :=
  apply_ite ..

/-- A fold whose steps leave the OTP leaves it. -/
@[simp] theorem foldl_otp {α : Type} {g : Chip → α → Chip} (h : ∀ c x, (g c x).otp = c.otp) (l : List α) (c : Chip) :
    (l.foldl g c).otp = c.otp := by
  induction l generalizing c with
  | nil => rfl
  | cons x l ih => simp [ih, h]

@[simp] theorem elim_otp {α : Type} {d : Chip} {g : α → Chip} (h : ∀ x, (g x).otp = d.otp) (o : Option α) :
    (o.elim d g).otp = d.otp := by
  cases o with
  | none => rfl
  | some x => exact h x

section
variable (nvm : Nvm) (n : Fin 8) (c : Chip)

/-! ### Free values -/

@[simp] theorem randomBytes_otp (n : Nat) : (randomBytes n c).2.otp = c.otp := rfl

/-- A pulse of a length that is left to chance draws a free value at most. -/
theorem pulse_otp (p : Prop) [Decidable p] : (if p then (true, c) else freePulse c).2.otp = c.otp := by split <;> rfl

/-! ### Frames on the links -/

@[simp] theorem canMessage_otp (prio kind : Nat) (msg : List Byte) : (canMessage prio kind msg c).otp = c.otp := by
  simp [canMessage]

@[simp] theorem kDrain_otp (fuel : Nat) (c : Chip) : (kDrain fuel c).otp = c.otp := by
  induction fuel generalizing c with
  | zero => rfl
  | succ fuel ih => unfold kDrain; split <;> simp [ih]

@[simp] theorem noteCommit_otp (f : KTx) : (noteCommit c f).otp = c.otp := rfl

@[simp] theorem kAck_otp (ack : Nat) : (kAck ack c).otp = c.otp := by
  have h := foldl_otp noteCommit_otp (c.pair.unacked.take (ackedCount ack c.pair.unacked)) c
  unfold kAck
  split <;> simp [h]

/-- The frames that a retransmission sends again leave the OTP. -/
theorem resent_otp (l : List KTx) : (l.foldl (fun c g => countSymbols g.rcd.payload.length c) c).otp = c.otp := by
  induction l generalizing c with
  | nil => rfl
  | cons g l ih => rw [List.foldl_cons, ih]; simp

@[simp] theorem kRepeat_otp : (kRepeat c).otp = c.otp := by
  unfold kRepeat
  cases c.pair.unacked.filter (repeats c) with
  | nil => rfl
  | cons f fs =>
    rw [otp_ite]
    split
    · exact resent_otp c (f :: fs)
    · rfl

/-! ### Messages between the gauges of a pair -/

@[simp] theorem sendSummary_otp : (sendSummary c).otp = c.otp := by simp [sendSummary]
@[simp] theorem sendLeaving_otp (cause : Nat) : (sendLeaving cause c).otp = c.otp := by simp [sendLeaving]

/-! ### The innkeeper -/

@[simp] theorem cellarWrite_otp (p : Nat) (r : GuestRec) : (cellarWrite c p r).1.otp = c.otp := by
  unfold cellarWrite; split <;> simp

@[simp] theorem setRooms_otp (rs : List Room) : (setRooms c rs).otp = c.otp := rfl
@[simp] theorem writeBack_otp (p : Nat) : (writeBack p c).otp = c.otp := by unfold writeBack; split <;> simp

@[simp] theorem modRecord_otp (mirror : Bool) (p : Nat) (f : GuestRec → GuestRec) :
    (modRecord nvm mirror p f c).otp = c.otp := by
  unfold modRecord; split <;> simp

@[simp] theorem admitGuests_otp : (admitGuests c).otp = c.otp := rfl

@[simp] theorem sendBeacon_otp (kind : Nat) (g : GuestCfg) (epoch start reason : Nat) :
    (sendBeacon kind g n epoch start reason c).otp = c.otp := by
  simp [sendBeacon]

@[simp] theorem updSlot_otp (start : Nat) (f : Slot → Slot) : (updSlot n start f c).otp = c.otp := rfl

@[simp] theorem cancelSlot_otp (s : Slot) (r : Reason) : (cancelSlot n s r c).otp = c.otp := by
  unfold cancelSlot; split <;> simp

@[simp] theorem recheckSpur_otp : (recheckSpur nvm n c).otp = c.otp :=
  foldl_otp (fun c s => by (repeat' split) <;> simp) _ c

@[simp] theorem recheckAll_otp : (recheckAll nvm c).otp = c.otp := by simp [recheckAll]
@[simp] theorem planOne_otp : (planOne n c).otp = c.otp := by unfold planOne; split <;> simp

@[simp] theorem planAhead_otp (n : Fin 8) (fuel : Nat) (c : Chip) : (planAhead n fuel c).otp = c.otp := by
  induction fuel generalizing c with
  | zero => rfl
  | succ fuel ih => simp [planAhead, ih]

@[simp] theorem noteNext_otp (p : Nat) : (noteNext nvm p c).otp = c.otp := by unfold noteNext; split <;> simp
@[simp] theorem notePinned_otp : (notePinned c).otp = c.otp := rfl
@[simp] theorem requestFill_otp (p : Nat) : (requestFill p c).otp = c.otp := by fun_cases requestFill <;> simp
@[simp] theorem prearmAll_otp : (prearmAll nvm c).otp = c.otp := by simp [prearmAll, prearmSpur, prearmSlot]

@[simp] theorem noteDecision_otp (g : Guest) (r : Reason) : (noteDecision nvm g r c).otp = c.otp := by
  unfold noteDecision; split <;> simp

@[simp] theorem settleDue_otp (p : Nat) : (settleDue p c).otp = c.otp := by unfold settleDue; split <;> simp
@[simp] theorem withhold_otp (s : Slot) (g : Guest) (r : Reason) : (withhold nvm n s g r c).otp = c.otp := by simp [withhold]

@[simp] theorem grantSlot_otp (s : Slot) (g : Guest) (boundary : Bool) : (grantSlot nvm n s g boundary c).otp = c.otp := by
  unfold grantSlot; (repeat' split) <;> simp

@[simp] theorem beaconStart_otp (g : Guest) : (beaconStart g c).otp = c.otp := by simp [beaconStart]

@[simp] theorem finalDecision_otp (boundary : Bool) : (finalDecision nvm n boundary c).otp = c.otp := by
  fun_cases finalDecision <;> simp +zetaDelta

@[simp] theorem holdSpur_otp : (holdSpur nvm n c).otp = c.otp := by unfold holdSpur; split <;> simp
@[simp] theorem refundRunning_otp : (refundRunning n c).otp = c.otp := by unfold refundRunning; split <;> simp

@[simp] theorem chargeSlot_otp (s : Slot) (e : Nat) : (chargeSlot nvm n s e c).otp = c.otp := by
  simp only [chargeSlot]; (repeat' split) <;> simp

@[simp] theorem refillLoop_otp (nvm : Nvm) (gs : List (Guest × GuestRec)) (left : Nat) (c : Chip) :
    (refillLoop nvm gs left c).otp = c.otp := by
  induction gs generalizing left c with
  | nil => rfl
  | cons g gs ih => simp [refillLoop, ih]

@[simp] theorem innHandOver_otp : (innHandOver nvm c).otp = c.otp := by simp [innHandOver]
@[simp] theorem writeBackAll_otp : (writeBackAll c).otp = c.otp := by simp [writeBackAll]

theorem evict_otp {c d : Chip} (h : evict c = some d) : d.otp = c.otp := by
  simp only [evict] at h
  split at h
  · cases h; rfl
  · split at h <;> cases h; simp

theorem takeRoom_otp {nvm : Nvm} {g : Guest} {c d : Chip} (h : takeRoom nvm g c = some d) : d.otp = c.otp := by
  obtain ⟨e, he, rfl⟩ := Option.map_eq_some_iff.mp h
  simp [evict_otp he]

@[simp] theorem fillDone_otp : (fillDone nvm c).otp = c.otp := by
  fun_cases fillDone with
  | case4 _ _ _ _ _ _ d h => exact (takeRoom_otp h : d.otp = c.otp)
  | _ => rfl

@[simp] theorem openRooms_otp : (openRooms nvm n c).otp = c.otp := by
  refine foldl_otp (fun c s => ?_) _ c
  split
  · rfl
  · cases h : (guestAt c s.pos).bind fun g => takeRoom nvm g c with
    | none => rfl
    | some d =>
      obtain ⟨g, -, hd⟩ := Option.bind_eq_some_iff.mp h
      exact takeRoom_otp hd

/-! ### Learning -/

@[simp] theorem tagEvent_otp (cause : Nat) : (tagEvent cause c).otp = c.otp := by simp [tagEvent]

@[simp] theorem pairAnchors_otp (old new : HeldAnchor) : (pairAnchors old new c).1.otp = c.otp := by
  fun_cases pairAnchors <;> simp +zetaDelta

@[simp] theorem learnAnchor_otp (a : HeldAnchor) : (learnAnchor a c).otp = c.otp := by
  simp only [learnAnchor]
  split
  · rfl
  · split
    · cases c.learn.high <;> simp
    · cases c.learn.low <;> simp

@[simp] theorem learnQty_otp (j : Nat) (xm z : Rat) : (learnQty j xm z c).otp = c.otp := by simp [learnQty]
@[simp] theorem impAbandon_otp : (impAbandon c).otp = c.otp := rfl
@[simp] theorem impStep_otp (w : Sample) : (impStep w c).otp = c.otp := by unfold impStep; split <;> simp
@[simp] theorem impWord_otp (w : Sample) : (impWord w c).otp = c.otp := by fun_cases impWord <;> simp
@[simp] theorem noteImp_otp (phase : Nat) (r : ImpRun) (i1 : Rat) : (noteImp phase r i1 c).otp = c.otp := rfl
@[simp] theorem impPhaseEnd_otp : (impPhaseEnd c).otp = c.otp := by fun_cases impPhaseEnd <;> simp +zetaDelta

/-! ### The estimator -/

@[simp] theorem kalman_otp (nu rn : Rat) : (kalman nu rn c).otp = c.otp := rfl
@[simp] theorem applyAnchor_otp : (applyAnchor c).otp = c.otp := by unfold applyAnchor; split <;> simp
@[simp] theorem fullZ_otp : (fullZ c).otp = c.otp := rfl

@[simp] theorem estimatorPass_otp : (estimatorPass c).otp = c.otp := by
  simp [estimatorPass, predict, voltageUpdate, adaptNoise, reseed, applyAnchorBeside]

@[simp] theorem restSecond_otp : (restSecond c).otp = c.otp := by simp only [restSecond]; (repeat' split) <;> simp
@[simp] theorem anchorDue_otp : (anchorDue c).otp = c.otp := by unfold anchorDue; (repeat' split) <;> simp

@[simp] theorem chooseProfile_otp : (chooseProfile c).otp = c.otp := by
  simp only [chooseProfile]; cases (cfg c).profile <;> cases c.tag.profile <;> simp

@[simp] theorem chooseCandidate_otp (c : Chip) (v0 zV : Rat) (sV : Option Rat) (xs : List Candidate) (d : Chip) :
    (chooseCandidate c v0 zV sV xs d).2.otp = d.otp := by
  induction xs generalizing d with
  | nil => rfl
  | cons x xs ih => unfold chooseCandidate; split <;> simp [ih]

@[simp] theorem chooseFcc_otp : (chooseFcc nvm c).otp = c.otp := by fun_cases chooseFcc <;> simp
@[simp] theorem chooseImp_otp : (chooseImp c).otp = c.otp := rfl
@[simp] theorem chooseCycles_otp : (chooseCycles nvm c).otp = c.otp := by simp [chooseCycles]
@[simp] theorem startEstimator_otp (z0 p0 : Rat) : (startEstimator z0 p0 c).otp = c.otp := rfl

@[simp] theorem firstEstimateCore_otp : (firstEstimateCore nvm c).1.otp = c.otp := by
  unfold firstEstimateCore
  extract_lets c1 _ c2 n v i v0 zV sV
  have h2 : c2.otp = c.otp := by simp [c2, c1]
  have h := chooseCandidate_otp c2 v0 zV sV (candidates nvm c2) c2
  clear_value c2 zV sV v0
  rcases hg : chooseCandidate c2 v0 zV sV (candidates nvm c2) c2 with ⟨_ | x, d⟩ <;> rw [hg, h2] at h <;> simpa using h

/-! ### The reported figures -/

@[simp] theorem formTarget_otp : (formTarget c).otp = c.otp := rfl
@[simp] theorem setSoc_otp (x : Rat) : (setSoc x c).otp = c.otp := rfl
@[simp] theorem formFigures_otp : (formFigures c).otp = c.otp := rfl
@[simp] theorem handOver_otp : (handOver nvm c).otp = c.otp := by simp [handOver, formTte, formTtf]
@[simp] theorem limpReport_otp : (limpReport c).otp = c.otp := rfl

/-! ### Temperature and presence -/

@[simp] theorem setTs_otp (k : TsId) (x : Sensor) : (setTs k x c).otp = c.otp := by unfold setTs; split <;> simp
@[simp] theorem updAux_otp (i : Nat) (f : AuxCh → AuxCh) : (updAux i f c).otp = c.otp := rfl
@[simp] theorem declareRemoved_otp : (declareRemoved c).otp = c.otp := rfl
@[simp] theorem failOpen_otp (k : TsId) : (failOpen k c).otp = c.otp := by simp [failOpen]
@[simp] theorem failShort_otp (k : TsId) : (failShort k c).otp = c.otp := by simp [failShort]
@[simp] theorem judgePresence_otp : (judgePresence c).2.otp = c.otp := by unfold judgePresence; (repeat' split) <;> simp
@[simp] theorem startVerdict_otp : (startVerdict c).otp = c.otp := rfl
@[simp] theorem ts2Counts_otp (st : Status) : (ts2Counts st c).otp = c.otp := by unfold ts2Counts; split <;> simp

@[simp] theorem countOpens_otp (k : TsId) (st : Status) (pendingBefore : Bool) :
    (countOpens k st pendingBefore c).otp = c.otp := by
  unfold countOpens; split <;> simp

@[simp] theorem judgeWire_otp (k : TsId) (st : Status) (pendingBefore : Bool) :
    (judgeWire k st pendingBefore c).otp = c.otp := by
  unfold judgeWire; (repeat' split) <;> simp

@[simp] theorem tsSample_otp (k : TsId) (st : Status) (ratio : Rat) (opens : Nat) :
    (tsSample k st ratio opens c).otp = c.otp := by
  unfold tsSample; (repeat' split) <;> simp [ts1Open, ts1Valid]

@[simp] theorem dieSample_otp (st : Status) (code : Nat) : (dieSample st code c).otp = c.otp := by
  unfold dieSample; split <;> simp [dieRate]

@[simp] theorem formPack_otp : (formPack c).otp = c.otp := by unfold formPack; split <;> simp
@[simp] theorem markX_otp (failed : Bool) (ns : List Nat) : (markX failed ns c).otp = c.otp := rfl
@[simp] theorem isoCheck_otp : (isoCheck c).otp = c.otp := by simp only [isoCheck]; split <;> simp

/-! ### Spurs -/

@[simp] theorem takeGroup_otp : (takeGroup n c).otp = c.otp := by simp [takeGroup]
@[simp] theorem dieCriticalSlots_otp : (dieCriticalSlots nvm c).otp = c.otp := by simp [dieCriticalSlots]
@[simp] theorem noteFail_otp (cause : Nat) : (noteFail n cause c).otp = c.otp := by simp [noteFail]
@[simp] theorem cutSpur_otp (cause : Nat) : (cutSpur nvm n cause c).otp = c.otp := by simp [cutSpur]
@[simp] theorem spurFail_otp (cause : Nat) (bits : List Nat) : (spurFail nvm n cause bits c).otp = c.otp := by simp [spurFail]
@[simp] theorem blockSpur_otp : (blockSpur nvm n c).otp = c.otp := by simp [blockSpur]
@[simp] theorem diagnose_otp (isOpen : Bool) : (diagnose n isOpen c).otp = c.otp := by simp [diagnose]

@[simp] theorem slotDiagnosis_otp : (slotDiagnosis n c).otp = c.otp := by
  simp only [slotDiagnosis]; cases onMean (spur c n) <;> simp

@[simp] theorem rampReads_otp (i : Rat) (dt : Time) : (rampReads n i dt c).otp = c.otp := by
  fun_cases rampReads <;> simp [softStartAdapt]

@[simp] theorem readMade_otp (k : EdgeKind) : (readMade k n c).otp = c.otp := rfl

@[simp] theorem spurCurrentValid_otp (i : Rat) : (spurCurrentValid nvm n i c).otp = c.otp := by
  simp [spurCurrentValid, followTotals, checkOverdraw, checkContinuous]

@[simp] theorem spurCurrentLost_otp : (spurCurrentLost n c).otp = c.otp := rfl
@[simp] theorem spurMetered_otp (i : Option Rat) : (spurMetered nvm n i c).otp = c.otp := by cases i <;> simp [spurMetered]
@[simp] theorem slotEnd_otp : (slotEnd nvm n c).otp = c.otp := by unfold slotEnd; split <;> simp
@[simp] theorem slotStart_otp : (slotStart n c).otp = c.otp := rfl
@[simp] theorem spurRead_otp (i : Option Rat) : (spurRead nvm n i c).otp = c.otp := by simp only [spurRead]; split <;> simp
@[simp] theorem spurVoltageValid_otp (v : Rat) : (spurVoltageValid nvm n v c).otp = c.otp := by simp [spurVoltageValid]
@[simp] theorem configureSpurs_otp : (configureSpurs c).otp = c.otp := by simp [configureSpurs]

@[simp] theorem rampComplete_otp (others : List (Fin 8 × Int)) : (rampComplete nvm n others c).otp = c.otp := by
  fun_cases rampComplete <;> simp [tieRuntime]

@[simp] theorem limitHeld_otp (durNs : Nat) : (limitHeld nvm n durNs c).otp = c.otp := by
  fun_cases limitHeld <;> simp [limitFail]

@[simp] theorem rampDeadline_otp (mv : Int) : (rampDeadline nvm n mv c).otp = c.otp := by fun_cases rampDeadline <;> simp
@[simp] theorem retryExpiry_otp : (retryExpiry n c).otp = c.otp := by simp [retryExpiry]
@[simp] theorem probeSuccess_otp : (probeSuccess n c).otp = c.otp := by fun_cases probeSuccess <;> simp

@[simp] theorem continuousDiagnosis_otp (mv : Int) : (continuousDiagnosis n mv c).otp = c.otp := by
  simp only [continuousDiagnosis]; (repeat' split) <;> simp

@[simp] theorem totalOverload_otp : (totalOverload nvm c).otp = c.otp := by simp only [totalOverload]; (repeat' split) <;> simp

/-! ### Counting -/

@[simp] theorem followGap_otp (st : Status) : (followGap st c).otp = c.otp := by unfold followGap; split <;> simp
@[simp] theorem spanToWait_otp (d : Nat) : (spanToWait d c).otp = c.otp := by unfold spanToWait; split <;> simp
@[simp] theorem countCharge_otp (w : Sample) : (countCharge w c).otp = c.otp := by fun_cases countCharge <;> simp [takeCharge]
@[simp] theorem countDuty_otp : (countDuty c).otp = c.otp := by simp [countDuty]
@[simp] theorem burstReads_otp : (burstReads c).otp = c.otp := rfl
@[simp] theorem startBurst_otp : (startBurst c).otp = c.otp := by simp [startBurst]
@[simp] theorem burstEnd_otp : (burstEnd c).otp = c.otp := by unfold burstEnd; split <;> simp
@[simp] theorem governorWindow_otp (start : Bool) : (governorWindow start c).otp = c.otp := by fun_cases governorWindow <;> simp
@[simp] theorem countGap_otp : (countGap c).otp = c.otp := by unfold countGap; split <;> simp
@[simp] theorem firstEstimate_otp : (firstEstimate nvm c).otp = c.otp := by simp [firstEstimate, firstReport]

/-! ### The pack path -/

@[simp] theorem followCarrying_otp : (followCarrying c).otp = c.otp := rfl
@[simp] theorem noteEnd_otp (cause : Nat) : (noteEnd cause c).otp = c.otp := rfl
@[simp] theorem handBack_otp : (handBack c).otp = c.otp := by simp [handBack]
@[simp] theorem driveSetpoint_otp : (driveSetpoint c).otp = c.otp := rfl
@[simp] theorem enterCharge_otp (span : Bool) : (enterCharge span c).otp = c.otp := rfl
@[simp] theorem chargeStart_otp : (chargeStart c).otp = c.otp := by unfold chargeStart; split <;> simp
@[simp] theorem limitStep_otp (term : LimitTerm) : (limitStep term c).otp = c.otp := by fun_cases limitStep <;> simp

@[simp] theorem chargerFault_otp (kind : ChgKind) : (chargerFault kind c).otp = c.otp := by
  unfold chargerFault; (repeat' split) <;> simp

@[simp] theorem packMirageCheck_otp : (packMirageCheck c).otp = c.otp := by fun_cases packMirageCheck <;> simp
@[simp] theorem packPathPresent_otp : (packPathPresent c).otp = c.otp := by simp [packPathPresent]
@[simp] theorem declareEoc_otp : (declareEoc c).otp = c.otp := by simp [declareEoc]
@[simp] theorem eocCheck_otp : (eocCheck c).otp = c.otp := by simp only [eocCheck]; (repeat' split) <;> simp

/-! ### The tag -/

@[simp] theorem pendDone_otp (op : Nat) (out : Nat × List Byte) : (pendDone op out c).otp = c.otp := by
  unfold pendDone; split <;> simp

@[simp] theorem toolDone_otp (bs : Option (List Byte)) : (toolDone bs c).otp = c.otp := by simp [toolDone]
@[simp] theorem endAdoption_otp : (endAdoption c).otp = c.otp := rfl
@[simp] theorem endExchange_otp : (endExchange c).otp = c.otp := rfl
@[simp] theorem probeSilent_otp : (probeSilent c).otp = c.otp := rfl
@[simp] theorem verdictFails_otp (reason : Nat) : (verdictFails reason c).otp = c.otp := by simp [verdictFails]
@[simp] theorem verdictSilent_otp : (verdictSilent c).otp = c.otp := by simp [verdictSilent]
@[simp] theorem headerRead_otp (h : List Byte) : (headerRead h c).otp = c.otp := by simp [headerRead]
@[simp] theorem exchangeTxn_otp (bs : List Byte) : (exchangeTxn bs c).otp = c.otp := by simp only [exchangeTxn]; split <;> simp
@[simp] theorem responsePoll_otp : (responsePoll c).otp = c.otp := by unfold responsePoll; split <;> simp
@[simp] theorem takeSlots_otp (bs : List Byte) : (takeSlots bs c).otp = c.otp := rfl
@[simp] theorem nextSlot_otp : (nextSlot c).otp = c.otp := by unfold nextSlot; split <;> simp
@[simp] theorem slotBad_otp : (slotBad c).otp = c.otp := by simp [slotBad]

@[simp] theorem adoptionTxn_otp (cmd : TagCmd) (bs : List Byte) : (adoptionTxn cmd bs c).otp = c.otp := by
  fun_cases adoptionTxn <;> simp +zetaDelta

@[simp] theorem verified_otp : (verified c).otp = c.otp := by
  unfold verified; (repeat' split) <;> simp [verdictAuthentic, startAdoption, markSlot, adoptRecord]

@[simp] theorem writeStep1_otp (w : TagWrite) : (writeStep1 w c).otp = c.otp := rfl

@[simp] theorem writeEnd_otp (ok answering : Bool) (w : TagWrite) : (writeEnd ok answering w c).otp = c.otp := by
  simp [writeEnd]

@[simp] theorem writeSig_otp (w : TagWrite) : (writeSig w c).otp = c.otp := by unfold writeSig; split <;> simp
@[simp] theorem recordSigned_otp : (recordSigned c).otp = c.otp := by unfold recordSigned; split <;> simp
@[simp] theorem commitWait_otp : (commitWait c).otp = c.otp := by unfold commitWait; split <;> simp
@[simp] theorem packGone_otp : (packGone c).otp = c.otp := by simp [packGone, packPathRemoved, dropPack, dropWrites]

@[simp] theorem settlePresence_otp : (settlePresence c).otp = c.otp := by
  have h := judgePresence_otp c
  unfold settlePresence
  split <;> simp_all

@[simp] theorem packComes_otp : (packComes c).otp = c.otp := by simp [packComes, declarePresent, startCounter]
@[simp] theorem packPresent_otp (why : Option ProbeWhy) : (packPresent why c).otp = c.otp := by simp [packPresent]
@[simp] theorem followPresence_otp : (followPresence c).otp = c.otp := by simp [followPresence]

@[simp] theorem writeTxn_otp (w : TagWrite) (bs : List Byte) : (writeTxn w bs c).otp = c.otp := by
  unfold writeTxn; split <;> simp [packRemoved]

@[simp] theorem txnFails_otp (cmd : TagCmd) (absent : Bool) : (txnFails cmd absent c).otp = c.otp := by
  simp only [txnFails]; (repeat' split) <;> simp

@[simp] theorem endTxn_otp (res : TagResult) : (endTxn res c).otp = c.otp := by unfold endTxn; (repeat' split) <;> simp

@[simp] theorem tableProbed_otp (why : ProbeWhy) (answered : Bool) : (tableProbed why answered c).otp = c.otp := by
  unfold tableProbed; split <;> simp [startExchange, configureAnswered]

@[simp] theorem tagProbe_otp (answered : Bool) : (tagProbe answered c).otp = c.otp := by
  fun_cases tagProbe <;> simp [noteProbe, noteSeries, ts1Probed]

@[simp] theorem cutWire_otp : (cutWire c).otp = c.otp := by unfold cutWire; split <;> simp
@[simp] theorem driverResume_otp : (driverResume c).otp = c.otp := by unfold driverResume; split <;> simp

/-! ### Modes -/

@[simp] theorem startShut_otp (cause : ShutCause) : (startShut cause nvm c).otp = c.otp := by simp [startShut]
@[simp] theorem abortShut_otp : (abortShut c).otp = c.otp := by simp [abortShut]
@[simp] theorem dueShut_otp : (dueShut nvm c).otp = c.otp := by simp [dueShut]

@[simp] theorem dropSession_otp (byGauge : Bool) (h : Nat) : (dropSession byGauge h c).otp = c.otp := by
  unfold dropSession; split <;> simp

@[simp] theorem putTarget_otp (off : Nat) (bs : List Byte) : (putTarget off bs c).otp = c.otp := by simp [putTarget]
@[simp] theorem abandonCheck_otp : (abandonCheck c).otp = c.otp := by simp [abandonCheck]
@[simp] theorem dropCheck_otp : (dropCheck c).otp = c.otp := by simp [dropCheck]
@[simp] theorem enterParked_otp : (enterParked nvm c).otp = c.otp := by simp [enterParked, dropDepot]
@[simp] theorem followRail_otp : (followRail nvm c).otp = c.otp := by simp [followRail, followSpurs, parkIfAlone]
@[simp] theorem feedGone_otp : (feedGone nvm c).otp = c.otp := by simp [feedGone, abandonImage]

/-! ### Feeds -/

@[simp] theorem feedFail_otp (f : FeedId) (cause : Nat) : (feedFail f cause nvm c).otp = c.otp := by simp [feedFail]
@[simp] theorem delayOver_otp (f : FeedId) : (delayOver f c).otp = c.otp := by simp [delayOver]
@[simp] theorem watchCheck_otp (f : FeedId) : (watchCheck f c).otp = c.otp := by simp [watchCheck]
@[simp] theorem feedWatch_otp (f : FeedId) : (feedWatch f c).otp = c.otp := by simp [feedWatch]

@[simp] theorem windowLeft_otp (f : FeedId) (cause : Nat) : (windowLeft f cause nvm c).otp = c.otp := by
  unfold windowLeft; split <;> simp

@[simp] theorem windowCrossing_otp (f : FeedId) (mv : Int) (durNs : Nat) : (windowCrossing f mv durNs nvm c).otp = c.otp := by
  simp [windowCrossing]

@[simp] theorem inrushFail_otp (f : FeedId) : (inrushFail f nvm c).otp = c.otp := by unfold inrushFail; split <;> simp
@[simp] theorem governorUpdate_otp (f : FeedId) : (governorUpdate f c).otp = c.otp := by unfold governorUpdate; split <;> simp
@[simp] theorem inrushTimeout_otp (f : FeedId) : (inrushTimeout f nvm c).otp = c.otp := by unfold inrushTimeout; split <;> simp
@[simp] theorem inrushWord_otp (f : FeedId) (i : Rat) : (inrushWord f i c).otp = c.otp := by unfold inrushWord; split <;> simp
@[simp] theorem setTrip_otp (k : TripId) (x : Trip) : (setTrip k x c).otp = c.otp := by unfold setTrip; split <;> simp
@[simp] theorem endPulse_otp (k : TripId) : (endPulse k c).otp = c.otp := by unfold endPulse; split <;> simp

@[simp] theorem feedConfirmed_otp (f : FeedId) : (feedConfirmed f nvm c).otp = c.otp := by
  fun_cases feedConfirmed <;> simp +zetaDelta

@[simp] theorem feedRefuted_otp (f : FeedId) : (feedRefuted f c).otp = c.otp := by fun_cases feedRefuted <;> simp +zetaDelta
@[simp] theorem packConfirmed_otp : (packConfirmed c).otp = c.otp := by simp [packConfirmed]
@[simp] theorem packRefuted_otp : (packRefuted c).otp = c.otp := by simp [packRefuted]

@[simp] theorem tripVerdict_otp (k : TripId) (sum : Nat) : (tripVerdict k sum nvm c).otp = c.otp := by
  fun_cases tripVerdict <;> simp +zetaDelta

@[simp] theorem feedMirageFound_otp (f : FeedId) : (feedMirageFound f nvm c).otp = c.otp := by
  fun_cases feedMirageFound <;> simp +zetaDelta

@[simp] theorem feedMirageCheck_otp (f : FeedId) : (feedMirageCheck f nvm c).otp = c.otp := by
  unfold feedMirageCheck; split <;> simp

@[simp] theorem kelvinStart_otp (k : TripId) : (kelvinStart k c).otp = c.otp := by fun_cases kelvinStart <;> simp
@[simp] theorem kelvinWord_otp (ch : ChId) (uv : Rat) : (kelvinWord ch uv c).otp = c.otp := by unfold kelvinWord; split <;> simp
@[simp] theorem setKelvinOpen_otp (k : TripId) (o : Bool) : (setKelvinOpen k o c).otp = c.otp := by simp [setKelvinOpen]
@[simp] theorem feedKelvinOpen_otp (f : FeedId) (k : TripId) : (feedKelvinOpen f k c).otp = c.otp := by simp [feedKelvinOpen]
@[simp] theorem feedKelvinPass_otp (f : FeedId) (k : TripId) : (feedKelvinPass f k c).otp = c.otp := by simp [feedKelvinPass]
@[simp] theorem packKelvinOpen_otp : (packKelvinOpen c).otp = c.otp := by simp [packKelvinOpen]
@[simp] theorem packKelvinPass_otp : (packKelvinPass c).otp = c.otp := by simp [packKelvinPass]
@[simp] theorem kelvinEnd_otp (k : TripId) : (kelvinEnd k c).otp = c.otp := by cases k <;> simp [kelvinEnd]

/-! ### Measurement -/

@[simp] theorem modReturns_otp (modOk : Bool) : (modReturns modOk c).otp = c.otp := by simp [modReturns]

@[simp] theorem useFast_otp (ch : ChId) (w : Sample) : (useFast ch w nvm c).otp = c.otp := by
  unfold useFast; split <;> simp [followQuiet, followDrop, feedFast, packFast, noteBus3]

@[simp] theorem calAdd_otp (v : Rat) : (calAdd v c).otp = c.otp := by simp [calAdd]
@[simp] theorem packPair_otp : (packPair c).otp = c.otp := by simp [packPair, meterPackPair, countV0]

@[simp] theorem countWord_otp (w : Sample) : (countWord w c).otp = c.otp := by
  simp only [countWord, countCharge_otp, followGap_otp]

@[simp] theorem prechargeWord_otp (i : Rat) : (prechargeWord i c).otp = c.otp := by unfold prechargeWord; split <;> rfl

@[simp] theorem followPack_otp : (followPack c).otp = c.otp := rfl

@[simp] theorem feedMeter_otp (f : FeedId) (i v : Sample) : (feedMeter f i v c).otp = c.otp := by
  simp only [feedMeter, updFeed_frame]

@[simp] theorem meterFeed_otp (f : FeedId) : (meterFeed f c).otp = c.otp := by
  simp only [meterFeed, otp_ite, feedMeter_otp, ite_self]

@[simp] theorem usePrecise_otp (ch : ChId) (w : Sample) : (usePrecise ch w c).otp = c.otp := by
  cases ch with
  | iA => simp only [usePrecise, meterFeed_otp, followCarrying_otp]
  | iB => simp only [usePrecise, meterFeed_otp, followCarrying_otp]
  | iP => simp only [usePrecise, followPack_otp, otp_ite, prechargeWord_otp, packPair_otp, countWord_otp, ite_self]
  | vBus => simp only [usePrecise, followPack_otp, meterFeed_otp]
  | vPack => simp [usePrecise]

@[simp] theorem holdOffset_otp (ch : ChId) (o : Rat) : (holdOffset ch o c).otp = c.otp := by simp [holdOffset]
@[simp] theorem endSpan_otp : (endSpan c).otp = c.otp := by simp [endSpan]
@[simp] theorem canOff_otp : (canOff c).otp = c.otp := rfl

/-! ### The auxiliary ADC -/

@[simp] theorem auxAdvance_otp (k : Nat) (again : Bool) : (auxAdvance k again c).otp = c.otp := by simp [auxAdvance]

@[simp] theorem storeSample_otp (k : Nat) (st : Status) (code : Nat) : (storeSample k st code c).otp = c.otp := by
  simp [storeSample, noteInterval]

@[simp] theorem afterTemp_otp : (afterTemp nvm c).otp = c.otp := by
  simp [afterTemp, recomputeTemp, formDie, formBoard, indicatePack, indicateBoard]

@[simp] theorem limpConversion_otp (k : TsId) : (limpConversion k c).otp = c.otp := by unfold limpConversion; split <;> simp

@[simp] theorem tsArrives_otp (k : TsId) (st : Status) (ratio : Rat) : (tsArrives k st ratio nvm c).otp = c.otp := by
  simp [tsArrives]

@[simp] theorem judgeHoldup_otp (mv : Rat) : (judgeHoldup mv c).otp = c.otp := by simp [judgeHoldup]
@[simp] theorem judgeCore_otp (code : Nat) : (judgeCore code c).otp = c.otp := by simp [judgeCore]

@[simp] theorem rangeAfter_otp (k : Nat) (st : Status) (above : Bool) (code : Nat) :
    (rangeAfter k st above code c).2.otp = c.otp := by
  simp [rangeAfter]

@[simp] theorem tsBiasFault_otp (k : TsId) (ppm : Nat) : (tsBiasFault k ppm nvm c).otp = c.otp := by
  unfold tsBiasFault; split <;> simp

/-! ### The sticky record -/

@[simp] theorem clearSticky_otp (r : Role) (mask : BitVec 160) : (clearSticky r mask c).otp = c.otp := by simp [clearSticky]

/-! ### The journal -/

@[simp] theorem beginCommit_otp (retried : Bool) (start : Time) : (beginCommit retried start nvm c).otp = c.otp := by
  unfold beginCommit; split <;> simp

@[simp] theorem commitFails_otp (r : Commit) : (commitFails r nvm c).otp = c.otp := by simp [commitFails]
@[simp] theorem portFree_otp : (portFree nvm c).otp = c.otp := by fun_cases portFree <;> simp
@[simp] theorem commitEnds_otp (r : Commit) : (commitEnds r c).otp = c.otp := rfl
@[simp] theorem spoiled_otp (bs : List Byte) : (spoiled bs c).2.otp = c.otp := rfl

@[simp] theorem writeComplete_otp (ok : Bool) : (writeComplete ok nvm c).otp = c.otp := by
  simp only [writeComplete]
  (repeat' split) <;> cases ok <;> simp

@[simp] theorem writeTimeout_otp : (writeTimeout nvm c).otp = c.otp := by
  simp only [writeTimeout]
  (repeat' split) <;> simp

@[simp] theorem powerLossCommit_otp (writesDone : Nat) : (powerLossCommit writesDone nvm c).otp = c.otp := by
  fun_cases powerLossCommit <;> simp +zetaDelta

/-! ### Pairs -/

@[simp] theorem kDiscard_otp : (kDiscard c).otp = c.otp := rfl

@[simp] theorem kFrame_otp {act : Chip → Chip} (h : ∀ c, (act c).otp = c.otp) (len : Nat) (ok : Chip → KersorFrame → Bool)
    (f : KersorFrame) (c : Chip) : (kFrame len ok f act c).otp = c.otp := by
  simp [kFrame, h]

@[simp] theorem kRecord_otp {act : Chip → Chip} (h : ∀ c, (act c).otp = c.otp) (len : Nat) (f : KersorFrame) (c : Chip) :
    (kRecord len f act c).otp = c.otp :=
  kFrame_otp (fun c => by simp [h]) ..

@[simp] theorem standInNow_otp : (standInNow c).otp = c.otp := rfl
@[simp] theorem startProbe_otp : (startProbe c).otp = c.otp := rfl
@[simp] theorem declareLoss_otp : (declareLoss c).otp = c.otp := by simp [declareLoss]
@[simp] theorem probePhase_otp (phase code : Nat) : (probePhase phase code c).otp = c.otp := by fun_cases probePhase <;> simp

@[simp] theorem probeDecision_otp : (probeDecision c).otp = c.otp := by
  unfold probeDecision; split <;> simp [applyVerdict, nextSplitProbe]

@[simp] theorem sendRecordsEnd_otp (n : Nat) : (sendRecordsEnd n c).otp = c.otp := by simp [sendRecordsEnd]

@[simp] theorem withdrawSpur_otp : (withdrawSpur n c).otp = c.otp := by
  simp only [withdrawSpur, updSpurInn_frame]
  exact foldl_otp (fun c s => by split <;> simp) _ c

@[simp] theorem singlesGuests_otp (mute : Bool) : (singlesGuests mute c).otp = c.otp := rfl
@[simp] theorem becomeSingles_otp : (becomeSingles c).otp = c.otp := rfl
@[simp] theorem answerJoin_otp : (answerJoin c).otp = c.otp := by simp [answerJoin]
@[simp] theorem takeRestore_otp (p : List Byte) : (takeRestore p c).otp = c.otp := by unfold takeRestore; split <;> simp

/-! ### SHIP requests and shut-down -/

@[simp] theorem armShip_otp (byPin : Bool) : (armShip byPin c).otp = c.otp := rfl
@[simp] theorem shipRequest_otp (byPin : Bool) : (shipRequest byPin nvm c).otp = c.otp := by simp [shipRequest]
@[simp] theorem shipN_otp (lowNs : Nat) : (shipN lowNs nvm c).otp = c.otp := by simp [shipN, pulse_otp]
@[simp] theorem shipLapse_otp (high : Bool) : (shipLapse high c).otp = c.otp := by unfold shipLapse; split <;> simp
@[simp] theorem joinWrite_otp (w0 : TagWrite) : (joinWrite w0 c).otp = c.otp := by fun_cases joinWrite <;> simp +zetaDelta
@[simp] theorem shutTagWrite_otp : (shutTagWrite c).otp = c.otp := by fun_cases shutTagWrite <;> simp
@[simp] theorem shutFeed_otp (f : FeedId) : (shutFeed f c).otp = c.otp := by simp [shutFeed]
@[simp] theorem shutPaths_otp : (shutPaths c).otp = c.otp := by simp [shutPaths]

@[simp] theorem shutNext_otp (k : Nat) : (shutNext k nvm c).otp = c.otp := by
  unfold shutNext; split <;> simp [shutCommit, shutRail]

/-! ### CONFIGURE -/

@[simp] theorem openJournal_otp (m : RegionMap) : (openJournal m nvm c).otp = c.otp := by
  simp only [openJournal, setFaultIf_frame]; split <;> rfl

@[simp] theorem setResult_otp (id : CopyId) (r : CopyResult) : (setResult id r c).otp = c.otp := by
  unfold setResult; split <;> simp

@[simp] theorem armFeed_otp (f : FeedId) : (armFeed f c).otp = c.otp := by simp [armFeed]
@[simp] theorem takeLimpPath_otp (cause : LimpCause) : (takeLimpPath cause c).otp = c.otp := by simp [takeLimpPath]
@[simp] theorem nextStep_otp (k : Nat) : (nextStep k c).otp = c.otp := rfl
@[simp] theorem endWakeUp_otp (xtalHz : Nat) : (endWakeUp xtalHz c).otp = c.otp := rfl

@[simp] theorem endSelfTest_otp (failed : BitVec 15) (zero : ZeroPhase) : (endSelfTest failed zero c).otp = c.otp := by
  simp [endSelfTest, selfTestOffsets]

@[simp] theorem endMirage_otp (ties : List TieTest) : (endMirage ties nvm c).otp = c.otp := by
  simp [endMirage, applyTies, judgeBleed, startIdentity]

@[simp] theorem endIdentity_otp : (endIdentity c).otp = c.otp := by simp [endIdentity]
@[simp] theorem enterLimp_otp (cause : LimpCause) : (enterLimp cause nvm c).otp = c.otp := by simp [enterLimp]
@[simp] theorem endPrecharge_otp : (endPrecharge nvm c).otp = c.otp := by fun_cases endPrecharge <;> simp +zetaDelta
@[simp] theorem endGuests_otp : (endGuests nvm c).otp = c.otp := by simp [endGuests, readmit, fillRooms, step7Start]
@[simp] theorem endPair_otp : (endPair c).otp = c.otp := by simp [endPair]
@[simp] theorem endHandOver_otp : (endHandOver nvm c).otp = c.otp := by simp [endHandOver, innStart, innClock]
@[simp] theorem declareEod_otp : (declareEod nvm c).otp = c.otp := by simp [declareEod]
@[simp] theorem eodSecond_otp : (eodSecond nvm c).otp = c.otp := by fun_cases eodSecond <;> simp +zetaDelta

/-! ### The host links -/

@[simp] theorem smbTransfer_otp : (smbTransfer c).otp = c.otp := rfl
@[simp] theorem answerFetch_otp : (answerFetch c).otp = c.otp := rfl
@[simp] theorem smbReset_otp : (smbReset c).otp = c.otp := rfl
@[simp] theorem smbTimeout_otp (lowNs : Nat) : (smbTimeout lowNs c).otp = c.otp := by simp [smbTimeout, pulse_otp]
@[simp] theorem canSeen_otp : (canSeen c).otp = c.otp := rfl
@[simp] theorem canAccept_otp : (canAccept c).otp = c.otp := rfl
@[simp] theorem dropReasm_otp (addr : Nat) : (dropReasm addr c).otp = c.otp := by simp [dropReasm]
@[simp] theorem roomReasm_otp : (roomReasm c).otp = c.otp := by unfold roomReasm; split <;> simp

@[simp] theorem firstSegment_otp (f : RuellFrame) : (firstSegment f c).2.otp = c.otp := by
  fun_cases firstSegment <;> simp +zetaDelta

@[simp] theorem nextSegment_otp (f : RuellFrame) : (nextSegment f c).2.otp = c.otp := by fun_cases nextSegment <;> simp
@[simp] theorem requestFrame_otp (f : RuellFrame) : (requestFrame f c).2.otp = c.otp := by fun_cases requestFrame <;> simp

@[simp] theorem requestSegment_otp (f : RuellFrame) : (requestSegment f c).otp = c.otp := by
  have h := requestFrame_otp c f
  unfold requestSegment
  split <;> simp_all

@[simp] theorem segmentDiscarded_otp (f : RuellFrame) : (segmentDiscarded f c).otp = c.otp := by
  have h := requestFrame_otp c f
  unfold segmentDiscarded
  split <;> simp_all

@[simp] theorem rxStuckRetry_otp (stillStuck : Bool) : (rxStuckRetry stillStuck c).otp = c.otp := by
  unfold rxStuckRetry; split <;> simp

@[simp] theorem frameDropped_otp : (frameDropped c).otp = c.otp := by unfold frameDropped; split <;> simp
@[simp] theorem ownWake_otp : (ownWake c).otp = c.otp := by unfold ownWake; split <;> simp
@[simp] theorem pulseEnd_otp : (pulseEnd c).otp = c.otp := by unfold pulseEnd; split <;> simp

/-! ### Caravan time -/

@[simp] theorem setCaravan_otp (us_ slew : Rat) : (setCaravan us_ slew c).otp = c.otp := rfl

@[simp] theorem applyOffset_otp (off : Rat) (at_ : Time) (src : Rat) (prev : Option (Time × Rat)) :
    (applyOffset off at_ src prev c).otp = c.otp := by
  simp [applyOffset]

@[simp] theorem followReceived_otp (src seq stampUs : Nat) (absolute : Bool) :
    (followReceived src seq stampUs absolute c).otp = c.otp := by
  fun_cases followReceived <;> simp +zetaDelta

/-! ### Slots -/

@[simp] theorem sendProvisional_otp (s : Slot) (g : Guest) : (sendProvisional n s g c).otp = c.otp := by simp [sendProvisional]

@[simp] theorem provisionalDecision_otp : (provisionalDecision nvm n c).otp = c.otp := by
  fun_cases provisionalDecision <;> simp +zetaDelta

@[simp] theorem endSlot_otp (s : Slot) : (endSlot n s c).otp = c.otp := by simp [endSlot]
@[simp] theorem plannedEnd_otp : (plannedEnd nvm n c).otp = c.otp := by unfold plannedEnd; split <;> simp
@[simp] theorem dropLate_otp (g : Nat) : (dropLate nvm g c).otp = c.otp := by fun_cases dropLate <;> simp +zetaDelta
@[simp] theorem cutRelease_otp : (cutRelease n c).otp = c.otp := by unfold cutRelease; split <;> simp

/-! ### Requests and sessions -/

@[simp] theorem receive_otp (d : Delivery) : (receive d c).2.otp = c.otp := by
  cases d with
  | smbus msg => simp only [receive]; split <;> simp
  | can f =>
    have h := requestFrame_otp c f
    simp only [receive]
    split <;> simp_all

@[simp] theorem reply_otp (r : Request) (ks : Option (List Byte)) (status : Nat) (data : List Byte) :
    (reply r ks status data c).otp = c.otp := by
  unfold reply; split <;> simp

@[simp] theorem releaseResponses_otp (link : LinkId) : (releaseResponses link c).otp = c.otp := by
  fun_cases releaseResponses <;> simp

@[simp] theorem endSession_otp (byGauge : Bool) (h : Nat) : (endSession byGauge h c).otp = c.otp := by simp [endSession]
@[simp] theorem updSess_otp (h : Nat) (f : Sess → Sess) : (updSess h f c).otp = c.otp := rfl

@[simp] theorem noteAnswer_otp (r : Request) (status : Nat) : (noteAnswer r status c).otp = c.otp := by
  simp [noteAnswer, confirmFails]

@[simp] theorem admitRequest_otp (r : Request) : (admitRequest r c).2.otp = c.otp := by
  fun_cases admitRequest <;> simp [macFails, acceptRequest]

@[simp] theorem counterSpent_otp (r : Request) : (counterSpent r c).otp = c.otp := by simp [counterSpent]

/-- A command of Table 14.6 leaves the OTP, by what it does and by what follows its response. -/
def Command.KeepsOtp (k : Command) : Prop :=
  (∀ nvm r w c, (k.act nvm r w c).2.2.otp = c.otp) ∧ ∀ r c, (k.after r c).otp = c.otp

@[simp] theorem serve_otp {k : Command} (hk : k.KeepsOtp) (d : Delivery) : (serve k d nvm c).otp = c.otp := by
  obtain ⟨hact, hafter⟩ := hk
  unfold serve
  split
  · rfl
  next r c1 h1 =>
    have hr : c1.otp = c.otp := by simpa [h1] using receive_otp c d
    have ha := admitRequest_otp c1 r
    split
    · rfl
    · split
      next s c2 h2 => simp_all
      next w c2 h2 =>
        rw [h2] at ha
        cases w <;> cases k.fault nvm c2 _ r.params <;> simp_all

@[simp] theorem serveUnknown_otp (d : Delivery) : (serveUnknown d c).otp = c.otp := by
  unfold serveUnknown
  split
  · rfl
  next r c1 h1 =>
    have hr : c1.otp = c.otp := by simpa [h1] using receive_otp c d
    have ha := admitRequest_otp c1 r
    split
    · rfl
    · split <;> simp_all

@[simp] theorem okDone_otp : (okDone c).2.2.otp = c.otp := rfl
@[simp] theorem pendStart_otp (op h : Nat) : (pendStart op h c).otp = c.otp := rfl
@[simp] theorem pendDoneNow_otp : (pendDoneNow c).2.2.otp = c.otp := rfl

@[simp] theorem openSession_otp (r : Request) : (openSession r c).2.2.otp = c.otp := by
  simp only [openSession]
  split
  · split <;> simp
  · rfl

@[simp] theorem cutSwitch_otp (m : Fin 8) : (cutSwitch m c).otp = c.otp := rfl
@[simp] theorem safetyCut_otp (s : Slot) : (safetyCut n s c).otp = c.otp := by simp [safetyCut]
@[simp] theorem cutRampDown_otp : (cutRampDown n c).otp = c.otp := by simp [cutRampDown]

@[simp] theorem stopRevoked_otp (safety : Bool) (p : Nat) : (stopRevoked safety n p c).otp = c.otp := by
  unfold stopRevoked; split <;> simp

@[simp] theorem revokeGuest_otp (safety : Bool) (g : Guest) : (revokeGuest safety g nvm c).otp = c.otp := by simp [revokeGuest]
@[simp] theorem calStart_otp (p : List Byte) : (calStart p c).otp = c.otp := by simp [calStart]
@[simp] theorem calNoted_otp (p : List Byte) : (calNoted p c).otp = c.otp := rfl
@[simp] theorem tagWriteAsked_otp : (tagWriteAsked c).otp = c.otp := by simp [tagWriteAsked]
@[simp] theorem writeTarget_otp (off : Nat) (bs : List Byte) : (writeTarget off bs c).2.otp = c.otp := by simp [writeTarget]
@[simp] theorem imageChecked_otp : (imageChecked nvm c).otp = c.otp := by fun_cases imageChecked <;> simp
@[simp] theorem pendingReady_otp : (pendingReady nvm c).otp = c.otp := by fun_cases pendingReady <;> simp +zetaDelta

/-! ### The empty queue -/

@[simp] theorem sendFrame_otp : (sendFrame c).otp = c.otp := by unfold sendFrame; split <;> simp

end

/-! ### The commands of Table 14.6 -/

@[simp] theorem cmdRead_keepsOtp : cmdRead.KeepsOtp := ⟨fun _ _ _ _ => rfl, fun _ _ => rfl⟩
@[simp] theorem cmdGuestRead_keepsOtp : cmdGuestRead.KeepsOtp := ⟨fun _ _ _ _ => rfl, fun _ _ => rfl⟩
@[simp] theorem cmdJournalRead_keepsOtp : cmdJournalRead.KeepsOtp := ⟨fun _ _ _ _ => rfl, fun _ _ => rfl⟩
@[simp] theorem cmdResult_keepsOtp : cmdResult.KeepsOtp :=
  ⟨fun _ _ w c => by simp only [cmdResult]; split <;> rfl, fun _ _ => rfl⟩
@[simp] theorem cmdSessionOpen_keepsOtp : cmdSessionOpen.KeepsOtp := ⟨fun _ r _ c => openSession_otp c r, fun _ _ => rfl⟩
@[simp] theorem cmdSessionConfirm_keepsOtp : cmdSessionConfirm.KeepsOtp := ⟨fun _ _ _ _ => rfl, fun _ _ => rfl⟩
@[simp] theorem cmdSessionClose_keepsOtp : cmdSessionClose.KeepsOtp :=
  ⟨fun _ _ _ _ => rfl, fun r c => by simp [cmdSessionClose]⟩
@[simp] theorem cmdSetTime_keepsOtp : cmdSetTime.KeepsOtp := ⟨fun _ _ _ _ => rfl, fun _ _ => rfl⟩
@[simp] theorem cmdShip_keepsOtp : cmdShip.KeepsOtp := ⟨fun _ _ _ _ => by simp [cmdShip], fun _ _ => rfl⟩
@[simp] theorem cmdClearSticky_keepsOtp : cmdClearSticky.KeepsOtp := ⟨fun _ _ _ _ => by simp [cmdClearSticky], fun _ _ => rfl⟩
@[simp] theorem cmdGuestRevoke_keepsOtp : cmdGuestRevoke.KeepsOtp := ⟨fun _ _ _ _ => by simp [cmdGuestRevoke], fun _ _ => rfl⟩
@[simp] theorem cmdGuestRestore_keepsOtp : cmdGuestRestore.KeepsOtp :=
  ⟨fun _ _ _ _ => by simp [cmdGuestRestore], fun _ _ => rfl⟩
@[simp] theorem cmdDepot_keepsOtp : cmdDepot.KeepsOtp := ⟨fun _ _ _ _ => by simp [cmdDepot], fun _ _ => rfl⟩
@[simp] theorem cmdDepotExit_keepsOtp : cmdDepotExit.KeepsOtp := ⟨fun _ _ _ _ => by simp [cmdDepotExit], fun _ _ => rfl⟩
@[simp] theorem cmdRestart_keepsOtp : cmdRestart.KeepsOtp :=
  ⟨fun _ _ _ _ => by simp [cmdRestart], fun _ _ => by simp [cmdRestart]⟩
@[simp] theorem cmdCalPoint_keepsOtp : cmdCalPoint.KeepsOtp :=
  ⟨fun _ _ _ _ => by simp only [cmdCalPoint]; split <;> simp, fun _ _ => rfl⟩
@[simp] theorem cmdTagRead_keepsOtp : cmdTagRead.KeepsOtp := ⟨fun _ _ _ _ => by simp [cmdTagRead], fun _ _ => rfl⟩
@[simp] theorem cmdTagWrite_keepsOtp : cmdTagWrite.KeepsOtp := ⟨fun _ _ _ _ => by simp [cmdTagWrite], fun _ _ => rfl⟩
@[simp] theorem cmdImageBegin_keepsOtp : cmdImageBegin.KeepsOtp := ⟨fun _ _ _ _ => by simp [cmdImageBegin], fun _ _ => rfl⟩
@[simp] theorem cmdImageWrite_keepsOtp : cmdImageWrite.KeepsOtp := ⟨fun _ _ _ _ => by simp [cmdImageWrite], fun _ _ => rfl⟩
@[simp] theorem cmdImageCheck_keepsOtp : cmdImageCheck.KeepsOtp := ⟨fun _ _ _ _ => by simp [cmdImageCheck], fun _ _ => rfl⟩

/-! ### The OTP's invariant -/

/-- The OTP's invariant (R94 … R96): only with no slot fixed is a hash pending or being programmed, and into a blank slot. -/
structure OtpOk (o : Otp) : Prop where
  pending_of_busy : o.busy.isSome = true → o.pending.isSome = true
  unfixed_of_pending : o.pending.isSome = true → fixedHash o.slot1 o.slot2 = none
  slot1_blank : o.busy = some 1 → o.slot1 = .blank
  slot2_blank : ∀ k, o.busy = some k → k ≠ 1 → o.slot2 = .blank

section
variable {o : Otp}

/-- With nothing pending and nothing being programmed the invariant holds whatever the slots are. -/
theorem OtpOk.of_idle (hp : o.pending = none) (hb : o.busy = none) : OtpOk o := by constructor <;> simp [hp, hb]

theorem OtpOk.pending_none_of_fixed (ok : OtpOk o) (hf : (fixedHash o.slot1 o.slot2).isSome = true) : o.pending = none :=
  Option.not_isSome_iff_eq_none.mp fun hp => by simp [ok.unfixed_of_pending hp] at hf

/-- Once a slot is fixed the gauge programs no slot (R96). -/
theorem OtpOk.busy_none_of_fixed (ok : OtpOk o) (hf : (fixedHash o.slot1 o.slot2).isSome = true) : o.busy = none :=
  Option.not_isSome_iff_eq_none.mp fun hb => by simpa [ok.pending_none_of_fixed hf] using ok.pending_of_busy hb

/-- The slot that a programming takes is blank. -/
theorem OtpOk.start (ok : OtpOk o) (hp : o.pending.isSome = true) : OtpOk { o with busy := blankSlot o } where
  pending_of_busy _ := hp
  unfixed_of_pending := ok.unfixed_of_pending
  slot1_blank h := Decidable.byContradiction fun h1 => by simp [blankSlot, h1] at h
  slot2_blank k h hk := Decidable.byContradiction fun h2 => by
    simp only [blankSlot, h2] at h
    split at h <;> simp_all

theorem spoilSlot_busy (o : Otp) : (spoilSlot o).busy = none := by unfold spoilSlot; split <;> simp_all

theorem spoilSlot_of_not_busy (h : o.busy = none) : spoilSlot o = o := by simp [spoilSlot, h]

end

/-- What every block function does to the OTP of the gauge `c`, which becomes `d`: it keeps the invariant, and under the
invariant both slots once one of them is fixed. -/
structure OtpKept (c d : Chip) : Prop where
  ok : OtpOk c.otp → OtpOk d.otp
  slots : OtpOk c.otp → (fixedHash c.otp.slot1 c.otp.slot2).isSome = true →
    d.otp.slot1 = c.otp.slot1 ∧ d.otp.slot2 = c.otp.slot2

section
variable {c d e : Chip}

/-- What leaves the OTP keeps it. -/
theorem OtpKept.of_eq (h : d.otp = c.otp) : OtpKept c d := ⟨fun ok => h ▸ ok, fun _ _ => by simp [h]⟩

theorem OtpKept.trans (h : OtpKept c d) (k : OtpKept d e) : OtpKept c e where
  ok := k.ok ∘ h.ok
  slots ok hf := by
    obtain ⟨h1, h2⟩ := h.slots ok hf
    rw [← h1, ← h2] at hf ⊢
    exact k.slots (h.ok ok) hf

theorem OtpKept.ite {p : Prop} [Decidable p] (hd : OtpKept c d) (he : OtpKept c e) : OtpKept c (if p then d else e) := by
  split <;> assumption

/-- A reset drops the programming that waits (R95). -/
theorem OtpKept.of_dropped (h : d.otp = { c.otp with pending := none, busy := none }) : OtpKept c d where
  ok _ := h ▸ .of_idle rfl rfl
  slots _ _ := by simp [h]

/-- A spoiled programming takes no fixed slot with it: while it ran there was none. -/
theorem OtpKept.of_spoiled (h : d.otp = { spoilSlot c.otp with pending := none }) : OtpKept c d where
  ok _ := h ▸ .of_idle rfl (spoilSlot_busy c.otp)
  slots ok hf := by simp [h, spoilSlot_of_not_busy (ok.busy_none_of_fixed hf)]

/-- A hash becomes pending only while no slot is fixed (R95). -/
theorem OtpKept.of_pending {x : List Byte}
    (h : d.otp = { c.otp with pending := if (fixedHash c.otp.slot1 c.otp.slot2).isNone then some x else none }) :
    OtpKept c d where
  ok ok := by
    rw [h]
    cases hf : fixedHash c.otp.slot1 c.otp.slot2 with
    | none => exact ⟨fun _ => rfl, fun _ => hf, ok.slot1_blank, ok.slot2_blank⟩
    | some x => exact .of_idle rfl (ok.busy_none_of_fixed (by simp [hf]))
  slots _ _ := by simp [h]

end

/-! ### The operations on the OTP -/

theorem otpStart_kept (vHold vTop : Int) (c : Chip) : OtpKept c (otpStart vHold vTop c) := by
  unfold otpStart
  split
  next h =>
    simp only [Bool.and_eq_true] at h
    obtain ⟨⟨⟨-, hp⟩, -⟩, -⟩ := h
    exact ⟨fun ok => ok.start hp, fun _ _ => ⟨rfl, rfl⟩⟩
  · exact .of_eq rfl

theorem otpDone_kept (c : Chip) : OtpKept c (otpDone c) := by
  have unfixed {h} (hp : c.otp.pending = some h) (ok : OtpOk c.otp) : fixedHash c.otp.slot1 c.otp.slot2 = none :=
    ok.unfixed_of_pending (by simp [hp])
  unfold otpDone
  split
  next hp _ => exact ⟨fun _ => .of_idle rfl rfl, fun ok => by simp [unfixed hp ok]⟩
  next hp _ => exact ⟨fun _ => .of_idle rfl rfl, fun ok => by simp [unfixed hp ok]⟩
  · exact .of_eq rfl

theorem judgeOtp_kept (mv : Rat) (c : Chip) : OtpKept c (judgeOtp mv c) := .ite (.of_spoiled rfl) (.of_eq rfl)

/-! ### The load of an image -/

theorem loadCopy_kept (id : CopyId) (x : Accepted) (vHold vTop : Int) (c : Chip) :
    OtpKept c (loadCopy id x vHold vTop c) := by
  unfold loadCopy
  extract_lets strap fixes own echo o img c1 c2 c3
  have pending : OtpKept c c2 := .of_pending (by simp only [c2, c1, fixes, o, setResult_otp]; rfl)
  exact pending.trans (.trans (otpStart_kept vHold vTop c2) (.of_eq (by simp [c3])))

theorem tryCopies_kept (m : RegionMap) (nvm : Nvm) (vHold vTop : Int) (ids : List CopyId) (c : Chip) :
    OtpKept c (tryCopies m nvm vHold vTop ids c) := by
  induction ids generalizing c with
  | nil => exact .of_eq (by simp [tryCopies])
  | cons id ids ih =>
    unfold tryCopies
    split
    · exact loadCopy_kept ..
    · exact .trans (.of_eq (by simp)) (ih _)

theorem loadImage_kept (vHold vTop : Int) (nvm : Nvm) (c : Chip) : OtpKept c (loadImage vHold vTop nvm c) := by
  unfold loadImage
  have fault : OtpKept c (setFaultIf (bothDamaged c) F.otpFault c) := .of_eq (by simp)
  refine fault.trans ?_
  generalize setFaultIf (bothDamaged c) F.otpFault c = d
  cases selectMap nvm with
  | none => exact .of_eq (by simp)
  | some p => exact .ite (.of_eq (by simp)) (.trans (.of_eq (by simp)) (tryCopies_kept ..))

/-! ### The auxiliary ADC -/

theorem deliver_kept (k : Nat) (st : Status) (code : Nat) (nvm : Nvm) (c : Chip) : OtpKept c (deliver k st code nvm c) := by
  refine .ite (.of_eq (by simp)) (.ite (.of_eq (by simp)) ?_)
  split
  case h_5 => exact .ite (.trans (judgeOtp_kept ((code : Rat) / 2) c) (.of_eq (by simp))) (.of_eq rfl)
  all_goals exact .of_eq (by simp)

theorem auxSample_kept (k code : Nat) (overRange : Option Bool) (nvm : Nvm) (c : Chip) :
    OtpKept c (auxSample k code overRange nvm c) := by
  unfold auxSample
  extract_lets st v c1 c2 c3
  have stored : OtpKept c c2 := .of_eq (by simp [c2, c1])
  exact stored.trans (.trans (deliver_kept k st v nvm c2) (.of_eq (by simp [c3])))

theorem auxConversion_kept (code : Nat) (overRange : Option Bool) (nvm : Nvm) (c : Chip) :
    OtpKept c (auxConversion code overRange nvm c) := by
  refine .ite (.of_eq rfl) ?_
  rcases auxNow c with _ | ⟨k, _ | n⟩
  · exact .of_eq rfl
  · have current : OtpKept c { c with aux.cur := some k } := .of_eq rfl
    exact current.trans (auxSample_kept ..)
  · exact .of_eq rfl

/-! ### Resets -/

theorem losePower_kept (c : Chip) : OtpKept c (losePower c) := by
  have spoiled : OtpKept c { c with otp := { spoilSlot c.otp with pending := none } } := .of_spoiled rfl
  exact spoiled.trans (.of_dropped rfl)

theorem enterShip_kept (c : Chip) : OtpKept c (enterShip c) := .of_dropped (by simp [enterShip, resetChip])

theorem criticalReset_kept (cause : ResetCause) (bit : Nat) (strap : Strap) (c : Chip) :
    OtpKept c (criticalReset cause bit strap c) :=
  .ite (.of_dropped (by simp only [setFault_frame]; rfl)) (.of_eq rfl)

theorem rstLow_kept (lowNs : Nat) (c : Chip) : OtpKept c (rstLow lowNs c) := by
  have h : OtpKept c _ := .of_eq (pulse_otp c (us 5 ≤ lowNs))
  exact .ite (.of_eq rfl) (.ite (.trans h (.of_dropped rfl)) h)

theorem restartNow_kept (sent : Bool) (strap : Strap) (c : Chip) : OtpKept c (restartNow sent strap c) := by
  unfold restartNow
  split
  · exact .ite (.of_dropped rfl) (.of_eq rfl)
  · exact .of_eq rfl

theorem shutStep_kept (nvm : Nvm) (c : Chip) : OtpKept c (shutStep nvm c) :=
  .ite (.of_eq rfl) (.ite (enterShip_kept c) (.of_eq (by simp)))

theorem supplyCollapse_kept (vSup : Int) (writesDone : Nat) (nvm : Nvm) (c : Chip) :
    OtpKept c (supplyCollapse vSup writesDone nvm c) := by
  have lost {d : Chip} (h : d.otp = c.otp) : OtpKept c { losePower d with vTop := (vSup : Rat) } :=
    .trans (.of_eq h) (.trans (losePower_kept d) (.of_eq rfl))
  exact .ite (.of_eq rfl) (.ite (lost (by simp [saveRooms])) (lost (by simp [saveRooms])))

/-! ### CONFIGURE -/

theorem endImage_kept (vHold vTop vinA vinB : Int) (nvm : Nvm) (c : Chip) :
    OtpKept c (endImage vHold vTop vinA vinB nvm c) := by
  refine .trans (loadImage_kept vHold vTop nvm c) (.of_eq ?_)
  simp only [endImage]
  split <;> simp

theorem stepComplete_kept (strap : Strap) (inp : StepInput) (nvm : Nvm) (c : Chip) :
    OtpKept c (stepComplete strap inp nvm c) := by
  refine .ite (.of_eq rfl) (.ite (criticalReset_kept ..) ?_)
  split
  case h_2 => exact endImage_kept ..
  all_goals exact .of_eq (by simp)

/-! ### Steps -/

/-- Time and the pins leave the OTP, so a command does to it what its block function does. -/
theorem run_otpKept {t : Time} {f : Nvm → Chip → Chip} {s u : State} (h : run t f s = .next u)
    (hf : ∀ nvm c, OtpKept c (f nvm c)) : OtpKept s.chip u.chip := by
  cases h
  have ticked : OtpKept s.chip (tick t s.chip) := .of_eq (tick_otp t s.chip)
  exact ticked.trans (.trans (hf s.nvm _) (.of_eq (settle_otp _)))

/-- Every command keeps the invariant of the OTP, and its slots once one is fixed (R96). -/
theorem exec_otpKept {i : Instr} {s u : State} (h : exec i s = .next u) : OtpKept s.chip u.chip := by
  cases i with
  | powerOnResetRelease | shipWake | rstNRelease =>
    exact run_otpKept h fun _ _ => .ite (.of_dropped rfl) (.of_eq rfl)
  | powerOnResetAssert =>
    exact run_otpKept h fun _ c => .ite (.trans (losePower_kept c) (.of_eq rfl)) (.of_eq rfl)
  | rstNLow =>
    exact run_otpKept h fun _ _ => rstLow_kept ..
  | watchdogTimeout | coreBrownout =>
    exact run_otpKept h fun _ _ => .ite (criticalReset_kept ..) (.of_eq rfl)
  | ramParityError =>
    exact run_otpKept h fun _ _ => criticalReset_kept ..
  | supplyCollapse =>
    exact run_otpKept h fun _ _ => supplyCollapse_kept ..
  | shutdownStepComplete =>
    exact run_otpKept h fun _ _ => shutStep_kept ..
  | restartAfterResponse =>
    exact run_otpKept h fun _ _ => restartNow_kept ..
  | configureStepComplete =>
    exact run_otpKept h fun _ _ => stepComplete_kept ..
  | otpProgramStart =>
    exact run_otpKept h fun _ _ => otpStart_kept ..
  | otpProgramDone =>
    exact run_otpKept h fun _ _ => otpDone_kept ..
  | auxConversionComplete =>
    exact run_otpKept h fun _ _ => auxConversion_kept ..
  | slotEndRead =>
    exact run_otpKept h fun _ _ => .ite (auxConversion_kept ..) (.of_eq rfl)
  | shipNRequest | shipRequestLapse | wakeLockoutRelease | retentionLoss =>
    exact run_otpKept h fun _ _ => .of_eq (by simp [wakeRelease, retentionLoss])
  | limpFeedSetDecided | limpFloor | endOfDischargeDeclared | periodicJournalCommit | periodicTagWrite =>
    exact run_otpKept h fun _ _ => .of_eq (by simp [limpFeedSet, limpFloor, periodicJournal, periodicWriteBack, periodicTag])
  | fastWord | preciseWord | modulatorReset | slowChopBlockPair | crystalFail | modClockFault | coreTrimExhausted
    | domainClockFault | queueOverflow | lptCalibration | calPointComplete | calPointTimeout =>
    exact run_otpKept h fun _ _ => .of_eq (by simp [fastWord, fastStep, preciseWord, precStep, modulatorReset, blockPair,
      crystalFail, modFault, coreTrimFault, domainFault, queueOverflow, lptCalibration, calComplete, calTimeout])
  | fastTripFire | fastTripVerdict | feedWindowCrossing | insertionDelayExpiry | inrushStart | inrushGovernorUpdate
    | inrushTimeout | inrushComplete | feedFastReverse | feedReenableStart | dropTargetAdapt | feedRetryWaitExpiry
    | feedRetryCountReset | feedUncoupled | feedReversed | feedReversalClear | feedMirageCheck | kelvinTestStart
    | kelvinTestEnd | chargePumpLow | chargePumpReady | packMirageFeedStop =>
    exact run_otpKept h fun _ _ => .of_eq (by simp [tripFire, delayExpiry, inrushStart, inrushComplete, acceptFeed,
      feedArrived, fastReverse, reenableStart, dropAdapt, feedRetryExpiry, feedRetryReset, feedUncoupled, feedReversed,
      feedReversalClear, pumpLow, feedPumpLow, packPumpLow, pumpReady, mirageFeedStop])
  | tsBiasFault | isothermalCheck =>
    exact run_otpKept h fun _ _ => .of_eq (by simp [isothermalCheck])
  | spurTotalOverload | spurRampComplete | spurRampdownComplete | spurCurrentLimit | spurLimitHeld | spurRampDeadline
    | spurThermalShutdown | spurThermalCooled | spurBackfeedOn | spurBlockedRelease | spurRetryWaitExpiry
    | spurRetryCountReset | spurFaultedProbe | spurProbeSuccess | spurOffStateTestEnd | spurContinuousDiagnosis =>
    exact run_otpKept h fun _ _ => .of_eq (by simp [rampdownComplete, currentLimit, thermalShutdown, thermalCooled,
      backfeedOn, blockedRelease, retryReset, faultedProbe, offStateTest])
  | prechargeStart | prechargeComplete | packReenable =>
    exact run_otpKept h fun _ _ => .of_eq (by simp [prechargeStart, prechargeComplete, packReenable])
  | prechargeTimeout | packStandDown | packFastReverse | chargeStart | chargeSetpointUpdate | chargeLimitStep | chargeTrim
    | chargeHandBack | chargerFault | shareLoopUpdate | shareFault | packMirageCheck | packReversed | packReversalClear
    | packRetryWaitExpiry | packRetryCountReset | endOfChargeDeclared =>
    exact run_otpKept h fun _ _ => .of_eq (by simp [prechargeTimeout, packStandDown, packFastReverse, setpointUpdate,
      chargeTrim, chargeHandBack, shareUpdate, shareFault, packReversed, packReversalClear, packRetryExpiry, packRetryReset])
  | governorOnWindow | governorSecond | wakeComparatorCrossing | burstEnd | countGap | restSecond | anchorDue
    | estimatorUpdate | firstEstimate | impedancePhaseEnd =>
    exact run_otpKept h fun _ _ => .of_eq (by simp [governorSecond, notePowers, wakeCrossing, estimatorUpdate, report, moveSoc])
  | tagTransactionComplete | tagProbe | getResponsePoll | signatureVerified | exchangeAbandon | adoptionAbandon
    | tagWriteStart | tagRecordSigned | tagCommitWaitExpiry | pkIdPinFault | pkIdDriverResume =>
    exact run_otpKept h fun _ _ => .of_eq (by simp [tagTxn, exchangeAbandon, adoptionAbandon, writeStart, pinFault])
  | slotTick | slotProvisionalDecision | canStartForSlot | slotFinalDecision | slotPlannedEnd | slotLate
    | cellarFillComplete | ledgerCheck | spurCutRelease =>
    exact run_otpKept h fun _ _ => .of_eq (by simp [slotTick, sendHeartbeat, canForSlot, canStartOwn, finalAtStart, fillEnds,
      ledgerCheck])
  | smbusSendDiscarded | smbusFetch | smbusZeroLengthRead | smbusClockTimeout | smbStuck | alertResponseRead | wakeNPulseEnd
    | ruellSegmentDiscarded | reassemblyTimeout | canFrameIgnored | ownAddressFrame | canBusOff | canRxStuck
    | canFrameDropped | wakeNWake | wakeNStuck | canRxWake | canDomainStop | canOwnWake | busOffRecovered | canRxStuckRetry
    | ruellRequestSegment =>
    exact run_otpKept h fun _ _ => .of_eq (by simp [smbDiscard, smbFetch, smbZeroRead, smbStuck, alertRead, reasmTimeout,
      frameIgnored, ownAddress, busOff, rxStuck, wakeWake, wakeBy, wakeStuck, rxWake, busRecovered])
  | sessionResponseRelease | sessionIdleTimeout | sessionHalfOpenTimeout | sessionLockoutEnd | pendingOutcomeReady | cmdRead
    | cmdGuestRead | cmdJournalRead | cmdResult | cmdSessionOpen | cmdSessionConfirm | cmdSessionClose | cmdSetTime
    | cmdShip | cmdClearSticky | cmdGuestRevoke | cmdGuestRestore | cmdDepot | cmdDepotExit | cmdRestart | cmdCalPoint
    | cmdTagRead | cmdTagWrite | cmdImageBegin | cmdImageWrite | cmdImageCheck | unknownOpcode =>
    exact run_otpKept h fun _ _ => .of_eq (by simp [idleTimeout, halfOpenTimeout, lockoutEnd])
  | timeSyncSend | timeSync | timeFollow | timeSourceLost =>
    exact run_otpKept h fun _ _ => .of_eq (by simp [syncSend, syncReceived, sourceLost])
  | kersorLockAcquired | kersorLockLost | kersorFrameDiscarded | kersorRetransmit | heartbeat | join | summary | guestRecord
    | provisional | close | leaving | restore | recordsEnd | pairLinkLost | pairProbePhase | pairProbeDecision
    | pairSplitProbeRepeat | pairJoinSend | pairJoinTimeout =>
    exact run_otpKept h fun _ _ => .of_eq (by simp [lockAcquired, lockLost, heartbeat, takeHeartbeat, linkUp, takeJoin,
      startJoin, roleConflict, imageMismatch, joined, sendRestores, takeSummary, takeGuest, takeProvisional, takeClose,
      takeLeaving, takeRecordsEnd, sendResync, linkTimeout, splitRepeat, joinSend, joinTimeout])
  | journalCommitStart | nvmWriteComplete | journalWriteTimeout =>
    exact run_otpKept h fun _ _ => .of_eq (by simp [commitStart])
  | stickyReassert =>
    exact run_otpKept h fun _ _ => .of_eq (by simp [stickyReassert])

theorem step_otpKept {s u : State} (h : step s = .next u) : OtpKept s.chip u.chip := by
  unfold step at h
  split at h
  · cases h
    exact .of_eq (sendFrame_otp s.chip)
  next i rest _ =>
    have kept : OtpKept { s with pending := rest }.chip u.chip := exec_otpKept h
    exact kept

/-- Settles O12: every block function keeps the OTP's invariant, and under it the slots once one of them is fixed. -/
theorem fixedOtpSlotsNeverChange : Obligations.FixedOtpSlotsNeverChange := by
  unfold Obligations.FixedOtpSlotsNeverChange
  intro Ok s u ⟨hbusy, hpending, h1, h2⟩ hstep
  have ok : OtpOk s.chip.otp := ⟨hbusy, hpending, h1, h2⟩
  have kept := step_otpKept hstep
  obtain ⟨ubusy, upending, u1, u2⟩ := kept.ok ok
  exact ⟨⟨ubusy, upending, u1, u2⟩, kept.slots ok⟩

end Sys2Proof.Machine

/-! The modes and their sequences (R131 … R137). The first part says which functions of the model leave the sequencer as it is, and
which leave its mode; the second that no command but the wake watcher's ends SHIP; the third settles the SHIP requests. -/

namespace Sys2Proof.Machine

/-! ### Beacons: what a recheck of the announced slots changes -/

/-- The gauge `d` is `c` but for the innkeeper, the CAN controller and the link to the partner. -/
def BeaconsOnly (c d : Chip) : Prop := ∃ inn can pair, d = { c with inn := inn, can := can, pair := pair }

theorem BeaconsOnly.refl (c : Chip) : BeaconsOnly c c := ⟨_, _, _, rfl⟩

theorem BeaconsOnly.trans {c d e : Chip} (h : BeaconsOnly c d) (k : BeaconsOnly d e) : BeaconsOnly c e := by
  obtain ⟨_, _, _, rfl⟩ := h
  obtain ⟨_, _, _, rfl⟩ := k
  exact ⟨_, _, _, rfl⟩

theorem foldl_beaconsOnly {α : Type} {g : Chip → α → Chip} (h : ∀ c x, BeaconsOnly c (g c x)) (l : List α) (c : Chip) :
    BeaconsOnly c (l.foldl g c) := by
  induction l generalizing c with
  | nil => exact .refl c
  | cons x l ih => exact (h c x).trans (ih _)

theorem sendBeacon_beaconsOnly (kind : Nat) (g : GuestCfg) (n : Fin 8) (epoch start reason : Nat) (c : Chip) :
    BeaconsOnly c (sendBeacon kind g n epoch start reason c) := by
  unfold sendBeacon canHand
  split <;> exact ⟨_, _, _, rfl⟩

theorem kMirror_beaconsOnly (type : Nat) (payload : List Byte) (c : Chip) : BeaconsOnly c (kMirror type payload c) := by
  simp only [kMirror, kSend, countSymbols]
  (repeat' split) <;> exact ⟨_, _, _, rfl⟩

theorem cancelSlot_beaconsOnly (n : Fin 8) (s : Slot) (r : Reason) (c : Chip) : BeaconsOnly c (cancelSlot n s r c) := by
  unfold cancelSlot
  split
  · exact (sendBeacon_beaconsOnly ..).trans ((kMirror_beaconsOnly ..).trans ⟨_, _, _, rfl⟩)
  · exact .refl c

theorem recheckSpur_beaconsOnly (nvm : Nvm) (n : Fin 8) (c : Chip) : BeaconsOnly c (recheckSpur nvm n c) := by
  refine foldl_beaconsOnly (fun c s => ?_) _ c
  split
  · split
    · exact (cancelSlot_beaconsOnly ..).trans ⟨_, _, _, rfl⟩
    · exact .refl c
  · exact .refl c

/-- A recheck of every announced slot touches the plan and sends beacons and records, and nothing else (R653 … R655). -/
theorem recheckAll_beaconsOnly (nvm : Nvm) (c : Chip) : BeaconsOnly c (recheckAll nvm c) :=
  foldl_beaconsOnly (fun c n => recheckSpur_beaconsOnly nvm n c) _ c

theorem BeaconsOnly.seq {c d : Chip} (h : BeaconsOnly c d) : d.seq = c.seq := by
  obtain ⟨_, _, _, rfl⟩ := h
  rfl

/-! ### Branches and folds -/

@[simp] theorem seq_ite (p : Prop) [Decidable p] (c d : Chip) : (if p then c else d).seq = if p then c.seq else d.seq :=
  apply_ite ..

@[simp] theorem foldl_seq {α : Type} {g : Chip → α → Chip} (h : ∀ c x, (g c x).seq = c.seq) (l : List α) (c : Chip) :
    (l.foldl g c).seq = c.seq := by
  induction l generalizing c with
  | nil => rfl
  | cons x l ih => simp [ih, h]

@[simp] theorem elim_seq {α : Type} {d : Chip} {g : α → Chip} (h : ∀ x, (g x).seq = d.seq) (o : Option α) :
    (o.elim d g).seq = d.seq := by
  cases o with
  | none => rfl
  | some x => exact h x

section
variable (nvm : Nvm) (n : Fin 8) (c : Chip)

/-! ### Free values -/

@[simp] theorem randomBytes_seq (n : Nat) : (randomBytes n c).2.seq = c.seq := rfl

/-! ### Frames on the links -/

@[simp] theorem canMessage_seq (prio kind : Nat) (msg : List Byte) : (canMessage prio kind msg c).seq = c.seq := by
  simp [canMessage]

/-! ### Messages between the gauges of a pair -/

@[simp] theorem sendSummary_seq : (sendSummary c).seq = c.seq := by simp [sendSummary]

@[simp] theorem sendLeaving_seq (cause : Nat) : (sendLeaving cause c).seq = c.seq := by simp [sendLeaving]

/-! ### The innkeeper -/

@[simp] theorem cellarWrite_seq (p : Nat) (r : GuestRec) : (cellarWrite c p r).1.seq = c.seq := by
  unfold cellarWrite; split <;> simp

@[simp] theorem setRooms_seq (rs : List Room) : (setRooms c rs).seq = c.seq := rfl

@[simp] theorem writeBack_seq (p : Nat) : (writeBack p c).seq = c.seq := by unfold writeBack; split <;> simp

@[simp] theorem modRecord_seq (mirror : Bool) (p : Nat) (f : GuestRec → GuestRec) :
    (modRecord nvm mirror p f c).seq = c.seq := by
  unfold modRecord; split <;> simp

@[simp] theorem sendBeacon_seq (kind : Nat) (g : GuestCfg) (epoch start reason : Nat) :
    (sendBeacon kind g n epoch start reason c).seq = c.seq := by
  simp [sendBeacon]

@[simp] theorem updSlot_seq (start : Nat) (f : Slot → Slot) : (updSlot n start f c).seq = c.seq := rfl

@[simp] theorem cancelSlot_seq (s : Slot) (r : Reason) : (cancelSlot n s r c).seq = c.seq := by
  unfold cancelSlot; split <;> simp

@[simp] theorem recheckSpur_seq : (recheckSpur nvm n c).seq = c.seq := (recheckSpur_beaconsOnly nvm n c).seq
@[simp] theorem recheckAll_seq : (recheckAll nvm c).seq = c.seq := (recheckAll_beaconsOnly nvm c).seq

@[simp] theorem noteNext_seq (p : Nat) : (noteNext nvm p c).seq = c.seq := by unfold noteNext; split <;> simp

@[simp] theorem notePinned_seq : (notePinned c).seq = c.seq := rfl

@[simp] theorem requestFill_seq (p : Nat) : (requestFill p c).seq = c.seq := by fun_cases requestFill <;> simp

@[simp] theorem noteDecision_seq (g : Guest) (r : Reason) : (noteDecision nvm g r c).seq = c.seq := by
  unfold noteDecision; split <;> simp

@[simp] theorem settleDue_seq (p : Nat) : (settleDue p c).seq = c.seq := by unfold settleDue; split <;> simp

@[simp] theorem withhold_seq (s : Slot) (g : Guest) (r : Reason) : (withhold nvm n s g r c).seq = c.seq := by simp [withhold]

@[simp] theorem grantSlot_seq (s : Slot) (g : Guest) (boundary : Bool) : (grantSlot nvm n s g boundary c).seq = c.seq := by
  unfold grantSlot; (repeat' split) <;> simp

@[simp] theorem beaconStart_seq (g : Guest) : (beaconStart g c).seq = c.seq := by simp [beaconStart]

@[simp] theorem finalDecision_seq (boundary : Bool) : (finalDecision nvm n boundary c).seq = c.seq := by
  fun_cases finalDecision <;> simp +zetaDelta

@[simp] theorem holdSpur_seq : (holdSpur nvm n c).seq = c.seq := by unfold holdSpur; split <;> simp

@[simp] theorem refundRunning_seq : (refundRunning n c).seq = c.seq := by unfold refundRunning; split <;> simp

@[simp] theorem refillLoop_seq (nvm : Nvm) (gs : List (Guest × GuestRec)) (left : Nat) (c : Chip) :
    (refillLoop nvm gs left c).seq = c.seq := by
  induction gs generalizing left c with
  | nil => rfl
  | cons g gs ih => simp [refillLoop, ih]

@[simp] theorem innHandOver_seq : (innHandOver nvm c).seq = c.seq := by simp [innHandOver]

@[simp] theorem writeBackAll_seq : (writeBackAll c).seq = c.seq := by simp [writeBackAll]

theorem evict_seq {c d : Chip} (h : evict c = some d) : d.seq = c.seq := by
  simp only [evict] at h
  split at h
  · cases h; rfl
  · split at h <;> cases h; simp

theorem takeRoom_seq {nvm : Nvm} {g : Guest} {c d : Chip} (h : takeRoom nvm g c = some d) : d.seq = c.seq := by
  obtain ⟨e, he, rfl⟩ := Option.map_eq_some_iff.mp h
  simp [evict_seq he]

@[simp] theorem fillDone_seq : (fillDone nvm c).seq = c.seq := by
  fun_cases fillDone with
  | case4 _ _ _ _ _ _ d h => exact (takeRoom_seq h : d.seq = c.seq)
  | _ => rfl

/-! ### Learning -/

@[simp] theorem tagEvent_seq (cause : Nat) : (tagEvent cause c).seq = c.seq := by simp [tagEvent]

@[simp] theorem pairAnchors_seq (old new : HeldAnchor) : (pairAnchors old new c).1.seq = c.seq := by
  fun_cases pairAnchors <;> simp +zetaDelta

@[simp] theorem learnAnchor_seq (a : HeldAnchor) : (learnAnchor a c).seq = c.seq := by
  simp only [learnAnchor]
  split
  · rfl
  · split
    · cases c.learn.high <;> simp
    · cases c.learn.low <;> simp

@[simp] theorem learnQty_seq (j : Nat) (xm z : Rat) : (learnQty j xm z c).seq = c.seq := by simp [learnQty]

@[simp] theorem impAbandon_seq : (impAbandon c).seq = c.seq := rfl

@[simp] theorem noteImp_seq (phase : Nat) (r : ImpRun) (i1 : Rat) : (noteImp phase r i1 c).seq = c.seq := rfl

@[simp] theorem impPhaseEnd_seq : (impPhaseEnd c).seq = c.seq := by fun_cases impPhaseEnd <;> simp +zetaDelta

/-! ### The estimator -/

@[simp] theorem kalman_seq (nu rn : Rat) : (kalman nu rn c).seq = c.seq := rfl

@[simp] theorem applyAnchor_seq : (applyAnchor c).seq = c.seq := by unfold applyAnchor; split <;> simp

@[simp] theorem fullZ_seq : (fullZ c).seq = c.seq := rfl

@[simp] theorem restSecond_seq : (restSecond c).seq = c.seq := by simp only [restSecond]; (repeat' split) <;> simp

@[simp] theorem anchorDue_seq : (anchorDue c).seq = c.seq := by unfold anchorDue; (repeat' split) <;> simp

@[simp] theorem chooseProfile_seq : (chooseProfile c).seq = c.seq := by
  simp only [chooseProfile]; cases (cfg c).profile <;> cases c.tag.profile <;> simp

@[simp] theorem chooseCandidate_seq (c : Chip) (v0 zV : Rat) (sV : Option Rat) (xs : List Candidate) (d : Chip) :
    (chooseCandidate c v0 zV sV xs d).2.seq = d.seq := by
  induction xs generalizing d with
  | nil => rfl
  | cons x xs ih => unfold chooseCandidate; split <;> simp [ih]

@[simp] theorem chooseFcc_seq : (chooseFcc nvm c).seq = c.seq := by fun_cases chooseFcc <;> simp

@[simp] theorem chooseImp_seq : (chooseImp c).seq = c.seq := rfl

@[simp] theorem chooseCycles_seq : (chooseCycles nvm c).seq = c.seq := by simp [chooseCycles]

@[simp] theorem startEstimator_seq (z0 p0 : Rat) : (startEstimator z0 p0 c).seq = c.seq := rfl

@[simp] theorem firstEstimateCore_seq : (firstEstimateCore nvm c).1.seq = c.seq := by
  unfold firstEstimateCore
  extract_lets c1 _ c2 n v i v0 zV sV
  have h2 : c2.seq = c.seq := by simp [c2, c1]
  have h := chooseCandidate_seq c2 v0 zV sV (candidates nvm c2) c2
  clear_value c2 zV sV v0
  rcases hg : chooseCandidate c2 v0 zV sV (candidates nvm c2) c2 with ⟨_ | x, d⟩ <;> rw [hg, h2] at h <;> simpa using h

/-! ### The reported figures -/

@[simp] theorem formTarget_seq : (formTarget c).seq = c.seq := rfl

@[simp] theorem setSoc_seq (x : Rat) : (setSoc x c).seq = c.seq := rfl

@[simp] theorem formFigures_seq : (formFigures c).seq = c.seq := rfl

@[simp] theorem handOver_seq : (handOver nvm c).seq = c.seq := by simp [handOver, formTte, formTtf]

/-! ### Temperature and presence -/

@[simp] theorem setTs_seq (k : TsId) (x : Sensor) : (setTs k x c).seq = c.seq := by unfold setTs; split <;> simp

@[simp] theorem declareRemoved_seq : (declareRemoved c).seq = c.seq := rfl

@[simp] theorem formPack_seq : (formPack c).seq = c.seq := by unfold formPack; split <;> simp

@[simp] theorem markX_seq (failed : Bool) (ns : List Nat) : (markX failed ns c).seq = c.seq := rfl

@[simp] theorem isoCheck_seq : (isoCheck c).seq = c.seq := by simp only [isoCheck]; split <;> simp

/-! ### Spurs -/

@[simp] theorem takeGroup_seq : (takeGroup n c).seq = c.seq := by simp [takeGroup]

@[simp] theorem dieCriticalSlots_seq : (dieCriticalSlots nvm c).seq = c.seq := by simp [dieCriticalSlots]

@[simp] theorem noteFail_seq (cause : Nat) : (noteFail n cause c).seq = c.seq := by simp [noteFail]

@[simp] theorem cutSpur_seq (cause : Nat) : (cutSpur nvm n cause c).seq = c.seq := by simp [cutSpur]

@[simp] theorem spurFail_seq (cause : Nat) (bits : List Nat) : (spurFail nvm n cause bits c).seq = c.seq := by simp [spurFail]

@[simp] theorem blockSpur_seq : (blockSpur nvm n c).seq = c.seq := by simp [blockSpur]

@[simp] theorem diagnose_seq (isOpen : Bool) : (diagnose n isOpen c).seq = c.seq := by simp [diagnose]

@[simp] theorem rampComplete_seq (others : List (Fin 8 × Int)) : (rampComplete nvm n others c).seq = c.seq := by
  fun_cases rampComplete <;> simp [tieRuntime]

@[simp] theorem limitHeld_seq (durNs : Nat) : (limitHeld nvm n durNs c).seq = c.seq := by
  fun_cases limitHeld <;> simp [limitFail]

@[simp] theorem rampDeadline_seq (mv : Int) : (rampDeadline nvm n mv c).seq = c.seq := by fun_cases rampDeadline <;> simp

@[simp] theorem retryExpiry_seq : (retryExpiry n c).seq = c.seq := by simp [retryExpiry]

@[simp] theorem probeSuccess_seq : (probeSuccess n c).seq = c.seq := by fun_cases probeSuccess <;> simp

@[simp] theorem continuousDiagnosis_seq (mv : Int) : (continuousDiagnosis n mv c).seq = c.seq := by
  simp only [continuousDiagnosis]; (repeat' split) <;> simp

@[simp] theorem totalOverload_seq : (totalOverload nvm c).seq = c.seq := by simp only [totalOverload]; (repeat' split) <;> simp

/-! ### Counting -/

@[simp] theorem spanToWait_seq (d : Nat) : (spanToWait d c).seq = c.seq := by unfold spanToWait; split <;> simp

@[simp] theorem countDuty_seq : (countDuty c).seq = c.seq := by simp [countDuty]

@[simp] theorem burstReads_seq : (burstReads c).seq = c.seq := rfl

@[simp] theorem startBurst_seq : (startBurst c).seq = c.seq := by simp [startBurst]

@[simp] theorem burstEnd_seq : (burstEnd c).seq = c.seq := by unfold burstEnd; split <;> simp

@[simp] theorem governorWindow_seq (start : Bool) : (governorWindow start c).seq = c.seq := by fun_cases governorWindow <;> simp

@[simp] theorem countGap_seq : (countGap c).seq = c.seq := by unfold countGap; split <;> simp

@[simp] theorem firstEstimate_seq : (firstEstimate nvm c).seq = c.seq := by simp [firstEstimate, firstReport]

/-! ### The pack path -/

@[simp] theorem followCarrying_seq : (followCarrying c).seq = c.seq := rfl

@[simp] theorem noteEnd_seq (cause : Nat) : (noteEnd cause c).seq = c.seq := rfl

@[simp] theorem handBack_seq : (handBack c).seq = c.seq := by simp [handBack]

@[simp] theorem driveSetpoint_seq : (driveSetpoint c).seq = c.seq := rfl

@[simp] theorem enterCharge_seq (span : Bool) : (enterCharge span c).seq = c.seq := rfl

@[simp] theorem chargeStart_seq : (chargeStart c).seq = c.seq := by unfold chargeStart; split <;> simp

@[simp] theorem limitStep_seq (term : LimitTerm) : (limitStep term c).seq = c.seq := by fun_cases limitStep <;> simp

@[simp] theorem chargerFault_seq (kind : ChgKind) : (chargerFault kind c).seq = c.seq := by
  unfold chargerFault; (repeat' split) <;> simp

@[simp] theorem packMirageCheck_seq : (packMirageCheck c).seq = c.seq := by fun_cases packMirageCheck <;> simp

@[simp] theorem packPathPresent_seq : (packPathPresent c).seq = c.seq := by simp [packPathPresent]

@[simp] theorem declareEoc_seq : (declareEoc c).seq = c.seq := by simp [declareEoc]

@[simp] theorem eocCheck_seq : (eocCheck c).seq = c.seq := by simp only [eocCheck]; (repeat' split) <;> simp

/-! ### The tag -/

@[simp] theorem pendDone_seq (op : Nat) (out : Nat × List Byte) : (pendDone op out c).seq = c.seq := by
  unfold pendDone; split <;> simp

@[simp] theorem toolDone_seq (bs : Option (List Byte)) : (toolDone bs c).seq = c.seq := by simp [toolDone]

@[simp] theorem endAdoption_seq : (endAdoption c).seq = c.seq := rfl

@[simp] theorem endExchange_seq : (endExchange c).seq = c.seq := rfl

@[simp] theorem probeSilent_seq : (probeSilent c).seq = c.seq := rfl

@[simp] theorem verdictFails_seq (reason : Nat) : (verdictFails reason c).seq = c.seq := by simp [verdictFails]

@[simp] theorem verdictSilent_seq : (verdictSilent c).seq = c.seq := by simp [verdictSilent]

@[simp] theorem headerRead_seq (h : List Byte) : (headerRead h c).seq = c.seq := by simp [headerRead]

@[simp] theorem exchangeTxn_seq (bs : List Byte) : (exchangeTxn bs c).seq = c.seq := by simp only [exchangeTxn]; split <;> simp

@[simp] theorem responsePoll_seq : (responsePoll c).seq = c.seq := by unfold responsePoll; split <;> simp

@[simp] theorem takeSlots_seq (bs : List Byte) : (takeSlots bs c).seq = c.seq := rfl

@[simp] theorem nextSlot_seq : (nextSlot c).seq = c.seq := by unfold nextSlot; split <;> simp

@[simp] theorem slotBad_seq : (slotBad c).seq = c.seq := by simp [slotBad]

@[simp] theorem adoptionTxn_seq (cmd : TagCmd) (bs : List Byte) : (adoptionTxn cmd bs c).seq = c.seq := by
  fun_cases adoptionTxn <;> simp +zetaDelta

@[simp] theorem verified_seq : (verified c).seq = c.seq := by
  unfold verified; (repeat' split) <;> simp [verdictAuthentic, startAdoption, markSlot, adoptRecord]

@[simp] theorem writeStep1_seq (w : TagWrite) : (writeStep1 w c).seq = c.seq := rfl

@[simp] theorem writeEnd_seq (ok answering : Bool) (w : TagWrite) : (writeEnd ok answering w c).seq = c.seq := by
  simp [writeEnd]

@[simp] theorem writeSig_seq (w : TagWrite) : (writeSig w c).seq = c.seq := by unfold writeSig; split <;> simp

@[simp] theorem recordSigned_seq : (recordSigned c).seq = c.seq := by unfold recordSigned; split <;> simp

@[simp] theorem commitWait_seq : (commitWait c).seq = c.seq := by unfold commitWait; split <;> simp

@[simp] theorem packGone_seq : (packGone c).seq = c.seq := by simp [packGone, packPathRemoved, dropPack, dropWrites]

@[simp] theorem packComes_seq : (packComes c).seq = c.seq := by simp [packComes, declarePresent, startCounter]

@[simp] theorem packPresent_seq (why : Option ProbeWhy) : (packPresent why c).seq = c.seq := by simp [packPresent]

@[simp] theorem writeTxn_seq (w : TagWrite) (bs : List Byte) : (writeTxn w bs c).seq = c.seq := by
  unfold writeTxn; split <;> simp [packRemoved]

@[simp] theorem txnFails_seq (cmd : TagCmd) (absent : Bool) : (txnFails cmd absent c).seq = c.seq := by
  simp only [txnFails]; (repeat' split) <;> simp

@[simp] theorem endTxn_seq (res : TagResult) : (endTxn res c).seq = c.seq := by unfold endTxn; (repeat' split) <;> simp

@[simp] theorem driverResume_seq : (driverResume c).seq = c.seq := by unfold driverResume; split <;> simp

/-! ### Modes -/

@[simp] theorem dropSession_seq (byGauge : Bool) (h : Nat) : (dropSession byGauge h c).seq = c.seq := by
  unfold dropSession; split <;> simp

@[simp] theorem putTarget_seq (off : Nat) (bs : List Byte) : (putTarget off bs c).seq = c.seq := by simp [putTarget]

@[simp] theorem abandonCheck_seq : (abandonCheck c).seq = c.seq := by simp [abandonCheck]

/-! ### Feeds -/

@[simp] theorem governorUpdate_seq (f : FeedId) : (governorUpdate f c).seq = c.seq := by unfold governorUpdate; split <;> simp

@[simp] theorem setTrip_seq (k : TripId) (x : Trip) : (setTrip k x c).seq = c.seq := by unfold setTrip; split <;> simp

@[simp] theorem feedRefuted_seq (f : FeedId) : (feedRefuted f c).seq = c.seq := by fun_cases feedRefuted <;> simp +zetaDelta

@[simp] theorem packConfirmed_seq : (packConfirmed c).seq = c.seq := by simp [packConfirmed]

@[simp] theorem packRefuted_seq : (packRefuted c).seq = c.seq := by simp [packRefuted]

@[simp] theorem setKelvinOpen_seq (k : TripId) (o : Bool) : (setKelvinOpen k o c).seq = c.seq := by simp [setKelvinOpen]

@[simp] theorem feedKelvinOpen_seq (f : FeedId) (k : TripId) : (feedKelvinOpen f k c).seq = c.seq := by simp [feedKelvinOpen]

@[simp] theorem packKelvinOpen_seq : (packKelvinOpen c).seq = c.seq := by simp [packKelvinOpen]

@[simp] theorem packKelvinPass_seq : (packKelvinPass c).seq = c.seq := by simp [packKelvinPass]

/-! ### Measurement -/

@[simp] theorem endSpan_seq : (endSpan c).seq = c.seq := by simp [endSpan]

/-! ### The auxiliary ADC -/

@[simp] theorem afterTemp_seq : (afterTemp nvm c).seq = c.seq := by
  simp [afterTemp, recomputeTemp, formDie, formBoard, indicatePack, indicateBoard]

/-! ### The journal -/

@[simp] theorem beginCommit_seq (retried : Bool) (start : Time) : (beginCommit retried start nvm c).seq = c.seq := by
  unfold beginCommit; split <;> simp

@[simp] theorem commitFails_seq (r : Commit) : (commitFails r nvm c).seq = c.seq := by simp [commitFails]

@[simp] theorem portFree_seq : (portFree nvm c).seq = c.seq := by fun_cases portFree <;> simp

@[simp] theorem commitEnds_seq (r : Commit) : (commitEnds r c).seq = c.seq := rfl

@[simp] theorem spoiled_seq (bs : List Byte) : (spoiled bs c).2.seq = c.seq := rfl

@[simp] theorem writeComplete_seq (ok : Bool) : (writeComplete ok nvm c).seq = c.seq := by
  simp only [writeComplete]
  (repeat' split) <;> cases ok <;> simp

@[simp] theorem writeTimeout_seq : (writeTimeout nvm c).seq = c.seq := by
  simp only [writeTimeout]
  (repeat' split) <;> simp

/-! ### Pairs -/

@[simp] theorem standInNow_seq : (standInNow c).seq = c.seq := rfl

@[simp] theorem probePhase_seq (phase code : Nat) : (probePhase phase code c).seq = c.seq := by fun_cases probePhase <;> simp

@[simp] theorem probeDecision_seq : (probeDecision c).seq = c.seq := by
  unfold probeDecision; split <;> simp [applyVerdict, nextSplitProbe]

/-! ### SHIP requests and shut-down -/

@[simp] theorem shipLapse_seq (high : Bool) : (shipLapse high c).seq = c.seq := by unfold shipLapse; split <;> simp

@[simp] theorem joinWrite_seq (w0 : TagWrite) : (joinWrite w0 c).seq = c.seq := by fun_cases joinWrite <;> simp +zetaDelta

@[simp] theorem shutTagWrite_seq : (shutTagWrite c).seq = c.seq := by fun_cases shutTagWrite <;> simp

@[simp] theorem shutFeed_seq (f : FeedId) : (shutFeed f c).seq = c.seq := by simp [shutFeed]

@[simp] theorem shutPaths_seq : (shutPaths c).seq = c.seq := by simp [shutPaths]

/-! ### The host links -/

@[simp] theorem rxStuckRetry_seq (stillStuck : Bool) : (rxStuckRetry stillStuck c).seq = c.seq := by
  unfold rxStuckRetry; split <;> simp

@[simp] theorem frameDropped_seq : (frameDropped c).seq = c.seq := by unfold frameDropped; split <;> simp

@[simp] theorem ownWake_seq : (ownWake c).seq = c.seq := by unfold ownWake; split <;> simp

@[simp] theorem pulseEnd_seq : (pulseEnd c).seq = c.seq := by unfold pulseEnd; split <;> simp

/-! ### Slots -/

@[simp] theorem sendProvisional_seq (s : Slot) (g : Guest) : (sendProvisional n s g c).seq = c.seq := by simp [sendProvisional]

@[simp] theorem provisionalDecision_seq : (provisionalDecision nvm n c).seq = c.seq := by
  fun_cases provisionalDecision <;> simp +zetaDelta

@[simp] theorem endSlot_seq (s : Slot) : (endSlot n s c).seq = c.seq := by simp [endSlot]

@[simp] theorem plannedEnd_seq : (plannedEnd nvm n c).seq = c.seq := by unfold plannedEnd; split <;> simp

@[simp] theorem dropLate_seq (g : Nat) : (dropLate nvm g c).seq = c.seq := by fun_cases dropLate <;> simp +zetaDelta

@[simp] theorem cutRelease_seq : (cutRelease n c).seq = c.seq := by unfold cutRelease; split <;> simp

/-! ### Requests and sessions -/

@[simp] theorem imageChecked_seq : (imageChecked nvm c).seq = c.seq := by fun_cases imageChecked <;> simp

@[simp] theorem pendingReady_seq : (pendingReady nvm c).seq = c.seq := by fun_cases pendingReady <;> simp +zetaDelta

end

/-! ### The mode through the operations on the sequence state -/

@[simp] theorem mode_ite (p : Prop) [Decidable p] (a b : Seq) : (if p then a else b).mode = if p then a.mode else b.mode :=
  apply_ite ..

@[simp] theorem elim_mode {α : Type} {d : Chip} {g : α → Chip} (h : ∀ x, (g x).seq.mode = d.seq.mode) (o : Option α) :
    (o.elim d g).seq.mode = d.seq.mode := by
  cases o with
  | none => rfl
  | some x => exact h x

section
variable (nvm : Nvm) (c : Chip)

@[simp] theorem otpDone_seq : (otpDone c).seq = c.seq := by unfold otpDone; split <;> rfl
@[simp] theorem startShut_mode (cause : ShutCause) : (startShut cause nvm c).seq.mode = c.seq.mode := by simp [startShut]
@[simp] theorem abortShut_mode : (abortShut c).seq.mode = c.seq.mode := by simp [abortShut]
@[simp] theorem dueShut_mode : (dueShut nvm c).seq.mode = c.seq.mode := by simp [dueShut]
@[simp] theorem followSpurs_mode : (followSpurs c).seq.mode = c.seq.mode := by simp [followSpurs]
@[simp] theorem delayOver_mode (f : FeedId) : (delayOver f c).seq.mode = c.seq.mode := by simp [delayOver]
@[simp] theorem watchCheck_mode (f : FeedId) : (watchCheck f c).seq.mode = c.seq.mode := by simp [watchCheck]
@[simp] theorem feedWatch_mode (f : FeedId) : (feedWatch f c).seq.mode = c.seq.mode := by simp [feedWatch]

@[simp] theorem feedKelvinPass_mode (f : FeedId) (k : TripId) : (feedKelvinPass f k c).seq.mode = c.seq.mode := by
  simp [feedKelvinPass]

@[simp] theorem kelvinEnd_mode (k : TripId) : (kelvinEnd k c).seq.mode = c.seq.mode := by cases k <;> simp [kelvinEnd]
@[simp] theorem prechargeStart_mode : (prechargeStart c).seq.mode = c.seq.mode := by simp [prechargeStart]

@[simp] theorem declareEod_mode : (declareEod nvm c).seq.mode = c.seq.mode := by simp [declareEod]

@[simp] theorem eodSecond_mode : (eodSecond nvm c).seq.mode = c.seq.mode := by fun_cases eodSecond <;> simp +zetaDelta

@[simp] theorem shutNext_mode (k : Nat) : (shutNext k nvm c).seq.mode = c.seq.mode := by
  unfold shutNext; split <;> simp [shutCommit, shutRail]

end

/-! ### In SHIP: what the running gauge alone does, and what its guards keep away -/

section
variable {c : Chip} (h : c.seq.mode = .ship)
include h

theorem running_of_ship : running c = false := by simp [running, h]
theorem linkRuns_of_ship : linkRuns c = false := by simp [linkRuns, h]
theorem kTakes_of_ship : kTakes c = false := by simp [kTakes, linkRuns_of_ship h]
theorem canTakes_of_ship : canTakes c = false := by simp [canTakes, running_of_ship h]
theorem smbAnswers_of_ship : smbAnswers c = false := by simp [smbAnswers, running_of_ship h]
theorem tagActive_of_ship : tagActive c = false := by simp [tagActive, running_of_ship h]
theorem requestFrame_of_ship (f : RuellFrame) : requestFrame f c = (.ignored, c) := by
  simp [requestFrame, canTakes_of_ship h]

/-- No request is received in SHIP. -/
theorem receive_of_ship (d : Delivery) : receive d c = (none, c) := by
  cases d <;> simp [receive, smbAnswers_of_ship h, requestFrame_of_ship h]

theorem serve_of_ship (k : Command) (d : Delivery) (nvm : Nvm) : serve k d nvm c = c := by simp [serve, receive_of_ship h]

theorem criticalReset_of_ship (cause : ResetCause) (bit : Nat) (strap : Strap) : criticalReset cause bit strap c = c := by
  simp [criticalReset, running_of_ship h]

theorem auxConversion_of_ship (code : Nat) (overRange : Option Bool) (nvm : Nvm) : auxConversion code overRange nvm c = c := by
  simp [auxConversion, running_of_ship h]

theorem kFrame_of_ship (len : Nat) (ok : Chip → KersorFrame → Bool) (f : KersorFrame) (act : Chip → Chip) :
    kFrame len ok f act c = c := by
  simp [kFrame, kTakes_of_ship h]

theorem stepComplete_of_ship (strap : Strap) (inp : StepInput) (nvm : Nvm) : stepComplete strap inp nvm c = c :=
  if_pos (by simp [h])

theorem restartNow_of_ship (sent : Bool) (strap : Strap) : restartNow sent strap c = c := by
  unfold restartNow; split <;> simp [running_of_ship h]

theorem parkIfAlone_of_ship (nvm : Nvm) : parkIfAlone nvm c = c := by simp [parkIfAlone, h]

end

/-! ### Operations that keep SHIP: the loss and the arrival of a feed, and the end of a session -/

section
variable {c : Chip} (nvm : Nvm) (h : c.seq.mode = .ship)
include h

theorem followRail_ship : (followRail nvm c).seq.mode = .ship := by simp [followRail, parkIfAlone_of_ship h, h]
theorem feedGone_ship : (feedGone nvm c).seq.mode = .ship := by
  simp [feedGone, abandonImage, h, followRail_ship]

theorem feedFail_ship (f : FeedId) (cause : Nat) : (feedFail f cause nvm c).seq.mode = .ship := by
  simp [feedFail, feedGone_ship, h]

theorem inrushFail_ship (f : FeedId) : (inrushFail f nvm c).seq.mode = .ship := by
  unfold inrushFail; split <;> simp [feedFail_ship, h]

theorem feedArrived_ship : (feedArrived nvm c).seq.mode = .ship := by simp [feedArrived, followRail_ship, h]

theorem feedConfirmed_ship (f : FeedId) : (feedConfirmed f nvm c).seq.mode = .ship := by
  fun_cases feedConfirmed <;> simp +zetaDelta [feedFail_ship, h]

theorem tripVerdict_ship (k : TripId) (sum : Nat) : (tripVerdict k sum nvm c).seq.mode = .ship := by
  fun_cases tripVerdict <;> simp +zetaDelta [feedConfirmed_ship, h]

theorem feedMirageFound_ship (f : FeedId) : (feedMirageFound f nvm c).seq.mode = .ship := by
  fun_cases feedMirageFound <;> simp +zetaDelta [feedGone_ship, h]

theorem feedMirageCheck_ship (f : FeedId) : (feedMirageCheck f nvm c).seq.mode = .ship := by
  unfold feedMirageCheck; split <;> simp [feedMirageFound_ship, h]

theorem inrushTimeout_ship (f : FeedId) : (inrushTimeout f nvm c).seq.mode = .ship := by
  unfold inrushTimeout; split <;> simp [inrushFail_ship, h]

theorem inrushComplete_ship (f : FeedId) (maxDropMv : Int) (durNs : Nat) :
    (inrushComplete f maxDropMv durNs nvm c).seq.mode = .ship := by
  simp [inrushComplete, acceptFeed, feedArrived_ship, h]

theorem endSession_ship (byGauge : Bool) (n : Nat) : (endSession byGauge n c).seq.mode = .ship := by
  simp [endSession, h]

theorem mirageFeedStop_ship : (mirageFeedStop nvm c).seq.mode = .ship := by
  simp [mirageFeedStop, feedFail_ship, h]

/-- A shut-down sequence may still stand in SHIP; its last step enters SHIP once more. -/
theorem shutStep_ship : (shutStep nvm c).seq.mode = .ship := by
  simp [shutStep, enterShip, h]

end

/-! ### The commands in SHIP -/

/-- Of a block function that takes the gauge `c` to `d`: it does not end SHIP. -/
structure ShipKept (c d : Chip) : Prop where
  mode : c.seq.mode = .ship → d.seq.mode = .ship

theorem ShipKept.of_mode {c d : Chip} (h : d.seq.mode = c.seq.mode) : ShipKept c d := ⟨h.trans⟩
theorem ShipKept.of_seq {c d : Chip} (h : d.seq = c.seq) : ShipKept c d := .of_mode (congrArg Seq.mode h)

/-- Time and the pins leave the mode, so a command ends SHIP only where its block function does. -/
theorem run_shipKept {t : Time} {f : Nvm → Chip → Chip} {s u : State} (h : run t f s = .next u)
    (hf : ∀ nvm c, ShipKept c (f nvm c)) : ShipKept s.chip u.chip := by
  cases h
  exact ⟨fun hs => (hf s.nvm (tick t s.chip)).mode hs⟩

/-- No command but the wake watcher's ends SHIP (R136): most ask for a mode, a task or a link that SHIP does not have, some step or
end a sequence only where one runs, and the others leave the mode wherever it stands. -/
theorem exec_shipKept {i : Instr} {s u : State} (h : exec i s = .next u)
    (hi : ∀ t feed mv ns strap, i ≠ .shipWake t feed mv ns strap) : ShipKept s.chip u.chip := by
  cases i with
  | shipWake => exact absurd rfl (hi _ _ _ _ _)
  -- commands of a gauge that runs, or of a task that does
  | powerOnResetRelease | powerOnResetAssert | rstNLow | watchdogTimeout | coreBrownout | ramParityError | supplyCollapse
    | configureStepComplete | shipNRequest | limpFeedSetDecided | limpFloor | restartAfterResponse | rstNRelease =>
    exact run_shipKept h fun _ _ => ⟨fun hc => by simp [powerRelease, powerAssert, rstLow, watchdogReset, supplyCollapse, shipN,
      limpFeedSet, limpFloor, rstRelease, running_of_ship hc, criticalReset_of_ship hc, stepComplete_of_ship hc,
      restartNow_of_ship hc, hc]⟩
  | otpProgramStart | fastWord | preciseWord | modulatorReset | slowChopBlockPair | auxConversionComplete | tsBiasFault
    | crystalFail | modClockFault | coreTrimExhausted | domainClockFault | queueOverflow | lptCalibration =>
    exact run_shipKept h fun _ _ => ⟨fun hc => by simp [otpStart, fastWord, preciseWord, modulatorReset, blockPair, tsBiasFault,
      crystalFail, modFault, coreTrimFault, domainFault, queueOverflow, lptCalibration, running_of_ship hc,
      auxConversion_of_ship hc, hc]⟩
  | fastTripFire | feedWindowCrossing | feedReversed | kelvinTestStart | chargePumpLow | chargePumpReady | shareLoopUpdate
    | shareFault | packReversed =>
    exact run_shipKept h fun _ _ => ⟨fun hc => by simp [tripFire, tripArmed, windowCrossing, feedReversed, kelvinStart, pumpLow,
      pumpReady, shareUpdate, shareDriven, shareFault, packReversed, running_of_ship hc, hc]⟩
  | estimatorUpdate | periodicJournalCommit | periodicTagWrite | tagProbe | pkIdPinFault | slotTick | slotEndRead
    | journalCommitStart | stickyReassert =>
    exact run_shipKept h fun _ _ => ⟨fun hc => by simp [estimatorUpdate, updateDue, periodicJournal, periodicTag, tagProbe,
      pinFault, slotTick, sendHeartbeat, innRuns, slotEndRead, commitStart, commitDue, stickyReassert, running_of_ship hc,
      auxConversion_of_ship hc, tagActive_of_ship hc, linkRuns_of_ship hc, hc]⟩
  -- commands of the host's links
  | smbusSendDiscarded | smbusFetch | smbusZeroLengthRead | smbusClockTimeout | smbStuck | alertResponseRead
    | ruellSegmentDiscarded | reassemblyTimeout | sessionResponseRelease | unknownOpcode | ruellRequestSegment =>
    exact run_shipKept h fun _ _ => ⟨fun hc => by simp [smbDiscard, smbFetch, smbZeroRead, smbTimeout, smbStuck, alertRead,
      segmentDiscarded, reasmTimeout, releaseResponses, serveUnknown, requestSegment, running_of_ship hc,
      smbAnswers_of_ship hc, requestFrame_of_ship hc, receive_of_ship hc, hc]⟩
  | canFrameIgnored | ownAddressFrame | canBusOff | canRxStuck | wakeNWake | wakeNStuck | canRxWake | canDomainStop
    | timeSyncSend | timeSync | timeFollow | timeSourceLost =>
    exact run_shipKept h fun _ _ => ⟨fun hc => by simp [frameIgnored, ownAddress, busOff, rxStuck, wakeWake, wakeStuck, rxWake,
      domainStop, syncSend, syncReceived, followReceived, sourceLost, running_of_ship hc, canTakes_of_ship hc, hc]⟩
  | cmdRead | cmdGuestRead | cmdJournalRead | cmdResult | cmdSessionOpen | cmdSessionConfirm | cmdSessionClose
    | cmdSetTime | cmdShip | cmdClearSticky | cmdGuestRevoke | cmdGuestRestore | cmdDepot | cmdDepotExit | cmdRestart
    | cmdCalPoint | cmdTagRead | cmdTagWrite | cmdImageBegin | cmdImageWrite | cmdImageCheck =>
    exact run_shipKept h fun _ _ => ⟨fun hc => by simp [serve_of_ship hc, hc]⟩
  -- commands of the partner's link
  | kersorLockAcquired | kersorFrameDiscarded | kersorRetransmit | heartbeat | join | summary | guestRecord | provisional | close
    | leaving | restore | recordsEnd | pairLinkLost | pairSplitProbeRepeat | pairJoinSend | pairJoinTimeout =>
    exact run_shipKept h fun _ _ => ⟨fun hc => by simp [lockAcquired, heartbeat, kRecord, linkTimeout, splitRepeat, joinSend,
      inStep7, joinTimeout, linkRuns_of_ship hc, kTakes_of_ship hc, kFrame_of_ship hc, hc]⟩
  -- commands that can start, step or end a sequence or change a mode: none of it in SHIP
  | shutdownStepComplete | fastTripVerdict | inrushTimeout | inrushComplete | feedMirageCheck | prechargeStart
    | prechargeComplete | packReenable | packMirageFeedStop | sessionIdleTimeout | sessionHalfOpenTimeout =>
    exact run_shipKept h fun _ _ => ⟨fun hc => by simp [shutStep_ship, tripVerdict_ship, inrushTimeout_ship,
      inrushComplete_ship, feedMirageCheck_ship, followRail_ship, prechargeComplete, packReenable, mirageFeedStop_ship,
      idleTimeout, endSession_ship, halfOpenTimeout, hc]⟩
  -- commands that leave the mode, whichever it is
  | insertionDelayExpiry | feedUncoupled | feedReversalClear | kelvinTestEnd | endOfDischargeDeclared =>
    exact run_shipKept h fun _ _ => .of_mode (by simp [delayExpiry, feedUncoupled, feedReversalClear])
  | otpProgramDone | shipRequestLapse | wakeLockoutRelease | calPointComplete | calPointTimeout | isothermalCheck
    | retentionLoss =>
    exact run_shipKept h fun _ _ => .of_seq (by simp [wakeRelease, calComplete, calTimeout, isothermalCheck, retentionLoss])
  | inrushStart | inrushGovernorUpdate | feedFastReverse | feedReenableStart | dropTargetAdapt | feedRetryWaitExpiry
    | feedRetryCountReset =>
    exact run_shipKept h fun _ _ => .of_seq (by simp [inrushStart, fastReverse, reenableStart, dropAdapt, feedRetryExpiry,
      feedRetryReset])
  | prechargeTimeout | packStandDown | packFastReverse | chargeStart | chargeSetpointUpdate | chargeLimitStep | chargeTrim
    | chargeHandBack | chargerFault | packMirageCheck | packReversalClear | packRetryWaitExpiry | packRetryCountReset =>
    exact run_shipKept h fun _ _ => .of_seq (by simp [prechargeTimeout, packStandDown, packFastReverse, setpointUpdate,
      chargeTrim, chargeHandBack, packReversalClear, packRetryExpiry, packRetryReset])
  | spurTotalOverload | spurRampComplete | spurRampdownComplete | spurCurrentLimit | spurLimitHeld | spurRampDeadline
    | spurThermalShutdown | spurThermalCooled | spurBackfeedOn | spurBlockedRelease | spurRetryWaitExpiry
    | spurRetryCountReset | spurFaultedProbe | spurProbeSuccess | spurOffStateTestEnd | spurContinuousDiagnosis =>
    exact run_shipKept h fun _ _ => .of_seq (by simp [rampdownComplete, currentLimit, thermalShutdown, thermalCooled,
      backfeedOn, blockedRelease, retryReset, faultedProbe, offStateTest])
  | governorOnWindow | governorSecond | wakeComparatorCrossing | burstEnd | countGap | restSecond | anchorDue
    | endOfChargeDeclared | firstEstimate | impedancePhaseEnd =>
    exact run_shipKept h fun _ _ => .of_seq (by simp [governorSecond, notePowers, wakeCrossing])
  | tagTransactionComplete | getResponsePoll | signatureVerified | exchangeAbandon | adoptionAbandon | tagWriteStart
    | tagRecordSigned | tagCommitWaitExpiry | pkIdDriverResume =>
    exact run_shipKept h fun _ _ => .of_seq (by simp [tagTxn, exchangeAbandon, adoptionAbandon, writeStart])
  | slotProvisionalDecision | canStartForSlot | slotFinalDecision | slotPlannedEnd | slotLate | cellarFillComplete
    | ledgerCheck | spurCutRelease =>
    exact run_shipKept h fun _ _ => .of_seq (by simp [canForSlot, canStartOwn, finalAtStart, fillEnds, ledgerCheck])
  | wakeNPulseEnd | sessionLockoutEnd | pendingOutcomeReady | canFrameDropped | canOwnWake | busOffRecovered
    | canRxStuckRetry =>
    exact run_shipKept h fun _ _ => .of_seq (by simp [lockoutEnd, busRecovered])
  | kersorLockLost | pairProbePhase | pairProbeDecision | nvmWriteComplete | journalWriteTimeout =>
    exact run_shipKept h fun _ _ => .of_seq (by simp [lockLost])

/-! ### The wake watcher -/

/-- The wake watcher's condition (R136): armed in SHIP, above 8.0 V for 50 ms, counted from the entry of SHIP at the earliest. -/
def Wakes (mv : Int) (ns : Nat) (c : Chip) : Prop :=
  c.seq.mode = .ship ∧ c.ret.wakeArmed = true ∧ 8000 < mv ∧ ms 50 ≤ min ns (since c c.seq.shipSince)

section
variable {mv : Int} {ns : Nat} {c : Chip} (strap : Strap)

theorem shipWake_of_not_wakes (h : ¬ Wakes mv ns c) : shipWake mv ns strap c = c := if_neg h

/-- What a wake leads to (R136, R137); the NVM interface carries what the reset puts on it. -/
theorem shipWake_of_wakes (h : Wakes mv ns c) :
    (shipWake mv ns strap c).seq.mode = .configure ∧ (shipWake mv ns strap c).seq.step = 0 ∧
      (shipWake mv ns strap c).seq.strap = strap ∧ (shipWake mv ns strap c).spi = (abandonCheck c).spi ∧
      (shipWake mv ns strap c).ret = { c.ret with
        cause := .shipWake
        shutOutcome := if since c c.seq.shipSince ≤ ns ∧ c.ret.shutOutcome = .completed then .wokenAtOnce
          else c.ret.shutOutcome } := by
  have hw : shipWake mv ns strap c = _ := if_pos h
  simp [hw, enterConfigure, resetChip]

end

/-- The wake leads from SHIP to CONFIGURE; with no check of the target copy pending it leaves the NVM as it is. -/
theorem exec_shipWake_of_wakes {s : State} {t : Time} (feed : FeedId) {mv : Int} {ns : Nat} (strap : Strap)
    (hspi : s.chip.spi = []) (hcheck : checkPending s.chip = false) (h : Wakes mv ns (tick t s.chip)) :
    ∃ u, exec (.shipWake t feed mv ns strap) s = .next u ∧ u.chip.seq.mode = .configure ∧ u.chip.seq.step = 0 ∧
      u.chip.seq.strap = strap ∧ u.nvm = s.nvm ∧ u.pending = s.pending ∧ u.chip.ret = { s.chip.ret with
        cause := .shipWake
        shutOutcome := if max s.chip.now t - s.chip.seq.shipSince ≤ ns ∧ s.chip.ret.shutOutcome = .completed
          then .wokenAtOnce else s.chip.ret.shutOutcome } := by
  obtain ⟨hmode, hstep, hstrap, hw, hret⟩ := shipWake_of_wakes strap h
  have hcheck' : checkPending (tick t s.chip) = false := hcheck
  have quiet : (abandonCheck (tick t s.chip)).spi = [] := by simp [abandonCheck, hcheck', hspi]
  exact ⟨_, rfl, hmode, hstep, hstrap, by simp [runState, hw, quiet], rfl, hret⟩

/-- A lower or shorter input, or a watcher that is not armed, does nothing. -/
theorem exec_shipWake_of_not_wakes {s : State} {t : Time} (feed : FeedId) {mv : Int} {ns : Nat} (strap : Strap)
    (hspi : s.chip.spi = []) (h : ¬ Wakes mv ns (tick t s.chip)) :
    exec (.shipWake t feed mv ns strap) s = .next (after t (fun c => c) s) :=
  run_after (shipWake_of_not_wakes strap h) hspi

/-- SHIP ends by the wake watcher alone, and leads to CONFIGURE (R136). -/
theorem exec_ends_ship {i : Instr} {s u : State} (hs : s.chip.seq.mode = .ship) (h : exec i s = .next u)
    (hu : u.chip.seq.mode ≠ .ship) :
    ∃ t feed mv ns strap, i = .shipWake t feed mv ns strap ∧ 8000 < mv ∧ ms 50 ≤ ns ∧ u.chip.seq.mode = .configure := by
  by_cases hi : ∃ t feed mv ns strap, i = .shipWake t feed mv ns strap
  · obtain ⟨t, feed, mv, ns, strap, rfl⟩ := hi
    cases h
    by_cases w : Wakes mv ns (tick t s.chip)
    · obtain ⟨hmode, -⟩ := shipWake_of_wakes strap w
      obtain ⟨-, -, hmv, hns⟩ := w
      exact ⟨t, feed, mv, ns, strap, rfl, hmv, (Nat.le_min.mp hns).1, hmode⟩
    · exact absurd ((congrArg (·.seq.mode) (shipWake_of_not_wakes strap w)).trans hs) hu
  · exact absurd ((exec_shipKept h fun t feed mv ns strap e => hi ⟨t, feed, mv, ns, strap, e⟩).mode hs) hu

/-! ### The end of SHIP refuted as stated -/

/-- A gauge in SHIP whose image check never ended: the 50 ms of the wake watcher run from time 0. -/
def shipWithCheck : State :=
  { State.reset with
    chip := { State.reset.chip with
      seq := { mode := .ship }
      ret.wakeArmed := true
      host.pend := some { op := 0x2A, handle := 1, at_ := 0, orphan := false, done := none, outcome := none }
      img.map := some
        { sizeCode := 0, copyA := 4096, copyB := 8192, copyLen := 4096, journal := 0, journalLen := 4096, cellar := 0, cellarLen := 0
          bytes44 := [] } } }

/-- Refutes O8: a SHIP whose image check still pends holds the first clause's premises, but the wake's reset gives the check up and
writes MAGIC of the target copy, so the NVM changes. `exec_shipWake_of_wakes`, `exec_shipWake_of_not_wakes` and `exec_ends_ship`
say what holds. -/
theorem not_onlyTheWakeWatcherEndsShip : ¬ Obligations.OnlyTheWakeWatcherEndsShip := by
  unfold Obligations.OnlyTheWakeWatcherEndsShip
  rintro ⟨wake, -⟩
  obtain ⟨leads, -⟩ := wake shipWithCheck (ms 50) .a 8001 (ms 50) .opn rfl rfl
  obtain ⟨u, hu, -, -, -, hnvm, -⟩ := leads rfl (by decide) (by decide +kernel)
  cases hu
  exact absurd hnvm (by decide +kernel)

/-! ### SHIP requests -/

/-- A request starts the sequence at once: in PARKED, and in LIMP with no feed accepted (R133). -/
def StartsAtOnce (c : Chip) : Prop := c.seq.mode = .parked ∨ (c.seq.mode = .limp ∧ anyFeed c = false)

theorem not_startsAtOnce {c : Chip} (hp : c.seq.mode ≠ .parked) (hl : c.seq.mode = .limp → anyFeed c = true) :
    ¬ StartsAtOnce c := by
  rintro (h | ⟨h, hf⟩)
  · exact hp h
  · simp [hl h] at hf

theorem StartsAtOnce.running {c : Chip} (h : StartsAtOnce c) : running c = true := by
  rcases h with h | ⟨h, -⟩ <;> simp [Machine.running, h]

section
variable (nvm : Nvm) {c : Chip} {ns : Nat}

theorem shipRequest_of_waits (h : ¬ StartsAtOnce c) : shipRequest true nvm c = armShip true c := if_neg h

theorem shipRequest_of_starts (h : StartsAtOnce c) : shipRequest true nvm c = startShut .shipN nvm (armShip true c) := if_pos h

/-- A pulse shorter than 1 ms does nothing, and neither does one while the gauge does not run (R131). -/
theorem shipN_of_ignored (h : ns < ms 1 ∨ running c = false) : shipN ns nvm c = c := by
  rcases h with h | h <;> simp [shipN, h]

/-- A pulse of 10 ms requests (R131). -/
theorem shipN_of_long (hr : running c = true) (h : ms 10 ≤ ns) : shipN ns nvm c = shipRequest true nvm c := by
  have h1 : ¬ ns < ms 1 := Nat.not_lt.mpr (Nat.le_trans (by decide) h)
  simp [shipN, hr, h, h1]

/-- Of a pulse between 1 ms and 10 ms a free value decides whether it requests (log entry 2). -/
theorem shipN_of_between (hr : running c = true) (h1 : ms 1 ≤ ns) (h10 : ns < ms 10) :
    shipN ns nvm c = if Config.pulseActs c.free then shipRequest true nvm { c with free := c.free + 1 }
      else { c with free := c.free + 1 } := by
  simp [shipN, hr, Nat.not_lt.mpr h1, Nat.not_le.mpr h10, freePulse]

/-- A request in force lapses once neither the pin nor its 10 min hold it (R134). -/
theorem shipLapse_of_armed {a : Armed} (h : c.ret.armed = some a) (high : Bool) :
    shipLapse high c = { c with ret.armed :=
      if (a.byPin && !high) = true ∨ c.now ≤ a.until_ then some { a with byPin := a.byPin && !high } else none } := by
  simp [shipLapse, h]

theorem shipLapse_of_none (h : c.ret.armed = none) (high : Bool) : shipLapse high c = c := by simp [shipLapse, h]

/-! ### The sequence that a request starts -/

theorem startShut_of_shutting (cause : ShutCause) (h : c.seq.shutStep ≠ 0) : startShut cause nvm c = c := by
  simp [startShut, shutting, h]

/-- The sequence starts with its step 1; the rest is beacons (R139). -/
theorem startShut_beaconsOnly (cause : ShutCause) (h : c.seq.shutStep = 0) :
    BeaconsOnly { c with seq := { c.seq with shutStep := 1, shutNow := cause, shutStart := c.now, committed := false } }
      (startShut cause nvm c) := by
  simpa [startShut, shutting, h] using recheckAll_beaconsOnly nvm _

/-- The gauge once SHIP_N has been low for `ns`: a free value is drawn where the spec leaves the pulse open (log entry 2). -/
def pulsed (ns : Nat) (c : Chip) : Chip := { c with free := if ms 10 ≤ ns then c.free else c.free + 1 }

/-- Where a request starts the sequence at once, the pulse either does so or draws a free value at most (R131, R133). -/
theorem shipN_of_starts (h : StartsAtOnce c) (h1 : ms 1 ≤ ns) :
    shipN ns nvm c = if ms 10 ≤ ns ∨ Config.pulseActs c.free = true then startShut .shipN nvm (armShip true (pulsed ns c))
      else pulsed ns c := by
  by_cases h10 : ms 10 ≤ ns
  · simp [shipN_of_long nvm h.running h10, shipRequest_of_starts nvm h, pulsed, h10]
  · have hd : StartsAtOnce { c with free := c.free + 1 } := h
    simp [shipN_of_between nvm h.running h1 (Nat.not_le.mp h10), shipRequest_of_starts nvm hd, pulsed, h10]

end

/-! ### What a request leaves unchanged -/

/-- What a step keeps does not grow less by a part that it leaves as it was. -/
theorem keeps_without {p : Part} {ps : List Part} {a b : State} (h : Keeps (p :: ps) a b) (hp : p.same a b) : Keeps ps a b :=
  ⟨h.1, fun q hq => by
    by_cases e : q = p
    · exact e ▸ hp
    · exact h.2 q (by simp [e, hq])⟩

/-- A request touches the sequence, the request itself, beacons and records, and the free values. -/
theorem became_keeps_of_beaconsOnly {s : State} {t : Time} {seq : Seq} {ret : Retention} {free : Nat} {d : Chip}
    (hspi : s.chip.spi = []) (h : BeaconsOnly { tick t s.chip with seq := seq, ret := ret, free := free } d) :
    Keeps [.seq, .inn, .can, .pair, .ret, .free] s (became d s) := by
  obtain ⟨inn, can, pair, rfl⟩ := h
  have touched (p : Part) : p ∈ [.seq, .inn, .can, .pair, .ret, .free] ∨ p.same s (became
      { tick t s.chip with seq := seq, ret := ret, free := free, inn := inn, can := can, pair := pair } s) := by
    cases p <;> simp [Part.same, hspi]
  exact keeps_of_parts rfl fun p hp => (touched p).resolve_left hp

/-- With no sequence to start, what is left of a request is the request itself. -/
theorem became_keeps_of_request {s : State} {t : Time} {ret : Retention} {free : Nat} (hspi : s.chip.spi = []) :
    Keeps [.ret, .free] s (became { tick t s.chip with ret := ret, free := free } s) :=
  have h := became_keeps_of_beaconsOnly (t := t) (seq := s.chip.seq) (ret := ret) (free := free) hspi (.refl _)
  keeps_without (keeps_without (keeps_without (keeps_without h rfl) rfl) rfl) rfl

/-- A pulse that does not act draws a free value at most. -/
theorem became_keeps_pulsed {s : State} {t : Time} (ns : Nat) (hspi : s.chip.spi = []) :
    Keeps [.free] s (became (pulsed ns (tick t s.chip)) s) :=
  keeps_without (became_keeps_of_request hspi) rfl

/-! ### SHIP requests settled -/

/-- A pulse that requests where the sequence starts at once: the request is armed, and the sequence starts unless one runs. -/
theorem became_startShut {s : State} {t : Time} (ns : Nat) (hspi : s.chip.spi = []) :
    let u := became (startShut .shipN s.nvm (armShip true (pulsed ns (tick t s.chip)))) s
    u.chip.free = (pulsed ns (tick t s.chip)).free ∧ u.chip.ret.armed.elim false (·.byPin) = true ∧
      (s.chip.seq.shutStep = 0 → u.chip.seq = { s.chip.seq with
        shutStep := 1, shutNow := .shipN, shutStart := max s.chip.now t, committed := false } ∧
        Keeps [.seq, .ret, .inn, .can, .pair, .free] s u) ∧
      (s.chip.seq.shutStep ≠ 0 → Keeps [.ret, .free] s u) := by
  intro u
  by_cases h : s.chip.seq.shutStep = 0
  · have hb := startShut_beaconsOnly s.nvm (c := armShip true (pulsed ns (tick t s.chip))) .shipN h
    have hk : Keeps _ s u := became_keeps_of_beaconsOnly hspi hb
    obtain ⟨_, _, _, hd⟩ := hb
    refine ⟨?_, ?_, fun _ => ⟨?_, keeps_mono hk (by simp)⟩, fun hn => absurd h hn⟩ <;> simp only [u, hd] <;> rfl
  · have hd := startShut_of_shutting s.nvm (c := armShip true (pulsed ns (tick t s.chip))) .shipN h
    have hu : u = became (armShip true (pulsed ns (tick t s.chip))) s := by simp only [u, hd]
    rw [hu]
    exact ⟨rfl, rfl, fun h0 => absurd h0 h, fun _ => became_keeps_of_request hspi⟩

/-- Settles O6: a pulse ignored, one that waits, one that starts the sequence, and the end of a request. -/
theorem shipRequestsAreTakenArmedAndLapse : Obligations.ShipRequestsAreTakenArmedAndLapse := by
  unfold Obligations.ShipRequestsAreTakenArmedAndLapse
  refine ⟨fun s t hspi => ⟨?_, ?_, ?_, ?_, ?_⟩, ?_⟩
  · intro ns hr h10 hp hl
    have hw : ¬ StartsAtOnce (tick t s.chip) := not_startsAtOnce hp hl
    exact run_after ((shipN_of_long s.nvm (c := tick t s.chip) hr h10).trans (shipRequest_of_waits s.nvm hw)) hspi
  · intro ns hr h1 h10 hp hl
    have hw : ¬ StartsAtOnce { tick t s.chip with free := s.chip.free + 1 } := not_startsAtOnce hp hl
    refine run_after ((shipN_of_between s.nvm (c := tick t s.chip) hr h1 h10).trans ?_) ?_
    · rw [tick_free, shipRequest_of_waits s.nvm hw]; rfl
    · dsimp only
      split <;> exact hspi
  · intro ns h
    exact run_after (shipN_of_ignored s.nvm (c := tick t s.chip) h) hspi
  · intro a ha high
    exact run_after (shipLapse_of_armed (c := tick t s.chip) ha high) hspi
  · intro high ha
    exact run_after (shipLapse_of_none (c := tick t s.chip) ha high) hspi
  · intro s t ns hspi hst h1 _
    have hst' : StartsAtOnce (tick t s.chip) := hst
    refine ⟨_, run_became (shipN_of_starts s.nvm hst' h1), ?_⟩
    by_cases ha : ms 10 ≤ ns ∨ Config.pulseActs (tick t s.chip).free = true
    · obtain ⟨hfree, harm, hstart, hrun⟩ := became_startShut (s := s) (t := t) ns hspi
      rw [if_pos ha]
      exact ⟨hfree, .inl ha, fun _ => ⟨harm, hstart, hrun⟩⟩
    · rw [if_neg ha]
      exact ⟨rfl, .inr (became_keeps_pulsed ns hspi), fun h => absurd h ha⟩

end Sys2Proof.Machine

/-! The offset tracker and the calibration points (R177 … R181, R185, R219). The first part says what a block pair does to the tracked
offset, the second how a calibration point ends. The last refutes the statement of both: the charger of a SPAN point does not stop
without TTF reading no time (R506). -/

namespace Sys2Proof.Machine

/-! ### Accessors -/

@[simp] theorem chan_tick (t : Time) (c : Chip) (ch : ChId) : chan (tick t c) ch = chan c ch := by cases ch <;> rfl
@[simp] theorem running_tick (t : Time) (c : Chip) : running (tick t c) = running c := rfl
@[simp] theorem chan_settle (c : Chip) (ch : ChId) : chan (settle c) ch = chan c ch := by cases ch <;> rfl
@[simp] theorem chan_setFault (b : Nat) (c : Chip) (ch : ChId) : chan (setFault b c) ch = chan c ch := by
  cases ch <;> simp [chan]

/-- A detection leaves its bit set (R785). -/
theorem setFault_sets {b : Nat} (hb : b < 160) (c : Chip) : (setFault b c).ret.sticky.getLsbD b = true := by
  simp only [setFault]
  split
  · assumption
  · simp [hb]

/-- A detection touches the record, the journal and the alerts, and nothing else. -/
theorem setFault_eq (b : Nat) (c : Chip) : ∃ ret jrn alert, setFault b c = { c with ret := ret, jrn := jrn, alert := alert } := by
  simp only [setFault, latchAlert]
  (repeat' split) <;> exact ⟨_, _, _, rfl⟩

/-- A channel's record stands among the measurements. -/
theorem updChan_eq (ch : ChId) (f : ModCh → ModCh) (c : Chip) : ∃ meas, updChan ch f c = { c with meas := meas } := by
  cases ch <;> exact ⟨_, rfl⟩

/-! ### The tracked offset -/

/-- What a tracked offset of `o` is held to (R181). -/
def heldOffset (ch : ChId) (o : Rat) : Rat :=
  if isCurrent ch = true ∧ 20 < absRat o then (if o < 0 then -20 else 20) else o

section
variable {ch : ChId} {o : Rat} {c : Chip}

theorem holdOffset_of_over (hc : isCurrent ch = true) (ho : 20 < absRat o) :
    holdOffset ch o c = setFault F.offsetLimit (updChan ch (fun x => { x with offset := heldOffset ch o }) c) := by
  simp [holdOffset, heldOffset, hc, ho]

theorem holdOffset_of_within (h : ¬ (isCurrent ch = true ∧ 20 < absRat o)) :
    holdOffset ch o c = updChan ch (fun x => { x with offset := heldOffset ch o }) c := by
  simp [holdOffset, heldOffset, h]

theorem chan_holdOffset (ch : ChId) (o : Rat) (c : Chip) :
    chan (holdOffset ch o c) ch = { chan c ch with offset := heldOffset ch o } := by
  by_cases h : isCurrent ch = true ∧ 20 < absRat o
  · simp [holdOffset_of_over h.1 h.2]
  · simp [holdOffset_of_within h]

theorem holdOffset_eq (ch : ChId) (o : Rat) (c : Chip) : ∃ meas ret jrn alert,
    holdOffset ch o c = { c with meas := meas, ret := ret, jrn := jrn, alert := alert } := by
  obtain ⟨meas, hd⟩ := updChan_eq ch (fun x => { x with offset := heldOffset ch o }) c
  by_cases h : isCurrent ch = true ∧ 20 < absRat o
  · rw [holdOffset_of_over h.1 h.2, hd]
    obtain ⟨ret, jrn, alert, hf⟩ := setFault_eq F.offsetLimit { c with meas := meas }
    exact ⟨meas, ret, jrn, alert, hf⟩
  · exact ⟨meas, c.ret, c.jrn, c.alert, by rw [holdOffset_of_within h, hd]⟩

end

/-! ### Block pairs -/

/-- A pair whose words are all there, of a channel that runs, and not broken off (R218, R220). -/
def WholePair (ch : ChId) (p m : List Int) (c : Chip) : Prop :=
  running c = true ∧ (chan c ch).running = true ∧ (chan c ch).paired = true ∧ p.length = 4 ∧ m.length = 4

/-- The tracked offset after a pair whose halves are quiet (R178, R181). -/
def trackedOffset (ch : ChId) (p m : List Int) (c : Chip) : Rat :=
  trackStep ch (chan c ch).offset (pairEstimate (halves ch p m))

/-- The pair that has ended is taken. -/
def takePair (ch : ChId) (c : Chip) : Chip := updChan ch (fun x => { x with paired := false }) c

/-- The pairs of I_P are counted. -/
def notePair (ch : ChId) (c : Chip) : Chip :=
  if ch = .iP then { c with meas.pairs := satInc 65535 c.meas.pairs, meas.lastPair := some c.now } else c

section
variable {ch : ChId} {p m : List Int} {c : Chip}

@[simp] theorem chan_notePair (ch k : ChId) (c : Chip) : chan (notePair ch c) k = chan c k := by
  unfold notePair
  split
  · cases k <;> rfl
  · rfl

@[simp] theorem notePair_ret (ch : ChId) (c : Chip) : (notePair ch c).ret = c.ret := by unfold notePair; split <;> rfl

theorem notePair_eq (ch : ChId) (c : Chip) : ∃ meas, notePair ch c = { c with meas := meas } := by
  unfold notePair
  split <;> exact ⟨_, rfl⟩

theorem wholePair_tick (t : Time) : WholePair ch p m (tick t c) ↔ WholePair ch p m c := by
  simp only [WholePair, chan_tick, running_tick]

theorem blockPair_of_not_whole (h : ¬ WholePair ch p m c) : blockPair ch p m c = c := by
  refine if_pos (Decidable.byContradiction fun whole => h ?_)
  simpa only [WholePair, Bool.or_eq_true, not_or, Bool.not_eq_true', Bool.not_eq_false, bne_iff_ne, ne_eq, Decidable.not_not,
    and_assoc] using whole

theorem blockPair_of_whole (h : WholePair ch p m c) : blockPair ch p m c =
    if halfQuiet ch (p.map (rawReading ch 24)) && halfQuiet ch (m.map (rawReading ch 24)) then
      notePair ch (holdOffset ch (trackedOffset ch p m c) (takePair ch c))
    else takePair ch c := by
  obtain ⟨hrun, hchan, hpair, hp, hm⟩ := h
  exact if_neg (by simp [hrun, hchan, hpair, hp, hm])

end

section
variable {s : State} {t : Time} {ch : ChId} {p m : List Int} (hspi : s.chip.spi = [])
include hspi

/-- A pair that is not whole is no pair at all. -/
theorem exec_slowChopBlockPair_of_not_whole (h : ¬ WholePair ch p m s.chip) :
    exec (.slowChopBlockPair t ch p m) s = .next (after t (fun c => c) s) :=
  run_after (blockPair_of_not_whole (mt (wholePair_tick t).mp h)) hspi

/-- A pair with an unquiet half is taken, and moves nothing (R177). -/
theorem exec_slowChopBlockPair_of_unquiet (h : WholePair ch p m s.chip)
    (hq : halfQuiet ch (p.map (rawReading ch 24)) = false ∨ halfQuiet ch (m.map (rawReading ch 24)) = false) :
    exec (.slowChopBlockPair t ch p m) s = .next (after t (takePair ch) s) := by
  have hw : WholePair ch p m (tick t s.chip) := (wholePair_tick t).mpr h
  refine run_after ((blockPair_of_whole hw).trans (if_neg ?_)) (by simp [takePair, hspi])
  rcases hq with hq | hq <;> simp [hq]

/-- A quiet pair moves the tracked offset by its clamped sixteenth, within the limit of a current channel (R178, R181). -/
theorem exec_slowChopBlockPair_of_quiet (h : WholePair ch p m s.chip) (hp : halfQuiet ch (p.map (rawReading ch 24)) = true)
    (hm : halfQuiet ch (m.map (rawReading ch 24)) = true) :
    let o' := trackedOffset ch p m s.chip
    ∃ u, exec (.slowChopBlockPair t ch p m) s = .next u ∧ (chan u.chip ch).offset = heldOffset ch o' ∧
      (isCurrent ch = true → 20 < absRat o' → u.chip.ret.sticky.getLsbD F.offsetLimit = true) ∧
      (chan u.chip ch).paired = false ∧ Keeps [.ret, .jrn, .meas, .alert] s u := by
  intro o'
  have hw : WholePair ch p m (tick t s.chip) := (wholePair_tick t).mpr h
  have ho : trackedOffset ch p m (tick t s.chip) = o' := by simp [trackedOffset, o']
  have hd : blockPair ch p m (tick t s.chip) = notePair ch (holdOffset ch o' (takePair ch (tick t s.chip))) := by
    rw [blockPair_of_whole hw, ho, if_pos (by simp [hp, hm])]
  refine ⟨_, run_became hd, ?_, fun hc hover => ?_, ?_, ?_⟩
  · simp [chan_holdOffset]
  · simpa [holdOffset_of_over hc hover] using setFault_sets (by decide) _
  · simp [chan_holdOffset, takePair]
  · obtain ⟨meas₁, h₁⟩ : ∃ meas, takePair ch (tick t s.chip) = { tick t s.chip with meas := meas } := updChan_eq ..
    obtain ⟨meas₂, ret, jrn, alert, h₂⟩ := holdOffset_eq ch o' { tick t s.chip with meas := meas₁ }
    obtain ⟨meas₃, h₃⟩ := notePair_eq ch { tick t s.chip with meas := meas₂, ret := ret, jrn := jrn, alert := alert }
    rw [h₁, h₂, h₃]
    exact keeps_of_parts rfl fun q hq => by cases q <;> simp_all [Part.same]

end

/-! ### Calibration points -/

/-- The record of a point that has its words: their mean and standard deviation, by their number (R185, log entry 118). -/
def calDone (k : Cal) : Cal :=
  let mean : Rat := k.sum / (k.count : Rat)
  { k with run := false, done := true, mean := roundRat mean
           spread := satR 32 (sqrtRat (k.sumSq / (k.count : Rat) - mean * mean)) }

/-- A point ends with its record `k` and the outcome `out` of its command. -/
def endPoint (k : Cal) (out : Nat × List Byte) (c : Chip) : Chip := endSpan (pendDone 0x23 out { c with cal := k })

section
variable {c : Chip}

theorem calComplete_of_full (hrun : c.cal.run = true) (hn : calWords c ≤ c.cal.count) :
    calComplete c = endPoint (calDone c.cal) (0x00, i32B (calDone c.cal).mean ++ u32B (calDone c.cal).spread) c :=
  if_pos (by simp [hrun, hn])

theorem calComplete_of_short (h : c.cal.run = false ∨ c.cal.count < calWords c) : calComplete c = c := by
  refine if_neg fun full => ?_
  simp only [Bool.and_eq_true, decide_eq_true_eq] at full
  obtain ⟨hrun, hn⟩ := full
  rcases h with h | h
  · exact absurd (hrun.symm.trans h) (by decide)
  · exact absurd h (Nat.not_lt.mpr hn)

theorem calTimeout_of_late (hrun : c.cal.run = true) (hn : c.cal.count < calWords c) (ht : c.cal.start + sec 1 ≤ c.now) :
    calTimeout c = endPoint { c.cal with run := false, refused := true } (0x10, []) c :=
  if_pos (by simp [hrun, hn, ht])

theorem calTimeout_of_idle (h : c.cal.run = false ∨ calWords c ≤ c.cal.count ∨ c.now < c.cal.start + sec 1) :
    calTimeout c = c := by
  refine if_neg fun late => ?_
  simp only [Bool.and_eq_true, decide_eq_true_eq] at late
  obtain ⟨⟨hrun, hn⟩, ht⟩ := late
  rcases h with h | h | h
  · exact absurd (hrun.symm.trans h) (by decide)
  · exact absurd hn (Nat.not_lt.mpr h)
  · exact absurd h (Nat.not_lt.mpr ht)

theorem endSpan_of_none (h : c.chg.spanPoint = false) : endSpan c = c := by simp [endSpan, h]

/-- The charger that a SPAN point runs stops: the path stands by, CHG_SET is 0, and TTF reads no time (R359, R506). -/
theorem endSpan_stops (h : c.chg.spanPoint = true) (hc : charging c = true) :
    (endSpan c).pack.st = .standby ∧ (endSpan c).chg.set = 0 ∧ (endSpan c).learn.ttf = noTime := by
  simp [endSpan, endCharge, h, hc, noteEnd, enterPack]

theorem endSpan_eq (c : Chip) : ∃ pack chg gauge learn,
    endSpan c = { c with pack := pack, chg := chg, gauge := gauge, learn := learn } := by
  unfold endSpan endCharge
  (repeat' split) <;> exact ⟨_, _, _, _, rfl⟩

end

/-- How the step from `s` to `u` ends a calibration point that leaves the record `k` (R185, R219). -/
structure PointEnds (k : Cal) (s u : State) : Prop where
  cal : u.chip.cal = k
  keeps : Keeps [.cal, .host, .pack, .chg, .gauge, .learn] s u
  keepsCharger : s.chip.chg.spanPoint = false → Keeps [.cal, .host] s u
  stops : s.chip.chg.spanPoint = true → charging s.chip = true →
    u.chip.pack.st = .standby ∧ u.chip.chg.set = 0 ∧ u.chip.learn.ttf = noTime

section
variable {s : State} {t : Time} (hspi : s.chip.spi = [])
include hspi

theorem became_endPoint (k : Cal) (out : Nat × List Byte) : PointEnds k s (became (endPoint k out (tick t s.chip)) s) := by
  obtain ⟨host, hd⟩ : ∃ host, endPoint k out (tick t s.chip) = endSpan { tick t s.chip with cal := k, host := host } :=
    ⟨_, congrArg endSpan (pendDone_frame ..)⟩
  obtain ⟨pack, chg, gauge, learn, he⟩ := endSpan_eq { tick t s.chip with cal := k, host := host }
  rw [hd]
  constructor
  case cal => rw [he]; rfl
  case keeps =>
    rw [he]
    exact keeps_of_parts rfl fun q hq => by cases q <;> simp_all [Part.same]
  case keepsCharger =>
    intro h
    rw [endSpan_of_none (c := { tick t s.chip with cal := k, host := host }) h]
    exact keeps_of_parts rfl fun q hq => by cases q <;> simp_all [Part.same]
  case stops => exact fun h hc => endSpan_stops h hc

theorem exec_calPointComplete_of_full (hrun : s.chip.cal.run = true) (hn : calWords s.chip ≤ s.chip.cal.count) :
    ∃ u, exec (.calPointComplete t) s = .next u ∧ PointEnds (calDone s.chip.cal) s u :=
  ⟨_, run_became (calComplete_of_full hrun hn), became_endPoint hspi ..⟩

theorem exec_calPointComplete_of_short (h : s.chip.cal.run = false ∨ s.chip.cal.count < calWords s.chip) :
    exec (.calPointComplete t) s = .next (after t (fun c => c) s) :=
  run_after (calComplete_of_short (c := tick t s.chip) h) hspi

theorem exec_calPointTimeout_of_late (hrun : s.chip.cal.run = true) (hn : s.chip.cal.count < calWords s.chip)
    (ht : s.chip.cal.start + sec 1 ≤ max s.chip.now t) :
    ∃ u, exec (.calPointTimeout t) s = .next u ∧ PointEnds { s.chip.cal with run := false, refused := true } s u :=
  ⟨_, run_became (calTimeout_of_late hrun hn ht), became_endPoint hspi ..⟩

theorem exec_calPointTimeout_of_idle (h : s.chip.cal.run = false ∨ calWords s.chip ≤ s.chip.cal.count ∨
    max s.chip.now t < s.chip.cal.start + sec 1) : exec (.calPointTimeout t) s = .next (after t (fun c => c) s) :=
  run_after (calTimeout_of_idle (c := tick t s.chip) h) hspi

end

/-! ### The statement refuted -/

/-- A SPAN point with its 256 words while its charger runs, and a pack that would be full in an hour. -/
def spanPointWithTtf : State :=
  { State.reset with
    chip := { State.reset.chip with
      seq := { mode := .depot }
      cal := { run := true, ch := 2, span := true, count := 256 }
      pack.st := .charge
      chg.spanPoint := true
      learn.ttf := 3600 } }

/-- Refutes O17: where the charger of a SPAN point stops with it, TTF comes to read no time (R506), while the statement leaves
the learned and reported figures unchanged. The tracker's clauses hold as stated (`exec_slowChopBlockPair_of_quiet`,
`exec_slowChopBlockPair_of_unquiet`, `exec_slowChopBlockPair_of_not_whole`), and `PointEnds` says how a point ends. -/
theorem not_offsetTrackerAndCalibrationPoints : ¬ Obligations.OffsetTrackerAndCalibrationPoints := by
  unfold Obligations.OffsetTrackerAndCalibrationPoints
  rintro ⟨-, point⟩
  obtain ⟨complete, -⟩ := point spanPointWithTtf 0 rfl
  obtain ⟨u, hu, ⟨-, ⟨-, same⟩, -⟩, -⟩ := complete rfl (by decide)
  obtain ⟨v, hv, ends⟩ := exec_calPointComplete_of_full (s := spanPointWithTtf) (t := 0) rfl rfl (by decide)
  obtain rfl : v = u := by simpa [hu] using hv.symm
  have kept : v.chip.learn = spanPointWithTtf.chip.learn := same .learn (by decide)
  obtain ⟨-, -, noTtf⟩ := ends.stops rfl rfl
  exact absurd ((congrArg Learn.ttf kept).symm.trans noTtf) (by decide)

end Sys2Proof.Machine

/-! The loss of the last feed (R115, log entry 113) gives up a reprovisioning in whichever mode it comes, so in COUPLED too, to which
CMD_DEPOT_EXIT brings a gauge in the midst of one. The first part says of each function that follows the loss that it leaves the
image store as it is; the second, which ends of a feed give the reprovisioning up; the third refutes O21 and O25 by one state. -/

namespace Sys2Proof.Machine

/-! ### The image store when a feed is lost -/

@[simp] theorem img_ite (p : Prop) [Decidable p] (c d : Chip) : (if p then c else d).img = if p then c.img else d.img :=
  apply_ite ..

theorem foldl_img {α : Type} {g : Chip → α → Chip} (h : ∀ c x, (g c x).img = c.img) (l : List α) (c : Chip) :
    (l.foldl g c).img = c.img := by
  induction l generalizing c with
  | nil => rfl
  | cons x l ih => rw [List.foldl_cons, ih, h]

theorem BeaconsOnly.img {c d : Chip} (h : BeaconsOnly c d) : d.img = c.img := by
  obtain ⟨_, _, _, rfl⟩ := h
  rfl

section
variable (nvm : Nvm) (c : Chip)

@[simp] theorem tagEvent_img (cause : Nat) : (tagEvent cause c).img = c.img := by rw [tagEvent_frame]

@[simp] theorem abandonCheck_img : (abandonCheck c).img = c.img := by
  cases h : c.img.map <;> simp [abandonCheck, putTarget, h]

@[simp] theorem dropSession_img (byGauge : Bool) (h : Nat) : (dropSession byGauge h c).img = c.img := by
  unfold dropSession; split <;> simp

@[simp] theorem dropDepot_img : (dropDepot c).img = c.img := foldl_img (fun _ _ => by simp) ..

@[simp] theorem startShut_img (cause : ShutCause) : (startShut cause nvm c).img = c.img := by
  simp [startShut, (recheckAll_beaconsOnly nvm _).img]

@[simp] theorem dueShut_img : (dueShut nvm c).img = c.img := by simp [dueShut]

@[simp] theorem followRail_img : (followRail nvm c).img = c.img := by
  simp [followRail, followSpurs, parkIfAlone, enterParked, handBack]

/-- Of the image store, the loss of a feed touches the reprovisioning alone, and only where no other feed is accepted. -/
theorem feedGone_img : (feedGone nvm c).img = if anyFeed c then c.img else { c.img with reprov := none } := by
  simp [feedGone, abandonImage, followCarrying]

end

/-! ### The last feed -/

/-- Feed `f`, and no other, is accepted. -/
def LastFeed (f : FeedId) (c : Chip) : Prop :=
  feedAccepted (feed c f) = true ∧ feedAccepted (feed c (otherFeed f)) = false

theorem anyFeed_eq (f : FeedId) (c : Chip) :
    anyFeed c = (feedAccepted (feed c f) || feedAccepted (feed c (otherFeed f))) := by
  cases f
  · rfl
  · exact Bool.or_comm ..

@[simp] theorem feed_setFault (f : FeedId) (b : Nat) (c : Chip) : feed (setFault b c) f = feed c f := by
  cases f <;> simp [feed]

@[simp] theorem feed_setFaultIf (p : Bool) (f : FeedId) (b : Nat) (c : Chip) : feed (setFaultIf p b c) f = feed c f := by
  cases f <;> simp [feed]

@[simp] theorem noteInrush_st (f g : FeedId) (c : Chip) : (feed (noteInrush f c) g).st = (feed c g).st := by
  unfold noteInrush
  split
  · rfl
  · split <;> cases f <;> cases g <;> rfl

section
variable {f : FeedId} {c : Chip} (nvm : Nvm)

/-- With no other feed accepted nothing keeps the reprovisioning. -/
theorem feedGone_reprov_of_last (h : feedAccepted (feed c f) = false) (ho : feedAccepted (feed c (otherFeed f)) = false) :
    (feedGone nvm c).img.reprov = none := by
  simp [feedGone_img, anyFeed_eq f, h, ho]

/-- A failure of the last feed gives up the reprovisioning. -/
theorem feedFail_reprov_of_last (h : LastFeed f c) (cause : Nat) :
    (feedFail f cause nvm c).img.reprov = none := by
  obtain ⟨hf, ho⟩ := h
  have was : feedAccepted (feed (noteInrush f c) f) = true := by simpa [feedAccepted] using hf
  unfold feedFail
  extract_lets c1 w retry c2 ms24 c3 c4
  have out : feedAccepted (feed c4 f) = false := by
    cases hr : retry <;> simp [c4, c3, c2, hr, feedOff, feedTo, feedAccepted]
  have other : feedAccepted (feed c4 (otherFeed f)) = false := by
    simpa [c4, c3, c2, c1, feedOff, feedTo, feedAccepted] using ho
  rw [if_pos was, feedGone_reprov_of_last nvm out other]

/-- So does an inrush or re-enable of the last feed that comes to its end unfinished. -/
theorem inrushTimeout_reprov_of_last (h : LastFeed f c) {x : Inrush} (hx : (feed c f).inr = some x)
    (due : x.start + ms (feedCfg c f).inrushTimer ≤ c.now) :
    (inrushTimeout f nvm c).img.reprov = none := by
  obtain ⟨hf, ho⟩ := h
  simp only [inrushTimeout, inrushFail, hx, due, if_true]
  exact feedFail_reprov_of_last nvm ⟨by simpa [feedAccepted] using hf, by simpa using ho⟩ _

/-- And the reversal of the last feed. -/
theorem feedReversed_reprov_of_last (h : LastFeed f c) (hr : running c = true) {mv : Int} {ns : Nat} (hmv : mv < -4000)
    (hns : ms 100 ≤ ns) : (feedReversed f mv ns nvm c).img.reprov = none := by
  obtain ⟨hf, ho⟩ := h
  have st : (feed c f).st = .on ∨ (feed c f).st = .blocking := by simpa [feedAccepted] using hf
  unfold feedReversed
  extract_lets x c1 c2
  have acts : ¬ (x.st = .absent ∨ x.st = .reversed ∨ !running c ∨ -4000 ≤ mv ∨ ns < ms 100) := by
    rcases st with st | st <;> simp [x, st, hr, hmv, hns]
  have free : ¬ (x.st = .faultHold ∧ x.mirage = true) := by rcases st with st | st <;> simp [x, st]
  rw [if_neg acts, if_neg free, if_pos hf, feedGone_reprov_of_last (f := f) nvm]
  · simp [c2, feedOff, feedTo, feedAccepted]
  · simpa [c2, c1, feedOff, feedTo, feedAccepted] using ho

end

section
variable {s u : State} {t : Time} {f : FeedId}

theorem exec_inrushTimeout_reprov_of_last (hu : exec (.inrushTimeout t f) s = .next u) (h : LastFeed f s.chip) {x : Inrush}
    (hx : (feed s.chip f).inr = some x) (due : x.start + ms (feedCfg s.chip f).inrushTimer ≤ max s.chip.now t) :
    u.chip.img.reprov = none := by
  cases hu
  exact inrushTimeout_reprov_of_last s.nvm (c := tick t s.chip) h hx due

theorem exec_feedReversed_reprov_of_last {mv : Int} {ns : Nat} (hu : exec (.feedReversed t f mv ns) s = .next u)
    (h : LastFeed f s.chip) (hr : running s.chip = true) (hmv : mv < -4000) (hns : ms 100 ≤ ns) :
    u.chip.img.reprov = none := by
  cases hu
  exact feedReversed_reprov_of_last s.nvm (c := tick t s.chip) h hr hmv hns

end

/-! ### A reprovisioning that CMD_DEPOT_EXIT leaves under way -/

/-- DEPOT with a reprovisioning under way (R105); feed A alone is accepted, and runs a re-enable. -/
def depotMidway : Chip :=
  { State.reset.chip with
    seq := { mode := .depot }
    img.reprov := some { header := List.replicate 64 0, nextOff := 4 }
    feedA.st := .blocking
    feedA.inr := some { start := 0, vIn0 := 0, vBus0 := 0, iL := 0, update := 0 } }

/-- What CMD_DEPOT_EXIT makes of it: COUPLED, with the reprovisioning still under way. -/
def depotLeft : State := { State.reset with chip := settle (enterCoupled depotMidway) }

theorem depotLeft_mode : depotLeft.chip.seq.mode = .coupled := by decide +kernel

theorem depotLeft_img : depotLeft.chip.img = depotMidway.img := by simp [depotLeft]

theorem depotLeft_feed (f : FeedId) : feed depotLeft.chip f = feed depotMidway f := by cases f <;> simp [depotLeft, feed]

theorem depotLeft_last : LastFeed .a depotLeft.chip := by simp only [LastFeed, depotLeft_feed]; exact ⟨rfl, rfl⟩

/-- In COUPLED a step that gives up the reprovisioning does not keep the image store. -/
theorem not_keepsImage_of_given_up {u : State} (h : u.chip.img.reprov = none) :
    ¬ KeepsImage depotLeft u := by
  intro kept
  obtain ⟨-, same⟩ := kept (by simp [depotLeft_mode])
  rw [same, depotLeft_img] at h
  cases h

/-- Refutes O21: the statement lets an inrush that fails change the image store in DEPOT alone, but in COUPLED, after
CMD_DEPOT_EXIT, the failed re-enable of the last feed gives up the reprovisioning that is still under way. -/
theorem not_inrushBeginsGovernedAndEnds : ¬ Obligations.InrushBeginsGovernedAndEnds := by
  unfold Obligations.InrushBeginsGovernedAndEnds
  rintro ⟨-, ends⟩
  obtain ⟨-, late, -⟩ := ends depotLeft (ms 50) .a rfl
  have hx : (feed depotLeft.chip .a).inr = (feed depotMidway .a).inr := by rw [depotLeft_feed]
  obtain ⟨u, hu, -, -, -, -, -, -, kept, -⟩ := late _ hx (by decide +kernel)
  exact not_keepsImage_of_given_up (exec_inrushTimeout_reprov_of_last hu depotLeft_last hx (by decide +kernel)) kept

/-- Refutes O25: the statement lets a reversal change the image store in DEPOT alone, but in COUPLED, after CMD_DEPOT_EXIT, the
reversal of the last feed gives up the reprovisioning that is still under way. -/
theorem not_feedRetriesReversalAndMirage : ¬ Obligations.FeedRetriesReversalAndMirage := by
  unfold Obligations.FeedRetriesReversalAndMirage
  rintro ⟨-, held⟩
  obtain ⟨reversed, -⟩ := held depotLeft 0 .a rfl
  obtain ⟨u, hu, -, -, -, -, -, -, kept, -⟩ :=
    reversed (-4001) (ms 100) (by decide +kernel) (by decide) (by decide) (by decide +kernel)
  exact not_keepsImage_of_given_up
    (exec_feedReversed_reprov_of_last hu depotLeft_last (by decide +kernel) (by decide) (by decide)) kept

end Sys2Proof.Machine

/-! Pre-charge and the GATE domain (R208, R341, log entry 140). A stopped GATE domain turns no gate on, so a pre-charge whose
conditions have held for 8 ms completes only while that domain runs; the clauses on its completion do not ask for it, and one state
refutes O27. -/

namespace Sys2Proof.Machine

/-! ### The completion of pre-charge -/

section
variable {c : Chip} {s : State}

theorem parkIfAlone_of_fed (nvm : Nvm) (h : anyFeed c = true) : parkIfAlone nvm c = c := by simp [parkIfAlone, h]

theorem followSpurs_of_on (h : c.seq.spursOn = true) : followSpurs c = c := by simp [followSpurs, h]

/-- While a feed is accepted and the spurs take their commands, neither the mode nor the spurs have a supply to follow. -/
theorem followRail_of_fed (nvm : Nvm) (hfed : anyFeed c = true) (hon : c.seq.spursOn = true) : followRail nvm c = c := by
  rw [followRail, parkIfAlone_of_fed nvm hfed, followSpurs_of_on hon]

theorem prechargeComplete_of_gate_stopped (h : gateRuns c = false) : prechargeComplete c = c := by
  simp [prechargeComplete, h]

theorem exec_prechargeComplete_of_gate_stopped (t : Time) (h : gateRuns s.chip = false) :
    exec (.prechargeComplete t () () ()) s = .next (became (followRail s.nvm (tick t s.chip)) s) :=
  run_became (congrArg (followRail s.nvm) (prechargeComplete_of_gate_stopped h))

end

/-! ### A pre-charge that the GATE domain does not complete -/

/-- COUPLED on feed A, with the spurs on and the pack in PRECHARGE. The conditions of R341 have held since time 0; the GATE domain
has stopped since (R225), and its charge pump is not yet low. -/
def gateStoppedInPrecharge : State := { State.reset with chip := { State.reset.chip with
  seq := { mode := .coupled, spursOn := true }
  feedA.st := .on
  clk.stopped := 1
  pack.st := .precharge
  pack.hold.preDone := some 0 } }

/-- Refutes O27: the statement lets a pre-charge whose conditions have held for 8 ms complete whatever the GATE domain does, but with
that domain stopped no gate is turned on and the path stays in PRECHARGE (R208, log entry 140). -/
theorem not_prechargeAndThePackDiode : ¬ Obligations.PrechargeAndThePackDiode := by
  unfold Obligations.PrechargeAndThePackDiode
  rintro ⟨precharge, -⟩
  let s := gateStoppedInPrecharge
  obtain ⟨-, -, -, -, -, -, completes, -⟩ := precharge s (ms 8)
  have stays : exec (.prechargeComplete (ms 8) () () ()) s = .next (became (tick (ms 8) s.chip) s) := by
    rw [exec_prechargeComplete_of_gate_stopped _ (by decide), followRail_of_fed _ (by decide) (by decide)]
  have leaves := completes ⟨rfl, rfl, 0, rfl, by decide⟩
  dsimp only at leaves
  rw [followRail_of_fed _ (by decide) (by decide), stays] at leaves
  have same : PackSt.precharge = .standby := congrArg (fun u : State => u.chip.pack.st) (Host.Outcome.next.inj leaves)
  cases same

end Sys2Proof.Machine

/-! Backfeed, open load and the totals of the spurs (R393, R406, R413 … R418). The first part says what the rules of one spur
leave of the gauge; then come backfeed, the diagnoses and the spur that a total sheds. The last theorem settles O35. -/

namespace Sys2Proof.Machine

/-! ### One spur -/

@[simp] theorem spur_tick (t : Time) (c : Chip) (n : Fin 8) : spur (tick t c) n = spur c n := rfl
@[simp] theorem spur_settle (c : Chip) (n : Fin 8) : spur (settle c) n = spur c n := rfl
@[simp] theorem spur_setFault (b : Nat) (c : Chip) (n : Fin 8) : spur (setFault b c) n = spur c n := by simp [spur]
@[simp] theorem spur_setFaultIf (p : Bool) (b : Nat) (c : Chip) (n : Fin 8) : spur (setFaultIf p b c) n = spur c n := by
  simp [spur]

@[simp] theorem leaveOn_retries (now : Time) (x : Spur) : (leaveOn now x).retries = x.retries := by unfold leaveOn; split <;> rfl

theorem updSpur_of_fixed {n : Fin 8} {f : Spur → Spur} {c : Chip} (h : f (spur c n) = spur c n) : updSpur n f c = c := by
  rw [updSpur, h]
  simp [setSpur, spur]

/-- A detection clears no bit. -/
theorem setFault_keeps_set {a b : Nat} {c : Chip} (h : c.ret.sticky.getLsbD b = true) :
    (setFault a c).ret.sticky.getLsbD b = true := by
  simp only [setFault]
  split <;> simp [h]

/-! ### What the innkeeper does with a failed spur: beacons and records at most -/

theorem refundRunning_beaconsOnly (n : Fin 8) (c : Chip) : BeaconsOnly c (refundRunning n c) := by
  unfold refundRunning
  split
  · exact ⟨_, _, _, rfl⟩
  · exact .refl c

theorem holdSpur_beaconsOnly (nvm : Nvm) (n : Fin 8) (c : Chip) : BeaconsOnly c (holdSpur nvm n c) := by
  unfold holdSpur
  split
  · exact .refl c
  · exact BeaconsOnly.trans ⟨_, _, _, rfl⟩ (recheckSpur_beaconsOnly ..)

/-- What a spur's own rules read of the gauge stands in `d` as in `c`. -/
theorem BeaconsOnly.kept {c d : Chip} (h : BeaconsOnly c d) :
    d.ret = c.ret ∧ d.totals = c.totals ∧ d.now = c.now ∧ ∀ n, spur d n = spur c n := by
  obtain ⟨_, _, _, rfl⟩ := h
  exact ⟨rfl, rfl, rfl, fun _ => rfl⟩

@[simp] theorem refundRunning_kept (n : Fin 8) (c : Chip) : (refundRunning n c).ret = c.ret ∧
    (refundRunning n c).totals = c.totals ∧ (refundRunning n c).now = c.now ∧ ∀ m, spur (refundRunning n c) m = spur c m :=
  (refundRunning_beaconsOnly n c).kept

@[simp] theorem recheckSpur_kept (nvm : Nvm) (n : Fin 8) (c : Chip) : (recheckSpur nvm n c).ret = c.ret ∧
    (recheckSpur nvm n c).totals = c.totals ∧ (recheckSpur nvm n c).now = c.now ∧
    ∀ m, spur (recheckSpur nvm n c) m = spur c m :=
  (recheckSpur_beaconsOnly nvm n c).kept

@[simp] theorem holdSpur_kept (nvm : Nvm) (n : Fin 8) (c : Chip) : (holdSpur nvm n c).ret = c.ret ∧
    (holdSpur nvm n c).totals = c.totals ∧ (holdSpur nvm n c).now = c.now ∧ ∀ m, spur (holdSpur nvm n c) m = spur c m :=
  (holdSpur_beaconsOnly nvm n c).kept

/-! ### What the rules of one spur leave unchanged -/

/-- The gauge `d` is `c` but for spur n, the totals, the record with its journal and alerts, and what a recheck changes. -/
def SpurAlone (n : Fin 8) (c d : Chip) : Prop :=
  (∀ m, m ≠ n → spur d m = spur c m) ∧ ∃ spurs totals ret jrn alert inn can pair, d = { c with
    spurs := spurs, totals := totals, ret := ret, jrn := jrn, alert := alert, inn := inn, can := can, pair := pair }

theorem SpurAlone.trans {n : Fin 8} {c d e : Chip} (h : SpurAlone n c d) (k : SpurAlone n d e) : SpurAlone n c e := by
  obtain ⟨hothers, _, _, _, _, _, _, _, _, rfl⟩ := h
  obtain ⟨kothers, _, _, _, _, _, _, _, _, rfl⟩ := k
  exact ⟨fun m hm => (kothers m hm).trans (hothers m hm), _, _, _, _, _, _, _, _, rfl⟩

theorem BeaconsOnly.spurAlone {c d : Chip} (h : BeaconsOnly c d) (n : Fin 8) : SpurAlone n c d := by
  obtain ⟨_, _, _, rfl⟩ := h
  exact ⟨fun _ _ => rfl, _, _, _, _, _, _, _, _, rfl⟩

theorem updSpur_alone (n : Fin 8) (f : Spur → Spur) (c : Chip) : SpurAlone n c (updSpur n f c) :=
  ⟨fun m hm => spur_updSpur_other n m f c hm, _, _, _, _, _, _, _, _, rfl⟩

theorem setFault_alone (n : Fin 8) (b : Nat) (c : Chip) : SpurAlone n c (setFault b c) := by
  obtain ⟨_, _, _, h⟩ := setFault_eq b c
  rw [h]
  exact ⟨fun _ _ => rfl, _, _, _, _, _, _, _, _, rfl⟩

theorem setFaultIf_alone (n : Fin 8) (p : Bool) (b : Nat) (c : Chip) : SpurAlone n c (setFaultIf p b c) := by
  cases p
  · exact (BeaconsOnly.refl c).spurAlone n
  · exact setFault_alone n b c

section
variable {s : State} {t : Time} {n : Fin 8} {d : Chip} (hspi : s.chip.spi = []) (h : SpurAlone n (tick t s.chip) d)
include h

theorem SpurAlone.others (m : Fin 8) (hm : m ≠ n) : spur (became d s).chip m = spur s.chip m := h.1 m hm

include hspi

theorem SpurAlone.keeps : Keeps [.totals, .inn, .can, .pair, .ret, .jrn, .alert, .spurs] s (became d s) := by
  obtain ⟨-, _, _, _, _, _, _, _, _, rfl⟩ := h
  exact keeps_of_parts rfl fun p hp => by cases p <;> simp_all [Part.same]

end

/-! ### Failures -/

section
variable (nvm : Nvm) (n : Fin 8) (cause : Nat) (c : Chip)

@[simp] theorem spur_noteFail : spur (noteFail n cause c) n = { leaveOn c.now (spur c n) with
    offCause := cause, lastFail := (cause, sampleMs24 c), ramp := none, est := none, limiting := false, onAt := 0 } := by
  simp [noteFail]

@[simp] theorem noteFail_ret : (noteFail n cause c).ret = c.ret := by simp [noteFail]
@[simp] theorem noteFail_totals : (noteFail n cause c).totals = c.totals := by simp [noteFail]
@[simp] theorem noteFail_now : (noteFail n cause c).now = c.now := by simp [noteFail]

theorem noteFail_alone : SpurAlone n c (noteFail n cause c) :=
  (updSpur_alone ..).trans ((refundRunning_beaconsOnly ..).spurAlone n)

theorem blockSpur_alone : SpurAlone n c (blockSpur nvm n c) :=
  (setFault_alone ..).trans ((noteFail_alone ..).trans ((updSpur_alone ..).trans ((recheckSpur_beaconsOnly ..).spurAlone n)))

/-- The spur that backfeed blocks: its retries stay as they were (R406, R434). -/
theorem blockSpur_spur : (spur (blockSpur nvm n c) n).st = .blocked ∧ (spur (blockSpur nvm n c) n).offCause = 7 ∧
    (spur (blockSpur nvm n c) n).lastFail.1 = 7 ∧ (spur (blockSpur nvm n c) n).retries = (spur c n).retries ∧
    (spur (blockSpur nvm n c) n).blockedAt = c.now := by
  simp [blockSpur]

theorem blockSpur_totals : (blockSpur nvm n c).totals = c.totals := by simp [blockSpur, updSpur, setSpur]

theorem blockSpur_sets : (blockSpur nvm n c).ret.sticky.getLsbD (F.spurBackfeed n) = true := by
  have hb : F.spurBackfeed n < 160 := by unfold F.spurBackfeed; omega
  simpa [blockSpur, updSpur, setSpur] using setFault_sets hb c

theorem cutSpur_alone : SpurAlone n c (cutSpur nvm n cause c) :=
  (noteFail_alone ..).trans ((updSpur_alone ..).trans ((holdSpur_beaconsOnly ..).spurAlone n))

end

/-! ### Backfeed and its end -/

section
variable {nvm : Nvm} {n : Fin 8} {c : Chip}

theorem backfeedOn_of_above {mv : Int} (hst : (spur c n).st = .rampUp ∨ (spur c n).st = .on) (hmv : 300 ≤ mv) :
    backfeedOn nvm n mv c = blockSpur nvm n c := if_pos ⟨hst, hmv⟩

theorem backfeedOn_of_not {mv : Int} (h : ((spur c n).st ≠ .rampUp ∧ (spur c n).st ≠ .on) ∨ mv < 300) :
    backfeedOn nvm n mv c = c := if_neg fun ⟨hst, hmv⟩ => by
  rcases h with ⟨hr, ho⟩ | h
  · exact hst.elim hr ho
  · omega

/-- The voltages over the last second release a spur from BLOCKED (R393). -/
def Released (n : Fin 8) (c : Chip) : Prop :=
  let recent := (spur c n).vHist.filter fun p => decide (c.now ≤ p.2 + sec 1)
  (spur c n).st = .blocked ∧ (spur c n).blockedAt + sec 1 ≤ c.now ∧ recent ≠ [] ∧ ∀ p ∈ recent, p.1 < 2000

/-- A spur set off, with its command as it was. -/
def setOff (x : Spur) : Spur := { x with st := .off }

theorem blockedRelease_of_released (h : Released n c) :
    blockedRelease n c = takeCommand n (updSpur n setOff c) := by
  obtain ⟨hst, hat, hne, hlow⟩ := h
  exact if_pos ⟨hst, hat, hne, List.all_eq_true.mpr fun p hp => decide_eq_true (hlow p hp)⟩

theorem blockedRelease_of_not_released (h : ¬ Released n c) : blockedRelease n c = c :=
  if_neg fun ⟨hst, hat, hne, hlow⟩ => h ⟨hst, hat, hne, fun p hp => of_decide_eq_true (List.all_eq_true.mp hlow p hp)⟩

/-- A change of one spur that leaves a field of it as it was leaves that field of every spur. -/
theorem field_spur_updSpur {α : Type} (g : Spur → α) {f : Spur → Spur} (h : ∀ x, g (f x) = g x) (m : Fin 8) :
    g (spur (updSpur n f c) m) = g (spur c m) := by
  by_cases hm : m = n
  · subst hm
    simp [h]
  · rw [spur_updSpur_other n m f c hm]

theorem leadSpur_updSpur {f : Spur → Spur} (h : ∀ x, (f x).mergeMask = x.mergeMask) (m : Fin 8) :
    leadSpur (updSpur n f c) m = leadSpur c m := by
  have hmask : (updSpur n f c).spurs[m].mergeMask = c.spurs[m].mergeMask := field_spur_updSpur Spur.mergeMask h m
  simp only [leadSpur, hmask]

/-- The command of a spur reads the merges and the grants of the spurs, and nothing else of them (R392). -/
theorem spurCommand_updSpur {f : Spur → Spur} (hm : ∀ x, (f x).mergeMask = x.mergeMask)
    (hg : ∀ x, (f x).granted = x.granted) (m : Fin 8) : spurCommand (updSpur n f c) m = spurCommand c m := by
  have hgrant (l : Fin 8) : (updSpur n f c).spurs[l].granted = c.spurs[l].granted := field_spur_updSpur Spur.granted hg l
  simp only [spurCommand, spurGuests, leadSpur_updSpur hm, hgrant]
  rfl

/-- A spur in OFF that is commanded on starts unless it is hot (R393, R404). -/
theorem takeCommand_of_off (h : (spur c n).st = .off) :
    (spur (takeCommand n c) n).cmd = spurCommand c n ∧
      (spur (takeCommand n c) n).st = if spurCommand c n && !(spur c n).hot then .rampUp else .off := by
  cases hc : spurCommand c n with
  | false => cases hcmd : (spur c n).cmd <;> simp [takeCommand, hc, hcmd, h]
  | true => cases hh : (spur c n).hot <;> cases hcmd : (spur c n).cmd <;> simp [takeCommand, startRamp, hc, hh, hcmd, h]

/-- A released spur is off, and takes its command from there (R393). -/
theorem blockedRelease_spur (h : Released n c) : (spur (blockedRelease n c) n).cmd = spurCommand c n ∧
    (spur (blockedRelease n c) n).st = if spurCommand c n && !(spur c n).hot then .rampUp else .off := by
  rw [blockedRelease_of_released h]
  have hoff : spur (updSpur n setOff c) n = setOff (spur c n) := spur_updSpur ..
  have hcmd : spurCommand (updSpur n setOff c) n = spurCommand c n :=
    spurCommand_updSpur (f := setOff) (fun _ => rfl) (fun _ => rfl) n
  have takes := takeCommand_of_off (n := n) (congrArg Spur.st hoff)
  rwa [hcmd, hoff] at takes

theorem takeCommand_alone (n : Fin 8) (c : Chip) : SpurAlone n c (takeCommand n c) :=
  ⟨fun m hm => spur_setSpur_other c n m _ hm, _, _, _, _, _, _, _, _, rfl⟩

theorem blockedRelease_alone (h : Released n c) : SpurAlone n c (blockedRelease n c) := by
  rw [blockedRelease_of_released h]
  exact (updSpur_alone ..).trans (takeCommand_alone ..)

theorem blockedRelease_eq (h : Released n c) : ∃ spurs, blockedRelease n c = { c with spurs := spurs } :=
  ⟨_, blockedRelease_of_released h⟩

end

/-- An option that passes a test holds something that passes it. -/
theorem elim_false_eq_true {α : Type} {o : Option α} {f : α → Bool} :
    o.elim false f = true ↔ ∃ x, o = some x ∧ f x = true := by
  cases o <;> simp

/-! ### Open-load diagnosis -/

/-- A spur after one diagnosis: the indication needs two findings in a row, and ends with the first load found (R416). -/
def diagnosed (o : Bool) (x : Spur) : Spur := { x with
  lastOpen := o, openLoad := o && (x.lastOpen || x.openLoad), findings := if o then satInc 65535 x.findings else x.findings }

section
variable (n : Fin 8) (o : Bool) (c : Chip)

/-- A diagnosis sets the bit when it is the one that begins the indication (R416). -/
theorem diagnose_eq : diagnose n o c =
    setFaultIf (o && (spur c n).lastOpen && !(spur c n).openLoad) (F.spurOpenLoad n) (updSpur n (diagnosed o) c) := by
  cases o <;> simp [diagnose, diagnosed, setFaultIf, updSpur]

@[simp] theorem spur_diagnose : spur (diagnose n o c) n = diagnosed o (spur c n) := by simp [diagnose_eq]

theorem diagnose_alone : SpurAlone n c (diagnose n o c) := by
  rw [diagnose_eq]
  exact (updSpur_alone ..).trans (setFaultIf_alone ..)

theorem diagnose_leaves : (diagnose n o c).totals = c.totals ∧ (diagnose n o c).inn = c.inn ∧ (diagnose n o c).can = c.can ∧
    (diagnose n o c).pair = c.pair := by
  simp [diagnose_eq, updSpur, setSpur]

variable {n o c}

/-- The second finding in a row sets the bit (R416). -/
theorem diagnose_sets (ho : o = true) (hlast : (spur c n).lastOpen = true) (hopen : (spur c n).openLoad = false) :
    (diagnose n o c).ret.sticky.getLsbD (F.spurOpenLoad n) = true := by
  have hb : F.spurOpenLoad n < 160 := by unfold F.spurOpenLoad; omega
  simpa [diagnose_eq, setFaultIf, ho, hlast, hopen] using setFault_sets hb _

/-- Any other diagnosis changes the spur alone. -/
theorem diagnose_of_no_second (h : o = false ∨ (spur c n).lastOpen = false ∨ (spur c n).openLoad = true) :
    diagnose n o c = updSpur n (diagnosed o) c := by
  rw [diagnose_eq]
  rcases h with h | h | h <;> simp [h, setFaultIf]

end

/-- What a diagnosis of spur n that finds `o` leaves of the state `s` (R413 … R416). -/
def Diagnosed (n : Fin 8) (s : State) (o : Bool) (u : State) : Prop :=
  (spur u.chip n).lastOpen = o ∧
  (spur u.chip n).openLoad = (o && ((spur s.chip n).lastOpen || (spur s.chip n).openLoad)) ∧
  (spur u.chip n).findings = (if o then satInc 65535 (spur s.chip n).findings else (spur s.chip n).findings) ∧
  (spur u.chip n).st = (spur s.chip n).st ∧
  (o = true → (spur s.chip n).lastOpen = true → (spur s.chip n).openLoad = false →
    u.chip.ret.sticky.getLsbD (F.spurOpenLoad n) = true) ∧
  (o = false ∨ (spur s.chip n).lastOpen = false ∨ (spur s.chip n).openLoad = true → Keeps [.spurs] s u) ∧
  (∀ m, m ≠ n → spur u.chip m = spur s.chip m) ∧ Keeps [.ret, .jrn, .alert, .spurs] s u

section
variable {s : State} {t : Time} (hspi : s.chip.spi = [])
include hspi

/-- A step that changes the spurs alone. -/
theorem became_keeps_spurs (spurs : Vector Spur 8) : Keeps [.spurs] s (became { tick t s.chip with spurs := spurs } s) :=
  keeps_of_parts rfl fun p hp => by cases p <;> simp_all [Part.same]

/-- A diagnosis that follows a change of the spur's own counters. -/
theorem became_diagnose {n : Fin 8} (o : Bool) {f : Spur → Spur} (hf : ∀ x, (f x).lastOpen = x.lastOpen ∧
    (f x).openLoad = x.openLoad ∧ (f x).findings = x.findings ∧ (f x).st = x.st) :
    Diagnosed n s o (became (diagnose n o (updSpur n f (tick t s.chip))) s) := by
  obtain ⟨hlast, hopen, hfind, hst⟩ := hf (spur s.chip n)
  have hx : spur (updSpur n f (tick t s.chip)) n = f (spur s.chip n) := spur_updSpur ..
  have alone := (updSpur_alone n f (tick t s.chip)).trans (diagnose_alone n o _)
  obtain ⟨htotals, hinn, hcan, hpair⟩ := diagnose_leaves n o (updSpur n f (tick t s.chip))
  refine ⟨?_, ?_, ?_, ?_, fun ho hl hp => ?_, fun h => ?_, alone.others, ?_⟩
  · simp [diagnosed]
  · simp [diagnosed, hlast, hopen]
  · simp [diagnosed, hfind]
  · simp [diagnosed, hst]
  · exact diagnose_sets ho (by rw [hx, hlast, hl]) (by rw [hx, hopen, hp])
  · rw [diagnose_of_no_second (by rw [hx, hlast, hopen]; exact h)]
    exact became_keeps_spurs hspi _
  · exact keeps_without (keeps_without (keeps_without (keeps_without (alone.keeps hspi) htotals) hinn) hcan) hpair

end

section
variable {n : Fin 8} {c : Chip} {mv : Int}

/-- The off-state test that a slot has left due can be made: the spur is off and its output has fallen (R414). -/
def Testable (n : Fin 8) (c : Chip) : Prop := (spur c n).testDue = true ∧ (spur c n).st = .off ∧ (spur c n).cmd = false ∧
  ∃ p, (spur c n).vHist.head? = some p ∧ p.1 < 200

theorem offStateTest_of_testable (h : Testable n c) : offStateTest n mv c = diagnose n (decide (1000 < mv)) (updSpur n (fun x =>
    { x with testDue := false, sinceTest := 0, cover := updAt x.cover 0 fun _ => true }) c) := by
  obtain ⟨hdue, hst, hcmd, p, hp, hlow⟩ := h
  exact if_pos (by simp [hdue, hst, hcmd, hp, hlow])

theorem offStateTest_of_not_testable (h : ¬ Testable n c) : offStateTest n mv c = c :=
  if_neg fun hc => h (by simpa [Testable, elim_false_eq_true, and_assoc] using hc)

/-- The second of a spur without slots, and in LIMP of every spur, is over (R415). -/
def DiagnosisDue (n : Fin 8) (c : Chip) : Prop :=
  (inLimp c = true ∨ hasGuests c n = false) ∧ (spur c n).diagAt + sec 1 ≤ c.now

theorem diagnosisDue_iff : DiagnosisDue n c ↔
    ((inLimp c || !hasGuests c n) && decide ((spur c n).diagAt + sec 1 ≤ c.now)) = true := by
  simp [DiagnosisDue]

theorem continuousDiagnosis_of_on (h : DiagnosisDue n c) (hst : (spur c n).st = .on) (hq : (spur c n).onQ.2 ≠ 0) :
    continuousDiagnosis n mv c = diagnose n (decide ((spur c n).onQ.1 / ((spur c n).onQ.2 : Rat) < 2))
      (updSpur n (fun x => { x with diagAt := c.now, onQ := (0, 0) }) c) := by
  rw [continuousDiagnosis, if_pos (diagnosisDue_iff.mp h)]
  simp [hst, onMean, hq]

theorem continuousDiagnosis_of_on_unread (h : DiagnosisDue n c) (hst : (spur c n).st = .on) (hq : (spur c n).onQ.2 = 0) :
    continuousDiagnosis n mv c = updSpur n (fun x => { x with diagAt := c.now, onQ := (0, 0) }) c := by
  rw [continuousDiagnosis, if_pos (diagnosisDue_iff.mp h)]
  simp [hst, onMean, hq]

theorem continuousDiagnosis_of_off (h : DiagnosisDue n c) (hst : (spur c n).st = .off) (hcmd : (spur c n).cmd = false) :
    continuousDiagnosis n mv c = diagnose n (decide (1000 < mv)) (updSpur n (fun x => { x with diagAt := c.now }) c) := by
  rw [continuousDiagnosis, if_pos (diagnosisDue_iff.mp h)]
  simp [hst, hcmd]

theorem continuousDiagnosis_of_idle
    (h : ¬ DiagnosisDue n c ∨ ((spur c n).st ≠ .on ∧ ((spur c n).st ≠ .off ∨ (spur c n).cmd = true))) :
    continuousDiagnosis n mv c = c := by
  rcases h with h | ⟨hon, hoff⟩
  · exact if_neg (mt diagnosisDue_iff.mpr h)
  · simp only [continuousDiagnosis]
    split
    · split <;> simp_all
    · rfl

end

/-! ### Which spur a total sheds -/

/-- A fold that keeps the greater of two, and of equals the later one, finds the greatest of a sorted list, and of equals the
highest-numbered. -/
theorem foldl_greatest {e : Fin 8 → Rat} {g : Option (Fin 8) → Fin 8 → Option (Fin 8)} {l : List (Fin 8)} {a r : Fin 8}
    (h : l.foldl g (some a) = some r) (hl : (a :: l).Pairwise (· < ·))
    (hg : ∀ m n, g (some m) n = if e m ≤ e n then some n else some m) :
    r ∈ a :: l ∧ ∀ m ∈ a :: l, e m ≤ e r ∧ (e m = e r → m ≤ r) := by
  induction l generalizing a with
  | nil => cases h; simp
  | cons x l ih =>
    obtain ⟨hlow, hxl⟩ := List.pairwise_cons.mp hl
    have hsub : (a :: l).Sublist (a :: x :: l) := (List.sublist_cons_self x l).cons_cons a
    rw [List.foldl_cons, hg] at h
    by_cases hle : e a ≤ e x
    · obtain ⟨hmem, hmax⟩ := ih (by rwa [if_pos hle] at h) hxl
      refine ⟨List.mem_cons_of_mem _ hmem, fun m hm => ?_⟩
      rcases List.mem_cons.mp hm with rfl | hm
      · obtain ⟨hxr, htie⟩ := hmax x (by simp)
        exact ⟨Rat.le_trans hle hxr, fun heq =>
          Fin.le_trans (Fin.le_of_lt (hlow x (by simp))) (htie (Rat.le_antisymm hxr (heq ▸ hle)))⟩
      · exact hmax m hm
    · obtain ⟨hmem, hmax⟩ := ih (by rwa [if_neg hle] at h) (hl.sublist hsub)
      refine ⟨hsub.subset hmem, fun m hm => ?_⟩
      by_cases hmx : m = x
      · obtain ⟨har, -⟩ := hmax a (by simp)
        have hlt : e m < e r := hmx ▸ Rat.not_le.mp fun hrx => hle (Rat.le_trans har hrx)
        exact ⟨Rat.le_of_lt hlt, fun heq => absurd heq (Rat.ne_of_lt hlt)⟩
      · exact hmax m (by simpa [hmx] using hm)

/-- The excess of a spur over its own allowance (R417 … R419), mA. -/
def excessOf (c : Chip) (n : Fin 8) : Rat :=
  ((spur c n).iLast).getD 0 - (if hasGuests c n then (guestAllowance c n : Rat) else spurAllowance c)

/-- The spurs that are on, in the order of their numbers. -/
def spursOn (c : Chip) : List (Fin 8) := (List.finRange 8).filter fun n => (spur c n).st == .on

section
variable {c : Chip} {n : Fin 8}

theorem mem_spursOn : n ∈ spursOn c ↔ (spur c n).st = .on := by simp [spursOn]

theorem spursOn_sorted (c : Chip) : (spursOn c).Pairwise (· < ·) := List.Pairwise.filter _ (by decide)

theorem greatestExcess_of_none_on (h : ∀ n, (spur c n).st ≠ .on) : greatestExcess c = none := by
  have hnil : spursOn c = [] := List.eq_nil_iff_forall_not_mem.mpr fun n hn => h n (mem_spursOn.mp hn)
  simp only [spursOn] at hnil
  simp [greatestExcess, hnil]

/-- The spur with the greatest excess is on, and of equals it is the higher-numbered (R418). -/
theorem greatestExcess_spec (h : greatestExcess c = some n) : (spur c n).st = .on ∧
    ∀ m, (spur c m).st = .on → excessOf c m ≤ excessOf c n ∧ (excessOf c m = excessOf c n → m ≤ n) := by
  simp only [← mem_spursOn]
  have hsorted := spursOn_sorted c
  change (spursOn c).foldl _ none = some n at h
  cases hl : spursOn c with
  | nil => rw [hl] at h; cases h
  | cons a l =>
    rw [hl] at h hsorted
    exact foldl_greatest h hsorted fun _ _ => rfl

end

/-! ### The totals -/

/-- A total has exceeded its limit for 100 ms (R418). -/
def TotalExceeded (c : Chip) : Prop :=
  let old (o : Option Time) : Prop := ∃ t0, o = some t0 ∧ t0 + ms 100 ≤ c.now
  old c.totals.all ∨ old c.totals.low ∨ old c.totals.high

/-- The overload is recorded, and the totals are followed anew. -/
def totalNoted (c : Chip) : Chip := { setFault F.spurTotal c with totals := {} }

section
variable {nvm : Nvm} {c : Chip}

theorem totalExceeded_iff : TotalExceeded c ↔ (heldFor c (ms 100) c.totals.all || heldFor c (ms 100) c.totals.low ||
    heldFor c (ms 100) c.totals.high) = true := by
  simp [TotalExceeded, heldFor, elim_false_eq_true, or_assoc]

theorem totalOverload_of_not_exceeded (h : ¬ TotalExceeded c) : totalOverload nvm c = c := by
  have hold := Bool.eq_false_iff.mpr (mt totalExceeded_iff.mpr h)
  exact if_pos (congrArg not hold)

/-- What R418 looks at stands after the overload is recorded as before. -/
theorem totalNoted_kept (c : Chip) : (∀ n, spur (totalNoted c) n = spur c n) ∧
    greatestExcess (totalNoted c) = greatestExcess c ∧
    (∀ n, hasGuests (totalNoted c) n = hasGuests c n) ∧ ∀ n, spurCfg (totalNoted c) n = spurCfg c n := by
  obtain ⟨_, _, _, h⟩ := setFault_eq F.spurTotal c
  rw [totalNoted, h]
  exact ⟨fun _ => rfl, rfl, fun _ => rfl, fun _ => rfl⟩

theorem totalNoted_sets (c : Chip) : (totalNoted c).ret.sticky.getLsbD F.spurTotal = true := setFault_sets (by decide) c

theorem totalNoted_alone (n : Fin 8) (c : Chip) : SpurAlone n c (totalNoted c) :=
  (setFault_alone n F.spurTotal c).trans ⟨fun _ _ => rfl, _, _, _, _, _, _, _, _, rfl⟩

/-- A total exceeded for 100 ms is recorded, and sheds the spur with the greatest excess (R418). -/
theorem totalOverload_of_exceeded (h : TotalExceeded c) : totalOverload nvm c = (greatestExcess c).elim (totalNoted c) fun n =>
    if hasGuests c n then cutSpur nvm n 0x09 (totalNoted c) else spurFail nvm n 0x09 [] (totalNoted c) := by
  obtain ⟨-, hgreatest, hguests, -⟩ := totalNoted_kept c
  have hold : ¬ (!(heldFor c (ms 100) c.totals.all || heldFor c (ms 100) c.totals.low ||
    heldFor c (ms 100) c.totals.high)) = true := by simp [totalExceeded_iff.mp h]
  refine (if_neg hold).trans ?_
  rw [← totalNoted, hgreatest]
  cases greatestExcess c with
  | none => rfl
  | some n => simp only [hguests]; rfl

end

/-! ### The spur that is shed -/

/-- The gauge `d` is `c` with spur n off in `st` by `cause` (R401, R418): no other spur changes, and no bit is cleared. -/
def OffBy (cause : Nat) (st : SpurSt) (n : Fin 8) (c d : Chip) : Prop :=
  (spur d n).st = st ∧ (spur d n).offCause = cause ∧ (spur d n).lastFail.1 = cause ∧ d.totals = c.totals ∧
  (∀ b, c.ret.sticky.getLsbD b = true → d.ret.sticky.getLsbD b = true) ∧ SpurAlone n c d

section
variable {nvm : Nvm} {n : Fin 8} {c : Chip} {cause : Nat}

theorem cutSpur_offBy (nvm : Nvm) (n : Fin 8) (cause : Nat) (c : Chip) : OffBy cause .cut n c (cutSpur nvm n cause c) := by
  refine ⟨?_, ?_, ?_, ?_, ?_, cutSpur_alone ..⟩ <;> simp [cutSpur]

/-- The state that a failure leaves a spur without guests in (R401, R403). -/
def failedTo (n : Fin 8) (c : Chip) : SpurSt :=
  if (spur c n).probing.isSome then .faulted else if (spur c n).retries < (spurCfg c n).retries then .retryWait else .faulted

/-- A failure that no counter of Table 9.5 counts, on a spur without guests: it waits for its retry, or is FAULTED. -/
theorem spurFail_unguested (hk : failCounter cause = none) (hg : hasGuests c n = false) :
    OffBy cause (failedTo n c) n c (spurFail nvm n cause [] c) := by
  have hc : updSpur n (countFail cause) c = c := updSpur_of_fixed (by simp [countFail, hk])
  have hfail (f : Spur → Spur) : SpurAlone n c (updSpur n f (noteFail n cause c)) :=
    (noteFail_alone ..).trans (updSpur_alone ..)
  simp only [spurFail, List.foldl_nil, hc, hg, failedTo]
  by_cases hp : (spur c n).probing.isSome
  · simp only [if_pos hp]
    refine ⟨?_, ?_, ?_, ?_, ?_, hfail _⟩ <;> simp
  · simp only [if_neg hp]
    by_cases hr : (spur c n).retries < (spurCfg c n).retries
    · simp only [if_pos hr]
      refine ⟨?_, ?_, ?_, ?_, ?_, (hfail _).trans ((recheckSpur_beaconsOnly ..).spurAlone n)⟩ <;> simp
    · simp only [if_neg hr]
      exact ⟨by simp, by simp, by simp, by simp, fun b hb => setFault_keeps_set (by simpa),
        (hfail _).trans (setFault_alone ..)⟩

end

/-- Spur n has been shed by a total (R418). -/
def Shed (n : Fin 8) (s u : State) : Prop := (spur u.chip n).offCause = 9 ∧ (spur u.chip n).lastFail.1 = 9 ∧
  u.chip.ret.sticky.getLsbD F.spurTotal = true ∧ u.chip.totals = {} ∧ (∀ m, m ≠ n → spur u.chip m = spur s.chip m) ∧
  Keeps [.ret, .jrn, .alert, .spurs, .totals, .inn, .can, .pair] s u

theorem shed_of_offBy {s : State} {t : Time} {n : Fin 8} {st : SpurSt} {d : Chip} (hspi : s.chip.spi = [])
    (h : OffBy 9 st n (totalNoted (tick t s.chip)) d) : Shed n s (became d s) ∧ (spur (became d s).chip n).st = st := by
  obtain ⟨hst, hcause, hlast, htotals, hsticky, halone⟩ := h
  have alone := (totalNoted_alone n (tick t s.chip)).trans halone
  have keeps := alone.keeps hspi
  exact ⟨⟨hcause, hlast, hsticky _ (totalNoted_sets _), htotals, alone.others, keeps_mono keeps (by simp)⟩, hst⟩

/-! ### The commands -/

section
variable {s : State} {t : Time} {n : Fin 8} {mv : Int} (hspi : s.chip.spi = [])
include hspi

theorem exec_spurBackfeedOn_of_above (hst : (spur s.chip n).st = .rampUp ∨ (spur s.chip n).st = .on) (hmv : 300 ≤ mv) :
    ∃ u, exec (.spurBackfeedOn t n mv) s = .next u ∧ (spur u.chip n).st = .blocked ∧ (spur u.chip n).offCause = 7 ∧
      (spur u.chip n).lastFail.1 = 7 ∧ (spur u.chip n).retries = (spur s.chip n).retries ∧
      (spur u.chip n).blockedAt = max s.chip.now t ∧ u.chip.ret.sticky.getLsbD (F.spurBackfeed n) = true ∧
      (∀ m, m ≠ n → spur u.chip m = spur s.chip m) ∧ Keeps [.ret, .jrn, .alert, .spurs, .inn, .can, .pair] s u := by
  have alone := blockSpur_alone s.nvm n (tick t s.chip)
  obtain ⟨hblocked, hcause, hlast, hretries, hat⟩ := blockSpur_spur s.nvm n (tick t s.chip)
  have keeps := keeps_without (alone.keeps hspi) (by simp [Part.same, blockSpur_totals])
  refine ⟨_, run_became (backfeedOn_of_above (c := tick t s.chip) hst hmv), ?_⟩
  simp only [became_chip, spur_settle, settle_ret]
  exact ⟨hblocked, hcause, hlast, hretries, hat, blockSpur_sets .., alone.1, keeps_mono keeps (by simp)⟩

theorem exec_spurBlockedRelease_of_released (h : Released n (tick t s.chip)) :
    ∃ u, exec (.spurBlockedRelease t n) s = .next u ∧ (spur u.chip n).cmd = spurCommand s.chip n ∧
      (spur u.chip n).st = (if spurCommand s.chip n && !(spur s.chip n).hot then .rampUp else .off) ∧
      (∀ m, m ≠ n → spur u.chip m = spur s.chip m) ∧ Keeps [.spurs] s u := by
  obtain ⟨hcmd, hst⟩ := blockedRelease_spur h
  obtain ⟨_, hd⟩ := blockedRelease_eq h
  exact ⟨_, run_became rfl, hcmd, hst, (blockedRelease_alone h).others, hd ▸ became_keeps_spurs hspi _⟩

theorem exec_spurTotalOverload_of_none_on (h : TotalExceeded (tick t s.chip)) (hoff : ∀ n, (spur s.chip n).st ≠ .on) :
    exec (.spurTotalOverload t) s = .next (after t totalNoted s) := by
  have hnone : greatestExcess (tick t s.chip) = none := greatestExcess_of_none_on hoff
  exact run_after ((totalOverload_of_exceeded h).trans (by rw [hnone]; rfl)) (by simp [totalNoted, hspi])

theorem exec_spurTotalOverload_of_guests (h : TotalExceeded (tick t s.chip)) (hn : greatestExcess s.chip = some n)
    (hg : hasGuests s.chip n = true) :
    ∃ u, exec (.spurTotalOverload t) s = .next u ∧ Shed n s u ∧ (spur u.chip n).st = .cut := by
  have hn' : greatestExcess (tick t s.chip) = some n := hn
  have hd : totalOverload s.nvm (tick t s.chip) = cutSpur s.nvm n 9 (totalNoted (tick t s.chip)) := by
    rw [totalOverload_of_exceeded h, hn']
    exact if_pos hg
  exact ⟨_, run_became hd, shed_of_offBy hspi (cutSpur_offBy ..)⟩

theorem exec_spurTotalOverload_of_no_guests (h : TotalExceeded (tick t s.chip)) (hn : greatestExcess s.chip = some n)
    (hg : hasGuests s.chip n = false) :
    ∃ u, exec (.spurTotalOverload t) s = .next u ∧ Shed n s u ∧ (spur u.chip n).st = failedTo n s.chip := by
  have hn' : greatestExcess (tick t s.chip) = some n := hn
  have hd : totalOverload s.nvm (tick t s.chip) = spurFail s.nvm n 9 [] (totalNoted (tick t s.chip)) := by
    rw [totalOverload_of_exceeded h, hn']
    exact if_neg (ne_true_of_eq_false hg)
  obtain ⟨hspur, -, hguests, hcfg⟩ := totalNoted_kept (tick t s.chip)
  have hst : failedTo n (totalNoted (tick t s.chip)) = failedTo n s.chip := by simp only [failedTo, hspur, hcfg]; rfl
  have hoff := spurFail_unguested (nvm := s.nvm) (cause := 9) rfl ((hguests n).trans hg)
  exact ⟨_, run_became hd, shed_of_offBy hspi (hst ▸ hoff)⟩

end

/-- Settles O35: backfeed and its end, the off-state test and the continuous diagnosis, and the totals. -/
theorem backfeedOpenLoadAndTotals : Obligations.BackfeedOpenLoadAndTotals := by
  unfold Obligations.BackfeedOpenLoadAndTotals
  refine ⟨fun s t n hspi => ⟨?_, ?_, ?_, ?_⟩, fun s t n mv hspi => ⟨?_, ?_, ?_, ?_, ?_, ?_⟩,
    fun s t hspi => ⟨?_, ?_, ?_, ?_, ?_⟩⟩
  · exact fun mv hst hmv => exec_spurBackfeedOn_of_above hspi hst hmv
  · exact fun mv h => run_after (backfeedOn_of_not (c := tick t s.chip) h) hspi
  · exact fun h => exec_spurBlockedRelease_of_released hspi h
  · exact fun h => run_after (blockedRelease_of_not_released (c := tick t s.chip) h) hspi
  · intro h
    have hd := offStateTest_of_testable (c := tick t s.chip) (mv := mv) h
    refine ⟨_, run_became hd, became_diagnose hspi _ fun _ => ?_, ?_, ?_⟩
    · exact ⟨rfl, rfl, rfl, rfl⟩
    · simp [diagnosed]
    · simp [diagnosed]
  · exact fun h => run_after (offStateTest_of_not_testable (c := tick t s.chip) h) hspi
  · intro h hst hq
    have hd := continuousDiagnosis_of_on (c := tick t s.chip) (mv := mv) h hst hq
    refine ⟨_, run_became hd, became_diagnose hspi _ fun _ => ?_, ?_, ?_⟩
    · exact ⟨rfl, rfl, rfl, rfl⟩
    · simp [diagnosed]
    · simp [diagnosed]
  · exact fun h hst hq => run_after (continuousDiagnosis_of_on_unread (c := tick t s.chip) h hst hq) hspi
  · intro h hst hcmd
    have hd := continuousDiagnosis_of_off (c := tick t s.chip) (mv := mv) h hst hcmd
    refine ⟨_, run_became hd, became_diagnose hspi _ fun _ => ?_, ?_⟩
    · exact ⟨rfl, rfl, rfl, rfl⟩
    · simp [diagnosed]
  · exact fun h => run_after (continuousDiagnosis_of_idle (c := tick t s.chip) h) hspi
  · exact fun n hn => greatestExcess_spec hn
  · exact fun h hoff => exec_spurTotalOverload_of_none_on hspi h hoff
  · exact fun n hn h hg => exec_spurTotalOverload_of_guests hspi h hn hg
  · exact fun n hn h hg => exec_spurTotalOverload_of_no_guests hspi h hn hg
  · exact fun h => run_after (totalOverload_of_not_exceeded (c := tick t s.chip) h) hspi

end Sys2Proof.Machine

/-! The reads (R693, R702, R747) and CMD_RESULT (R692). The first part says once what serving an accepted request comes to, for
every command of Table 14.6: the status of the first check of Table 14.7 that it fails, or what its command does. The second
names the checks of the four commands. The last theorem settles O49. -/

namespace Sys2Proof.Machine

/-! ### The first check that fails -/

/-- The status of the first check that applies, of a list in the order of Table 14.7. -/
def firstStatus (checks : List (Bool × Nat)) : Option Nat := (checks.find? (·.1)).map (·.2)

@[simp] theorem firstStatus_nil : firstStatus [] = none := rfl

@[simp] theorem firstStatus_cons (b : Bool) (n : Nat) (checks : List (Bool × Nat)) :
    firstStatus ((b, n) :: checks) = if b then some n else firstStatus checks := by
  cases b <;> rfl

theorem firstStatus_of_find {checks : List (Bool × Nat)} {x : Bool × Nat} (h : checks.find? (·.1) = some x) :
    firstStatus checks = some x.2 := by simp [firstStatus, h]

theorem firstStatus_of_none {checks : List (Bool × Nat)} (h : checks.find? (·.1) = none) : firstStatus checks = none := by
  simp [firstStatus, h]

/-! ### Serving an accepted request -/

section
variable {k : Command} {d : Delivery} {nvm : Nvm} {c0 c e : Chip} {r : Request} {w : Who} {ks : Option (List Byte)}
  {status : Nat} {data : List Byte}

theorem serve_of_fault (ha : Sys2Proof.Accepted d c0 r w ks c) (hop : r.op = k.op) (hf : k.fault nvm c w r.params = some status) :
    serve k d nvm c0 = answered r w ks status [] c := by
  obtain ⟨c1, hr, rfl, hadm⟩ := ha
  cases w <;> simp [serve, answered, hr, hop, hadm, hf]

theorem serve_of_done (ha : Sys2Proof.Accepted d c0 r w ks c) (hop : r.op = k.op) (hf : k.fault nvm c w r.params = none)
    (hact : k.act nvm r w c = (status, data, e)) (hafter : k.after = fun _ c => c) :
    serve k d nvm c0 = answered r w ks status data e := by
  obtain ⟨c1, hr, rfl, hadm⟩ := ha
  cases w <;> simp [serve, answered, hr, hop, hadm, hf, hact, hafter]

end

section
variable {k : Command} {s : State} {t : Time} {d : Delivery} {r : Request} {w : Who} {ks : Option (List Byte)} {c e : Chip}
  {checks : List (Bool × Nat)} {status : Nat} {data : List Byte}
  (ha : Sys2Proof.Accepted d (tick t s.chip) r w ks c) (hop : r.op = k.op)
  (hk : k.fault s.nvm c w r.params = firstStatus checks)
include ha hop hk

/-- A request that fails a check is answered with the first one's status, and does nothing. -/
theorem run_serve_of_failed {x : Bool × Nat} (hx : checks.find? (·.1) = some x) :
    run t (fun nvm c => serve k d nvm c) s = .next (became (answered r w ks x.2 [] c) s) :=
  run_became (serve_of_fault ha hop (hk.trans (firstStatus_of_find hx)))

/-- A request that fails no check is answered as its command says. -/
theorem run_serve_of_passed (hx : checks.find? (·.1) = none) (hact : k.act s.nvm r w c = (status, data, e))
    (hafter : k.after = fun _ c => c) :
    run t (fun nvm c => serve k d nvm c) s = .next (became (answered r w ks status data e) s) :=
  run_became (serve_of_done ha hop (hk.trans (firstStatus_of_none hx)) hact hafter)

end

/-! ### Who sends a request -/

/-- Every session has one of the three roles. -/
theorem isRole_every (w : Who) : w.isRole [.owner, .depot, .guest] = (w != .pub) := by
  cases w with
  | pub => rfl
  | sess h x =>
    have three : ∀ a : Role, [Role.owner, .depot, .guest].contains a = true := by rintro (_ | _ | _) <;> rfl
    exact three x.role

/-- A guest's session, with the guest's own index at the head of the parameters. -/
def ownsIndex (w : Who) (p : List Byte) : Bool :=
  match w with
  | .sess _ x => x.role == .guest && x.index == u16At p 0
  | .pub => false

theorem guestRole_eq (nvm : Nvm) (c : Chip) (w : Who) (p : List Byte) :
    guestRole (fun _ => true) nvm c w p = (w.isRole [.owner, .depot] || ownsIndex w p) := by
  cases w with
  | pub => rfl
  | sess h x => simp [guestRole, ownsIndex, Bool.beq_eq_decide_eq, eq_comm]

/-! ### The checks of the reads (Tables 14.6, 14.7) -/

section
variable (nvm : Nvm) (c : Chip) (w : Who) (p : List Byte)

/-- R702: the roles count for a range that includes T.INN or T.CONFIG_ECHO, and for parameters that hold one. -/
def readChecks : List (Bool × Nat) :=
  [(p.length == 4 && !w.isRole [.owner, .depot] && readsClosed (u16At p 0) (u8At p 2), 0x06), (p.length != 4, 0x04),
    (u8At p 2 == 0 || decide (48 < u8At p 2) || u8At p 3 != 0 || decide (0x1000 < u16At p 0 + u8At p 2), 0x05)]

/-- A guest reads the record of its own index alone (log entry 31). -/
def guestReadChecks : List (Bool × Nat) :=
  [(!w.isRole [.owner, .depot] && !ownsIndex w p, 0x06), (!innMode c, 0x07), (p.length != 2, 0x04),
    ((guestRecord nvm c (u16At p 0)).isNone, 0x05)]

/-- One to three records, for the owner and the depot. -/
def journalReadChecks : List (Bool × Nat) :=
  [(!w.isRole [.owner, .depot], 0x06), (p.length != 5, 0x04), (u8At p 4 == 0 || decide (3 < u8At p 4), 0x05)]

/-- R692: any session may ask, and one without a pending command of its own is answered with NO_RESULT. -/
def resultChecks : List (Bool × Nat) := [(w == .pub, 0x06), (p != [], 0x04), ((ownPend c w).isNone, 0x12)]

theorem cmdRead_fault : cmdRead.fault nvm c w p = firstStatus (readChecks w p) := by
  have role : (!cmdRead.role nvm c w p) =
      (p.length == 4 && !w.isRole [.owner, .depot] && readsClosed (u16At p 0) (u8At p 2)) := by
    by_cases hlen : p.length = 4 <;> simp [cmdRead, hlen]
  simp only [Command.fault, role]
  simp [cmdRead, readChecks, bne]

theorem cmdGuestRead_fault : cmdGuestRead.fault nvm c w p = firstStatus (guestReadChecks nvm c w p) := by
  simp [Command.fault, cmdGuestRead, guestRole_eq, guestReadChecks]

theorem cmdJournalRead_fault : cmdJournalRead.fault nvm c w p = firstStatus (journalReadChecks w p) := by
  simp [Command.fault, cmdJournalRead, ownerOrDepot, journalReadChecks]

theorem cmdResult_fault : cmdResult.fault nvm c w p = firstStatus (resultChecks c w p) := by
  simp [Command.fault, cmdResult, isRole_every, resultChecks]

end

/-! ### What the reads answer -/

section
variable {nvm : Nvm} {r : Request} {w : Who} {c : Chip} {q : Pend}

theorem cmdRead_act : cmdRead.act nvm r w c = (0x00, objectBytes nvm c (u16At r.params 0) (u8At r.params 2), c) := rfl

theorem cmdGuestRead_act {b : List Byte} (h : guestRecord nvm c (u16At r.params 0) = some b) :
    cmdGuestRead.act nvm r w c = (0x00, b, c) := by simp [cmdGuestRead, h]

theorem cmdJournalRead_act : cmdJournalRead.act nvm r w c =
    (0x00, ((journalFrom nvm c (u32At r.params 0)).take (u8At r.params 4)).flatten, c) := by
  simp [cmdJournalRead, List.flatMap_id]

theorem cmdResult_act_of_ready {o : Nat × List Byte} (hq : ownPend c w = some q) (ho : q.outcome = some o) :
    cmdResult.act nvm r w c = (o.1, o.2, { c with host.pend := none }) := by simp [cmdResult, hq, ho]

theorem cmdResult_act_of_waiting (hq : ownPend c w = some q) (ho : q.outcome = none) :
    cmdResult.act nvm r w c = (0x01, [], c) := by simp [cmdResult, hq, ho]

end

/-- Settles O49: each read answers its data, or the first check of Table 14.7 that it fails. -/
theorem readsAnswerAndChangeNothing : Obligations.ReadsAnswerAndChangeNothing := by
  unfold Obligations.ReadsAnswerAndChangeNothing
  intro s t d r w ks c ha
  refine ⟨fun hop => ?read, fun hop => ?guestRead, fun hop => ?journalRead, fun hop => ?result⟩
  case read =>
    have hk := cmdRead_fault s.nvm c w r.params
    exact ⟨fun x hx => run_serve_of_failed ha hop hk hx, fun hx => run_serve_of_passed ha hop hk hx cmdRead_act rfl⟩
  case guestRead =>
    have hk := cmdGuestRead_fault s.nvm c w r.params
    exact ⟨fun x hx => run_serve_of_failed ha hop hk hx,
      fun hx b hb => run_serve_of_passed ha hop hk hx (cmdGuestRead_act hb) rfl⟩
  case journalRead =>
    have hk := cmdJournalRead_fault s.nvm c w r.params
    exact ⟨fun x hx => run_serve_of_failed ha hop hk hx, fun hx => run_serve_of_passed ha hop hk hx cmdJournalRead_act rfl⟩
  case result =>
    have hk := cmdResult_fault s.nvm c w r.params
    exact ⟨fun x hx => run_serve_of_failed ha hop hk hx, fun hx q hq =>
      ⟨fun o ho => run_serve_of_passed ha hop hk hx (cmdResult_act_of_ready hq ho) rfl,
        fun ho => run_serve_of_passed ha hop hk hx (cmdResult_act_of_waiting hq ho) rfl⟩⟩

end Sys2Proof.Machine

/-! The SHARE probe (R760 … R764, R775, Table 15.6). The first part says what a drive phase does, the second how a probe is judged,
the third what the gauge does on a verdict. The last theorem settles O56. -/

namespace Sys2Proof.Machine

/-! ### The drive phases -/

section
variable {c : Chip} {p : Probe} {k : Nat}

theorem probePhase_of_none (h : c.pair.probe = none) (k code : Nat) : probePhase k code c = c := by simp [probePhase, h]

/-- A phase does not end before its time (Table 15.6). -/
theorem probePhase_of_early (h : c.pair.probe = some p) (ht : c.now < p.start + probeWindow c + us (300 * k)) (code : Nat) :
    probePhase k code c = c := by simp [probePhase, h, ht]

/-- A probe has three phases: hold, 0.2 V and 2.2 V (log entry 60). -/
theorem probePhase_of_none_such (hk : 2 < k) (code : Nat) : probePhase k code c = c := by
  obtain ⟨k, rfl⟩ : ∃ j, k = j + 3 := ⟨k - 3, by omega⟩
  simp only [probePhase]
  cases c.pair.probe with
  | none => rfl
  | some p => exact ite_self c

theorem probePhase_hold (h : c.pair.probe = some p) (ht : p.start + probeWindow c + us (300 * 0) ≤ c.now) (code : Nat) :
    probePhase 0 code c = { c with pair := { c.pair with drive := some 200 } } := by
  simp only [probePhase, h]
  exact if_neg (Nat.not_lt.mpr ht)

theorem probePhase_low (h : c.pair.probe = some p) (ht : p.start + probeWindow c + us (300 * 1) ≤ c.now) (code : Nat) :
    probePhase 1 code c =
      { c with pair := { c.pair with drive := some 2200, probe := some { p with first := some code } } } := by
  simp only [probePhase, h]
  exact if_neg (Nat.not_lt.mpr ht)

theorem probePhase_high (h : c.pair.probe = some p) (ht : p.start + probeWindow c + us (300 * 2) ≤ c.now) (code : Nat) :
    probePhase 2 code c =
      { c with pair := { c.pair with drive := some c.share.vD, probe := some { p with second := some code } } } := by
  simp only [probePhase, h]
  exact if_neg (Nat.not_lt.mpr ht)

end

/-! ### The judgement -/

/-- Δ of a probe, mV; none without both readings (R761, log entry 60). -/
def probeDelta (p : Probe) : Option Rat := p.first.bind fun a => p.second.map fun b => shareMv b - shareMv a

/-- The probe is over: SHARE is driven no longer, and Δ is kept where there is one. -/
def probeOver (p : Probe) (c : Chip) : Chip :=
  { c with pair := { c.pair with probe := none, drive := none, delta := (probeDelta p).elim c.pair.delta roundRat } }

/-- The probe is over with the verdict `v`. -/
def probeJudged (p : Probe) (v : Nat) (c : Chip) : Chip :=
  { c with pair := { (probeOver p c).pair with verdict := v } }

section
variable {c : Chip} {p : Probe}

theorem probeDecision_of_none (h : c.pair.probe = none) : probeDecision c = c := by simp [probeDecision, h]

theorem probeDecision_of_early (h : c.pair.probe = some p) (ht : c.now < p.start + ms 2) : probeDecision c = c := by
  simp [probeDecision, h, ht]

/-- A probe is judged 2.0 ms after its start; its verdict acts only while the link is lost (R761, R775). -/
theorem probeDecision_of_due (h : c.pair.probe = some p) (ht : p.start + ms 2 ≤ c.now) :
    let v := probeVerdict (faultSet c F.shareFault) (probeDelta p)
    probeDecision c = if c.pair.linkLost then applyVerdict p.start v (probeJudged p v c)
      else probeOver p c := by
  obtain ⟨start, first, second⟩ := p
  simp only [probeDecision, h, Nat.not_lt.mpr ht, if_false, probeOver]
  cases first <;> cases second <;> rfl

end

/-! ### What follows from a verdict -/

theorem leNat_lt (bs : List Byte) : leNat bs < 256 ^ bs.length := by
  induction bs with
  | nil => decide
  | cons b bs ih =>
    have hb : b.toNat < 256 := b.isLt
    simp only [leNat, List.length_cons, Nat.pow_succ]
    omega

/-- The next probe of a split falls due 1 s to 1.1 s after the last began (R763). -/
def ProbedAgain (start : Time) (c : Chip) : Prop :=
  ∃ next, c.pair.nextProbe = some next ∧ start + sec 1 ≤ next ∧ next ≤ start + ms 1100

theorem nextSplitProbe_eq (start : Time) (c : Chip) : ∃ next,
    nextSplitProbe start c = { c with free := c.free + 2, pair.nextProbe := some next } ∧
      start + sec 1 ≤ next ∧ next ≤ start + ms 1100 := by
  have hr : leNat (randomBytes 2 c).1 < 256 ^ 2 := leNat_lt (randomBytes 2 c).1
  have hpart : leNat (randomBytes 2 c).1 * ms 100 / 65536 ≤ ms 100 :=
    Nat.div_le_of_le_mul (Nat.mul_le_mul_right _ (by omega))
  refine ⟨start + sec 1 + leNat (randomBytes 2 c).1 * ms 100 / 65536, rfl, Nat.le_add_right .., ?_⟩
  calc start + sec 1 + leNat (randomBytes 2 c).1 * ms 100 / 65536
    _ ≤ start + sec 1 + ms 100 := Nat.add_le_add_left hpart _
    _ = start + ms 1100 := Nat.add_assoc ..

theorem standInNow_eq (c : Chip) : ∃ pair caravan, standInNow c = { c with pair := pair, caravan := caravan } := ⟨_, _, rfl⟩

section
variable {c : Chip} (start : Time)

/-- ABSENT sets its bit, and outside a split, and in one the second time, the gauge stands in (R761, R763). -/
theorem applyVerdict_of_absent (h : c.pair.split = false ∨ c.pair.absents ≠ 0) :
    applyVerdict start 1 c = standInNow (setFault F.pairPartnerLost c) := by
  rcases h with h | h <;> simp [applyVerdict, h]

/-- The first ABSENT of a split is counted, and the probe is repeated (R763). -/
theorem applyVerdict_of_first_absent (hs : c.pair.split = true) (ha : c.pair.absents = 0) :
    applyVerdict start 1 c =
      nextSplitProbe start { setFault F.pairPartnerLost c with pair := { c.pair with absents := 1 } } := by
  simp [applyVerdict, hs, ha]

/-- Any other verdict sets its bit and splits the pair (R761, R763). -/
theorem applyVerdict_of_other {v : Nat} (hv : v ≠ 1) :
    applyVerdict start v c = nextSplitProbe start { setFault (if v = 2 then F.pairSplit else F.pairProbe) c with
      pair := { c.pair with split := true, fresh := false, absents := 0 } } := by
  simp [applyVerdict, hv]

end

/-- How the verdict `v` on a probe begun at `start` takes the gauge from `c` to `d` (R761, R763, Table 15.8). -/
structure VerdictTaken (start : Time) (v : Nat) (c d : Chip) : Prop where
  records : d.pair.probe = c.pair.probe ∧ d.pair.drive = c.pair.drive ∧ d.pair.delta = c.pair.delta ∧
    d.pair.verdict = c.pair.verdict
  absent : v = 1 → d.ret.sticky.getLsbD F.pairPartnerLost = true
  standsIn : v = 1 → c.pair.split = false ∨ c.pair.absents ≠ 0 → d.pair.standIn = true ∧ d.pair.split = false
  counts : v = 1 → c.pair.split = true → c.pair.absents = 0 →
    d.pair.split = true ∧ d.pair.absents = 1 ∧ d.pair.standIn = c.pair.standIn ∧ ProbedAgain start d
  splits : v ≠ 1 → d.pair.split = true ∧ d.pair.absents = 0 ∧ d.pair.standIn = c.pair.standIn ∧
    d.ret.sticky.getLsbD (if v = 2 then F.pairSplit else F.pairProbe) = true ∧ ProbedAgain start d
  frame : ∃ ret jrn alert free caravan pair, d = { c with
    ret := ret, jrn := jrn, alert := alert, free := free, caravan := caravan, pair := pair }

theorem verdictTaken_of_absent (start : Time) {c : Chip} (h : c.pair.split = false ∨ c.pair.absents ≠ 0) :
    VerdictTaken start 1 c (applyVerdict start 1 c) := by
  have hbit := setFault_sets (b := F.pairPartnerLost) (by decide) c
  obtain ⟨ret, jrn, alert, hf⟩ := setFault_eq F.pairPartnerLost c
  rw [applyVerdict_of_absent start h]
  rw [hf] at hbit ⊢
  exact
    { records := ⟨rfl, rfl, rfl, rfl⟩
      absent := fun _ => hbit
      standsIn := fun _ _ => ⟨rfl, rfl⟩
      counts := fun _ hs ha => by simp [hs, ha] at h
      splits := fun hv => absurd rfl hv
      frame := ⟨_, _, _, _, _, _, rfl⟩ }

theorem verdictTaken_of_first_absent (start : Time) {c : Chip} (hs : c.pair.split = true) (ha : c.pair.absents = 0) :
    VerdictTaken start 1 c (applyVerdict start 1 c) := by
  have hbit := setFault_sets (b := F.pairPartnerLost) (by decide) c
  obtain ⟨ret, jrn, alert, hf⟩ := setFault_eq F.pairPartnerLost c
  rw [applyVerdict_of_first_absent start hs ha]
  rw [hf] at hbit ⊢
  obtain ⟨next, hn, hnext⟩ := nextSplitProbe_eq start
    { c with ret := ret, jrn := jrn, alert := alert, pair := { c.pair with absents := 1 } }
  rw [hn]
  exact
    { records := ⟨rfl, rfl, rfl, rfl⟩
      absent := fun _ => hbit
      standsIn := fun _ h => by simp [hs, ha] at h
      counts := fun _ _ _ => ⟨hs, rfl, rfl, next, rfl, hnext⟩
      splits := fun hv => absurd rfl hv
      frame := ⟨_, _, _, _, _, _, rfl⟩ }

theorem verdictTaken_of_other (start : Time) {c : Chip} {v : Nat} (hv : v ≠ 1) :
    VerdictTaken start v c (applyVerdict start v c) := by
  have hbit := setFault_sets (b := if v = 2 then F.pairSplit else F.pairProbe) (by split <;> decide) c
  obtain ⟨ret, jrn, alert, hf⟩ := setFault_eq (if v = 2 then F.pairSplit else F.pairProbe) c
  rw [applyVerdict_of_other start hv]
  rw [hf] at hbit ⊢
  obtain ⟨next, hn, hnext⟩ := nextSplitProbe_eq start { c with
    ret := ret, jrn := jrn, alert := alert, pair := { c.pair with split := true, fresh := false, absents := 0 } }
  rw [hn]
  exact
    { records := ⟨rfl, rfl, rfl, rfl⟩
      absent := fun h => absurd h hv
      standsIn := fun h => absurd h hv
      counts := fun h => absurd h hv
      splits := fun _ => ⟨rfl, rfl, rfl, hbit, next, rfl, hnext⟩
      frame := ⟨_, _, _, _, _, _, rfl⟩ }

/-- Each verdict is taken as Table 15.6 and R763 have it. -/
theorem applyVerdict_taken (start : Time) (v : Nat) (c : Chip) : VerdictTaken start v c (applyVerdict start v c) := by
  by_cases hv : v = 1
  · subst hv
    by_cases h : c.pair.split = true ∧ c.pair.absents = 0
    · exact verdictTaken_of_first_absent start h.1 h.2
    · exact verdictTaken_of_absent start (by simpa [Decidable.imp_iff_not_or] using h)
  · exact verdictTaken_of_other start hv

/-! ### The commands -/

section
variable {s : State} {t : Time} {p : Probe} (hspi : s.chip.spi = [])
include hspi

/-- A link that is up again discards the verdict (R775). -/
theorem exec_pairProbeDecision_of_linkUp (h : s.chip.pair.probe = some p) (ht : p.start + ms 2 ≤ max s.chip.now t)
    (hl : s.chip.pair.linkLost = false) : exec (.pairProbeDecision t) s = .next (after t (probeOver p) s) :=
  run_after ((probeDecision_of_due (c := tick t s.chip) h ht).trans (if_neg (by simp [hl]))) hspi

/-- The verdict is kept with Δ, and taken (R761). -/
theorem exec_pairProbeDecision_of_linkLost (h : s.chip.pair.probe = some p) (ht : p.start + ms 2 ≤ max s.chip.now t)
    (hl : s.chip.pair.linkLost = true) :
    let v := probeVerdict (faultSet s.chip F.shareFault) (probeDelta p)
    ∃ d, exec (.pairProbeDecision t) s = .next (became d s) ∧
      VerdictTaken p.start v (probeJudged p v (tick t s.chip)) d ∧
      Keeps [.ret, .jrn, .alert, .free, .caravan, .pair] s (became d s) := by
  intro v
  have hd : probeDecision (tick t s.chip) = applyVerdict p.start v (probeJudged p v (tick t s.chip)) :=
    (probeDecision_of_due (c := tick t s.chip) h ht).trans (if_pos hl)
  have taken := applyVerdict_taken p.start v (probeJudged p v (tick t s.chip))
  refine ⟨_, run_became hd, taken, ?_⟩
  obtain ⟨_, _, _, _, _, _, hf⟩ := taken.frame
  rw [hf]
  exact keeps_of_parts rfl fun q hq => by cases q <;> simp_all [Part.same, probeJudged]

end

/-- The probe of a split is due again (R763). -/
def ProbeRepeats (c : Chip) : Prop :=
  c.pair.split = true ∧ c.pair.probe = none ∧ linkRuns c = true ∧ ∃ t0, c.pair.nextProbe = some t0 ∧ t0 ≤ c.now

theorem splitRepeat_of_due {c : Chip} (h : ProbeRepeats c) : splitRepeat c = startProbe c := by
  obtain ⟨hs, hp, hl, t0, hn, ht⟩ := h
  simp [splitRepeat, hs, hp, hl, hn, ht]

theorem splitRepeat_of_idle {c : Chip} (h : ¬ ProbeRepeats c) : splitRepeat c = c := by
  refine if_neg fun due => h ?_
  simp only [Bool.and_eq_true, Option.isNone_iff_eq_none] at due
  obtain ⟨⟨⟨hs, hp⟩, hl⟩, hn⟩ := due
  cases hx : c.pair.nextProbe with
  | none => simp [hx] at hn
  | some t0 => exact ⟨hs, hp, hl, t0, hx, by simpa [hx] using hn⟩

/-- Settles O56: the phases of a probe, its judgement, what the gauge does on the verdict, and the repeats of a split. -/
theorem shareProbesDecideStandInOrSplit : Obligations.ShareProbesDecideStandInOrSplit := by
  unfold Obligations.ShareProbesDecideStandInOrSplit
  intro s t hspi x now repeats
  refine ⟨?phases, ?idle, ?decision, ?verdict, fun _ => rfl, ?repeated, ?notRepeated⟩
  case phases =>
    intro p code hp due
    refine ⟨fun h => ?_, fun h => ?_, fun h => ?_, fun k h => ?_, fun h => ?_⟩
    · exact run_after (probePhase_hold (c := tick t s.chip) hp h code) hspi
    · exact run_after (probePhase_low (c := tick t s.chip) hp h code) hspi
    · exact run_after (probePhase_high (c := tick t s.chip) hp h code) hspi
    · rcases h with h | h
      · exact run_after (probePhase_of_early (c := tick t s.chip) hp (Nat.not_le.mp h) code) hspi
      · exact run_after (probePhase_of_none_such h code) hspi
    · exact run_after (probeDecision_of_early (c := tick t s.chip) hp h) hspi
  case idle =>
    exact fun k code hp => ⟨run_after (probePhase_of_none (c := tick t s.chip) hp k code) hspi,
      run_after (probeDecision_of_none (c := tick t s.chip) hp) hspi⟩
  case decision =>
    intro p hp ht mv d delta soon
    refine ⟨fun hl => exec_pairProbeDecision_of_linkUp hspi hp ht hl, fun hl => ?_⟩
    obtain ⟨d', hu, taken, keeps⟩ := exec_pairProbeDecision_of_linkLost hspi hp ht hl
    obtain ⟨hprobe, hdrive, hdelta, hverdict⟩ := taken.records
    refine ⟨_, hu, hprobe, hdrive, hdelta, hverdict, ?_⟩
    rw [show (became d' s).chip.pair.verdict = _ from hverdict]
    exact ⟨taken.absent, taken.standsIn, taken.counts, taken.splits, keeps⟩
  case verdict => exact fun bad d => rfl
  case repeated =>
    intro h
    refine ⟨_, run_became (splitRepeat_of_due (c := tick t s.chip) h), rfl, rfl, rfl, rfl, ?_⟩
    exact keeps_of_parts rfl fun q hq => by cases q <;> simp_all [Part.same, startProbe]
  case notRepeated =>
    exact fun h => run_after (splitRepeat_of_idle (c := tick t s.chip) h) hspi

end Sys2Proof.Machine

/-! A SUMMARY of the partner and charging (R744, R250, R359, R506). A SUMMARY forms the temperatures anew, and where they close the
charge window, charging ends with TTF reading no time. The first part follows TTF through what a temperature reading brings about, the
second takes the SUMMARY of a joined pair up to there. The last refutes the statement on the partner's records, whose frame of a SUMMARY
leaves TTF out. -/

namespace Sys2Proof.Machine

/-! ### The learned figures after a temperature reading -/

theorem BeaconsOnly.learn {c d : Chip} (h : BeaconsOnly c d) : d.learn = c.learn := by
  obtain ⟨_, _, _, rfl⟩ := h
  rfl

theorem foldl_learn {α : Type} {g : Chip → α → Chip} (h : ∀ c x, (g c x).learn = c.learn) (l : List α) (c : Chip) :
    (l.foldl g c).learn = c.learn := by
  induction l generalizing c with
  | nil => rfl
  | cons x l ih => exact (ih _).trans (h c x)

theorem dieCriticalSlots_learn (nvm : Nvm) (c : Chip) : (dieCriticalSlots nvm c).learn = c.learn := by
  refine foldl_learn (fun c n => ?_) _ c
  dsimp only
  split
  · rw [(holdSpur_beaconsOnly ..).learn, (refundRunning_beaconsOnly ..).learn]
    exact foldl_learn (fun _ _ => by simp) _ c
  · exact (recheckSpur_beaconsOnly ..).learn

/-- After a temperature reading the policies of the pack path alone touch the learned and reported figures (R227, R256). -/
theorem afterTemp_learn (nvm : Nvm) (c : Chip) : (afterTemp nvm c).learn = (packPolicies (recomputeTemp c)).learn := by
  simp only [afterTemp]
  rw [(recheckAll_beaconsOnly ..).learn]
  split
  · simp [dieCriticalSlots_learn]
  · split <;> simp

/-- Charging that may not go on ends, and TTF reads no time (R847, R506). -/
theorem packPolicies_ends_charging {c : Chip} (hc : charging c = true) (hk : chargeKeeps c = false) :
    (packPolicies c).learn.ttf = noTime := by
  have hst : c.pack.st = .charge := by simp_all [charging]
  simp only [packPolicies]
  generalize hd : (if (c.chg.latDeep && !deepPack c) = true then { c with chg.latDeep := false } else c) = d
  obtain ⟨hdst, hdc, hdk⟩ : d.pack.st = .charge ∧ charging d = true ∧ chargeKeeps d = false := by
    subst hd
    split <;> exact ⟨hst, hc, hk⟩
  rw [if_pos (c := d.pack.st = .charge ∧ chargeKeeps d = false) ⟨hdst, hdk⟩]
  split <;> simp [endCharge, hdc, noteEnd, packOff]

/-! ### A SUMMARY of the partner -/

/-- Noting the commits of acknowledged frames leaves the state of the pair and the SEQ last accepted (R742). -/
theorem noteCommits_keep_order (l : List KTx) (c : Chip) :
    (l.foldl noteCommit c).pair.st = c.pair.st ∧ (l.foldl noteCommit c).pair.rxSeq = c.pair.rxSeq := by
  induction l generalizing c with
  | nil => exact ⟨rfl, rfl⟩
  | cons f l ih => exact ih (noteCommit c f)

theorem kDrain_keeps_order (fuel : Nat) (c : Chip) :
    (kDrain fuel c).pair.st = c.pair.st ∧ (kDrain fuel c).pair.rxSeq = c.pair.rxSeq := by
  induction fuel generalizing c with
  | zero => exact ⟨rfl, rfl⟩
  | succ fuel ih =>
    unfold kDrain
    split
    · exact ⟨rfl, rfl⟩
    · split
      · refine (ih _).imp (·.trans ?_) (·.trans ?_) <;> (simp only [countSymbols]; split <;> rfl)
      · exact ⟨rfl, rfl⟩

/-- An ACK leaves what decides on a record: the state of the pair and the SEQ last accepted (R740, R741). -/
theorem kAck_keeps_order (ack : Nat) (c : Chip) :
    (kAck ack c).pair.st = c.pair.st ∧ (kAck ack c).pair.rxSeq = c.pair.rxSeq := by
  have h := noteCommits_keep_order (c.pair.unacked.take (ackedCount ack c.pair.unacked)) c
  simp only [kAck]
  split
  · exact h
  · exact (kDrain_keeps_order ..).imp (·.trans h.1) (·.trans h.2)

/-- A frame that the receiver takes: its ACK is taken, and its SEQ noted (R740, R741). -/
def frameTaken (f : KersorFrame) (c : Chip) : Chip :=
  let a := kAck f.ack c
  { a with pair := { a.pair with rxSeq := f.seq } }

/-- A record of its length and in order acts while the pair is joined (R738 … R740, R757). -/
theorem kRecord_of_joined {c : Chip} {f : KersorFrame} {len : Nat} (hk : kTakes c = true) (hl : f.payload.length = len)
    (hs : c.pair.st = .joined) (ho : f.seq = (c.pair.rxSeq + 1) % 256) (act : Chip → Chip) :
    kRecord len f act c = act (frameTaken f c) := by
  obtain ⟨hst, hrx⟩ := kAck_keeps_order f.ack c
  have hin : inOrder (kAck f.ack c) f = true := by simp [inOrder, hrx, ho]
  simp [kRecord, kFrame, hk, hl, hin, frameTaken, hst, hs]

/-- The gauge once it has noted the figures of a SUMMARY, its temperatures not yet formed anew (Table 15.5, R744). -/
def summaryNoted (p : List Byte) (c : Chip) : Chip :=
  let flags : BitVec 8 := p.getD 8 0
  { c with
    pair.them := { c.pair.them with
      soc := u16At p 0 % 2 ^ 14, temps := (i16At p 4, i16At p 6), eAvail := leNat (slice p 10 6), tte := u32At p 22
      qFcc := u32At p 26, sumAt := some c.now }
    tmp := if flags.getLsbD 1 then { c.tmp with partnerAt := none }
      else { c.tmp with partner := i16At p 6, partnerAt := some c.now, partnerIso := flags.getLsbD 0 } }

theorem takeSummary_eq (p : List Byte) (nvm : Nvm) (c : Chip) : takeSummary p nvm c = afterTemp nvm (summaryNoted p c) := rfl

/-- Where the temperatures that a SUMMARY brings forbid charging, charging ends, and TTF reads no time (R250, R847, R506). -/
theorem exec_summary_ends_charging {s : State} {t : Time} {f : KersorFrame} (hk : kTakes s.chip = true)
    (hl : f.payload.length = 36) (hs : s.chip.pair.st = .joined) (ho : f.seq = (s.chip.pair.rxSeq + 1) % 256) :
    let d := recomputeTemp (summaryNoted f.payload (frameTaken f (tick t s.chip)))
    charging d = true → chargeKeeps d = false → ∃ u, exec (.summary t f) s = .next u ∧ u.chip.learn.ttf = noTime := by
  intro d hc hw
  have hd := kRecord_of_joined (c := tick t s.chip) (len := 36) hk hl hs ho (takeSummary f.payload s.nvm)
  refine ⟨_, run_became hd, ?_⟩
  rw [became_chip, settle_learn, takeSummary_eq, afterTemp_learn]
  exact packPolicies_ends_charging hc hw

/-! ### The statement refuted -/

/-- A gauge of a joined pair that charges its pack; its die diode has failed, so that the partner's die stands for its own. -/
def chargingOnPartnersDie : State :=
  { State.reset with
    chip := settle { State.reset.chip with
      seq := { mode := .coupled, strap := .dgnd }
      pair := { st := .joined, lock := true }
      tmp := { die.failedSlew := true, packFormed := true, chgClosed := false, partner := 2500, partnerAt := some 0 }
      prs.present := true
      meas.vPack.precHeld := 26400
      tag := { verdict := .authenticated, header := List.replicate 6 0 ++ [8] }
      pack.st := .charge
      learn.ttf := 3600 } }

/-- A SUMMARY whose die reading is 125 °C. -/
def hotSummary : KersorFrame := { seq := 1, ack := 0, payload := List.replicate 6 0 ++ [0xD4, 0x30] ++ List.replicate 28 0 }

/-- Charging goes on until the SUMMARY comes: what the partner had told last lets it. -/
theorem chargingOnPartnersDie_charges :
    charging chargingOnPartnersDie.chip = true ∧ chargeKeeps (recomputeTemp chargingOnPartnersDie.chip) = true := by
  decide +kernel

/-- Refutes O54: the SUMMARY tells a die of 125 °C, which stands for 140 °C of this gauge's own and closes the charge window. Charging
ends, and TTF comes to read no time (R506), while the statement leaves the learned and reported figures unchanged. -/
theorem not_kersorFramesAndPartnerRecords : ¬ Obligations.KersorFramesAndPartnerRecords := by
  unfold Obligations.KersorFramesAndPartnerRecords
  rintro ⟨-, records⟩
  obtain ⟨-, -, -, -, -, -, summary, -⟩ := records chargingOnPartnersDie 0 hotSummary rfl rfl rfl rfl
  obtain ⟨u, hu, -, -, -, -, -, -, -, -, -, -, same⟩ := summary rfl
  obtain ⟨v, hv, noTtf⟩ := exec_summary_ends_charging (s := chargingOnPartnersDie) (t := 0) (f := hotSummary) rfl rfl rfl rfl
    (by decide +kernel) (by decide +kernel)
  obtain rfl : v = u := by simpa [hu] using hv.symm
  have kept : v.chip.learn = chargingOnPartnersDie.chip.learn := same .learn (by decide)
  exact absurd ((congrArg Learn.ttf kept).symm.trans noTtf) (by decide)

end Sys2Proof.Machine

/-! Detections (R785, R786) and FAULT_N (R787). The first part says what one detection leaves of the record, the alerts and the event
counts, by whether its bit was set, and settles O57; the second says that every step leaves the pins as the state has them, and
settles O29. -/

namespace Sys2Proof.Machine

/-! ### One detection -/

section
variable (b : Nat) (c : Chip)

@[simp] theorem latchAlert_causes (i : Nat) : (latchAlert i c).alert.causes = c.alert.causes ||| (1#5 <<< i) := by
  unfold latchAlert
  split <;> rfl

/-- Every detection is counted (R786). -/
@[simp] theorem setFault_events : (setFault b c).jrn.events = updAt c.jrn.events b (satInc 255) := by
  simp only [setFault]
  split <;> simp

variable {b c}

/-- A detection whose bit is set leaves the record as it is. -/
theorem setFault_ret_of_set (h : c.ret.sticky.getLsbD b = true) : (setFault b c).ret = c.ret := by
  simp only [setFault, if_pos h]

/-- Nor does it latch an alert. -/
theorem setFault_alert_of_set (h : c.ret.sticky.getLsbD b = true) : (setFault b c).alert = c.alert := by
  simp only [setFault, if_pos h]

/-- A detection whose bit is clear sets it, and marks it as the last, and as the first where none was set (R785). -/
theorem setFault_ret_of_clear (h : c.ret.sticky.getLsbD b = false) :
    (setFault b c).ret = { c.ret with
      sticky := c.ret.sticky ||| (1#160 <<< b)
      first := if c.ret.sticky = 0 then some (b, writeTime c) else c.ret.first
      last := some (b, writeTime c) } := by
  simp only [setFault, h]
  simp [writeTime, caravanSec, caravanUs]

/-- And it latches alert cause 0 (R786). -/
theorem setFault_causes_of_clear (h : c.ret.sticky.getLsbD b = false) :
    (setFault b c).alert.causes = c.alert.causes ||| (1#5 <<< 0) := by
  simp only [setFault, h]
  exact latchAlert_causes _ 0

/-- The other bits keep their values. -/
theorem setFault_getLsbD_of_ne {k : Nat} (hk : k ≠ b) : (setFault b c).ret.sticky.getLsbD k = c.ret.sticky.getLsbD k := by
  cases h : c.ret.sticky.getLsbD b with
  | true => rw [setFault_ret_of_set h]
  | false =>
    rw [setFault_ret_of_clear h]
    have apart : k < b ∨ k - b ≠ 0 := by omega
    rcases apart with below | above <;> simp [*]

end

/-- Settles O57: by whether the bit was set before. -/
theorem detectionsSetTheirBit : Obligations.DetectionsSetTheirBit := by
  unfold Obligations.DetectionsSetTheirBit
  intro c b hb e
  have isSet : e.ret.sticky.getLsbD b = true := setFault_sets (by omega) c
  refine ⟨isSet, fun k hk => setFault_getLsbD_of_ne hk, setFault_events b c, isSet,
    fun h => ⟨setFault_ret_of_set h, setFault_alert_of_set h⟩, fun h => ?_, by simp [e]⟩
  have ret : e.ret = _ := setFault_ret_of_clear h
  have causes : e.alert.causes = _ := setFault_causes_of_clear h
  simp +contextual [ret, causes]

/-! ### The pins after a step -/

section
variable {s u : State}

/-- The pins depend neither on what they were nor on the NVM interface. -/
theorem pinsOf_settle (c : Chip) : pinsOf (settle c) = pinsOf c := rfl

/-- Every step, with a command or on an empty queue, ends with the pins taking their states (R45). -/
theorem step_settles (h : step s = .next u) : ∃ c, u.chip = settle c := by
  unfold step at h
  split at h
  case h_1 =>
    cases h
    exact ⟨sendFrame s.chip, rfl⟩
  case h_2 i rest _ =>
    obtain ⟨t, f, runs⟩ := exec_runs i
    rw [runs] at h
    cases h
    exact ⟨_, rfl⟩

theorem step_pins (h : step s = .next u) : u.chip.pins = pinsOf u.chip := by
  obtain ⟨c, hc⟩ := step_settles h
  rw [hc, settle_pins, pinsOf_settle]

end

section
variable {c : Chip}

@[simp] theorem pinsOf_faultN : (pinsOf c).faultN = faultPin c := rfl

/-- FAULT_N is low while an internal reset stands (R46). -/
theorem faultPin_of_atReset (h : c.atReset = true) : faultPin c = .low := by simp [faultPin, pinsReset, h]

/-- Outside reset, SHIP and LIMP, FAULT_N is low while a set bit drives it (R787). -/
theorem faultPin_of_told (hm : c.seq.mode = .configure ∨ c.seq.mode = .parked ∨ c.seq.mode = .coupled ∨ c.seq.mode = .depot)
    (hr : c.atReset = false) : faultPin c = if c.ret.sticky &&& faultMask = 0 then .hiZ else .low := by
  rcases hm with hm | hm | hm | hm <;> simp [faultPin, pinsReset, hm, hr]

/-- Only a gauge in COUPLED or DEPOT whose path is in CHARGE drives CHG_EN (Table 2.3). -/
theorem pinsOf_chgEn_of_high (h : (pinsOf c).chgEn = true) :
    (c.seq.mode = .coupled ∨ c.seq.mode = .depot) ∧ c.pack.st = .charge := by
  simp only [pinsOf, coupledOrDepot, charging, Bool.and_eq_true, Bool.or_eq_true, beq_iff_eq] at h
  obtain ⟨⟨-, mode⟩, path, -⟩ := h
  exact ⟨mode, path⟩

/-- The setting of the charger stands with CHG_EN alone (R359). -/
theorem pinsOf_chgSet : (pinsOf c).chgSet = if (pinsOf c).chgEn then c.chg.set else 0 := rfl

end

/-- Settles O29: after every step the pins are those of the state, and each clause is one of `pinsOf`. -/
theorem pinsTellFaultsAndCharging : Obligations.PinsTellFaultsAndCharging := by
  unfold Obligations.PinsTellFaultsAndCharging
  intro s u h
  rw [step_pins h, pinsOf_faultN]
  refine ⟨faultPin_of_told, faultPin_of_atReset, pinsOf_chgEn_of_high, fun low => ?_⟩
  simp [pinsOf_chgSet, low]

end Sys2Proof.Machine

/-! The writes of a commit and the NVM domain (R225, R797, log entry 140). A stopped NVM domain ends no transaction, so a write ends only
while that domain runs; the clauses on the end of a write do not ask for it, and one state refutes O15. -/

namespace Sys2Proof.Machine

/-! ### The end of a write -/

theorem writeComplete_of_nvm_stopped {c : Chip} (h : nvmRuns c = false) (ok : Bool) (nvm : Nvm) :
    writeComplete ok nvm c = c := by
  cases run : c.jrn.run with
  | none => simp [writeComplete, run]
  | some r => simp [writeComplete, run, h]

/-- No write of a commit ends while the NVM domain is stopped. -/
theorem exec_nvmWriteComplete_of_nvm_stopped {s : State} (t : Time) (ok : Bool) (hspi : s.chip.spi = [])
    (h : nvmRuns s.chip = false) : exec (.nvmWriteComplete t ok) s = .next (after t (fun c => c) s) :=
  run_after (writeComplete_of_nvm_stopped (c := tick t s.chip) h ok s.nvm) hspi

/-! ### A commit that the NVM domain has left in the midst -/

/-- A commit into slot 0 whose PENDING mark is being written; its body and its COMMIT mark follow. -/
def commitAtPending : Commit where
  slot := 0
  seq := 1
  bytes := List.replicate 62 0 ++ u16B markCommit
  writes := [(62, u16B markPending), (0, List.replicate 62 0), (62, u16B markCommit)]
  start := 0
  writeAt := 0
  retried := false
  bad := false

/-- COUPLED, with that commit under way; the NVM domain has stopped since its write began (R225). -/
def nvmStoppedInCommit : State := { State.reset with chip := { State.reset.chip with
  seq := { mode := .coupled }
  clk.stopped := 2
  jrn.opened := true
  jrn.run := some commitAtPending } }

/-- Refutes O15: the statement lets each good write stand in the NVM and the next follow whatever the NVM domain does, but with that
domain stopped no write ends, and the PENDING mark stays the next write of the commit (R225, log entry 140). -/
theorem not_journalCommitsTakeTheNextSlot : ¬ Obligations.JournalCommitsTakeTheNextSlot := by
  unfold Obligations.JournalCommitsTakeTheNextSlot
  rintro ⟨-, -, writes⟩
  let s := nvmStoppedInCommit
  obtain ⟨-, ofRun⟩ := writes s 0 rfl
  obtain ⟨follows, -⟩ := ofRun commitAtPending rfl _ _ _ rfl
  have next := follows (by simp)
  rw [exec_nvmWriteComplete_of_nvm_stopped 0 true rfl (by decide)] at next
  have same := congrArg (fun u : State => u.chip.jrn.run.map (·.writes.length)) (Host.Outcome.next.inj next)
  exact absurd same (by decide)

end Sys2Proof.Machine
